-- ==== Sys2Proof/Word.lean ====
section
/-! DEFINITION. The byte and word types of the model. -/

namespace Sys2Proof

/-- One byte. -/
abbrev Byte := BitVec 8

/-- A string of bytes in ascending address order. -/
abbrev Bytes := List Byte

end Sys2Proof
end

