-- ==== Sys2Proof/Syntax.lean ====
section
/-! DEFINITION. The commands of Duern: one constructor of Instr per row of spec/opcode_table.json, with the operands that the row's rule gives it. -/

namespace Sys2Proof

/-- A partner port that carries writes (Table 15.12). -/
inductive PPort where
  | p0 | p1 | p3
  deriving DecidableEq, Repr

/-- A write as a partner port presents it (R463, R464): its port, the domain and the requester that it carries. -/
structure From where
  port : PPort
  domain : Nat
  requester : Nat
  deriving DecidableEq, Repr

/-- The two kinds of lane that THYME assigns slices to. -/
inductive LaneKind where
  | chive | dill
  deriving DecidableEq, Repr

/-- The verdict a lane latches at cycle 240 (R182, R245). -/
inductive Verdict where
  | pass
  /-- An input flit check failed: the payload is restaged (R184). -/
  | failFlit
  | fail
  deriving DecidableEq, Repr

/-- The data of a completed read: its bytes, and the poison bit of each 64-byte flit of its beats in ascending order (R445, R448). -/
structure ReadData where
  bytes : Bytes
  poison : List Bool
  deriving DecidableEq, Repr

/-- Some flit of the read arrived poisoned (R375). -/
def ReadData.poisoned (d : ReadData) : Bool := d.poison.any id

/-- What the integrity checks of a tick boundary find (R283, R291, R390): the checks are inputs, because a fault is. -/
structure TickChecks where
  /-- Counter A or B fails its residue or advance check. -/
  aFails : Bool
  bFails : Bool
  /-- The two counters disagree. -/
  disagree : Bool
  /-- Sequencers whose check fails in the step (R283): one of their own, or the read of an uncorrectable word of a microcode bank (R379). -/
  basilFails : List Nat
  /-- Signatures that are compared at the delivery of an operation (R386): its sequencer, its own signature, and its partner's. -/
  basilSigs : List (Nat × BitVec 64 × BitVec 64)
  /-- Bunches on whose key-distribution link, power switch or clock spine a check fires (R390). -/
  bunchFails : List Nat
  /-- The assignment of THYME's halves disagrees and no self-check decides (R382). -/
  thymeDisagrees : Bool
  /-- Held entry copies and fragment tables, by queue and count, a flit of which no longer agrees with its check (Table 12.1). -/
  heldFails : List (Nat × BitVec 17)
  /-- Flits of the writeback buffer that no longer agree with their check (R448): domain, line, and true for the second flit. -/
  lineFails : List (Nat × Nat × Bool)
  /-- Sequencers whose staging buffer fails its check on the load into operand memory (Table 12.1). -/
  stagingFails : List Nat
  deriving DecidableEq, Repr

/-- Outcome of a key-bus response (Table 15.10). -/
inductive KbOutcome where
  | granted | refused | unknown | error
  deriving DecidableEq, Repr

/-- The half of a lockstep pair that its own check blames (R381). -/
inductive Blame where
  | halfA | halfB | neither
  deriving DecidableEq, Repr

/-- The lockstep units of R381. -/
inductive LockUnit where
  | thyme | fennel | bay | mint | parsley | sorrel | sagePipe
  deriving DecidableEq, Repr

/-- A word of Table 12.2 that is uncorrectable: the element and what it belongs to. -/
inductive Element where
  | keySlot (domain handle : Nat)
  | useBlock (domain handle : Nat)
  | counterRecord (domain handle : Nat)
  | jobState (queue : Nat) (count : Nat)
  | context (queue : Nat) (count : Nat)
  | queueState (queue : Nat)
  | thymeState (halfB : Bool)
  | retirementMap
  | testVectors
  | shadowPointers
  | basilMemory (seq : Nat)
  | curveEntry (entry : Nat)
  | verifierRom (seq : Nat)
  | testRom (kind index : Nat)
  | eventStaging (domain index word : Nat)
  | mailboxArea (domain offset : Nat)
  | registerFifo
  | timeKeys
  | oscillatorModel
  | setupRegisters
  deriving DecidableEq, Repr

/-- The RC counters of Table 16.12. -/
inductive RcCounter where
  | ce | ue | spared
  deriving DecidableEq, Repr

/-- What the tests of step 7 found (Table 14.4): the units that failed, of a lockstep pair with the half (true for B), of a clock's pair of PLLs (true for ck_core) with the PLL (true for the second). -/
structure StartupFindings where
  chive : List Nat
  dill : List Nat
  basil : List Nat
  ports : List Nat
  kb : List Nat
  cells : List Nat
  halves : List (LockUnit × Bool)
  sageA : Bool
  sageB : Bool
  plls : List (Bool × Bool)
  deriving DecidableEq, Repr

/-- A strobe of a timestamp channel or PPS input (R293, Table 15.13a): the ck_time period within the tick, the phase in sixteenths, direction and frame identifier. -/
structure Strobe where
  period : Nat
  phase : Nat
  egress : Bool
  frameId : BitVec 16
  deriving DecidableEq, Repr

/-- The commands. Operands named q and c are a queue number and a 17-bit count; port and tag name an outstanding Ruren transaction (R444). -/
inductive Instr where
  -- ticks and slices
  | tickBoundary (checks : TickChecks)
  | sliceResult (kind : LaneKind) (lane : Nat) (gen : BitVec 12) (verdict : Verdict) (signature : BitVec 64)
  | epochBoundary
  -- queue pages
  | doorbell (src : From) (q : Nat) (w : BitVec 32)
  | disable (src : From) (q : Nat) (w : BitVec 32)
  | enable (src : From) (q : Nat) (w : BitVec 32)
  | pushWindowWrite (src : From) (q : Nat) (offset : Nat) (data : Bytes)
  | push (q : Nat) (parityError : Bool)
  | pushHalfTimeout (q : Nat)
  -- reads, writes, completions
  | entryReadResponse (port tag : Nat) (data : ReadData)
  | auxBlockReadResponse (port tag : Nat) (data : ReadData)
  | fragmentTableReadResponse (port tag : Nat) (data : ReadData)
  | payloadReadResponse (port tag : Nat) (data : ReadData)
  | writeResponse (port tag : Nat) (checkFails : Bool)
  | completionConfirm (port tag : Nat)
  | coalescingTimer (q : Nat)
  -- partner-port messages
  | p2Credit
  | linkDown (domain : Nat)
  | linkUp (domain : Nat)
  | requesterReset (src : From)
  | flr (domain : Nat)
  -- Ruren faults
  | fabricErrorResponse (port tag : Nat)
  | readTruncated (port tag : Nat) (beats : Nat) (data : ReadData) (byCheck : Bool)
  | writeTruncated (port tag : Nat)
  | checkResponse (port tag : Nat)
  | egressCheckFail (port tag : Nat)
  | portTestResult (port : Nat) (pass : Bool)
  | suspendedPortReadTimeout (port : Nat)
  | portRst (port : Nat)
  -- key bus and journal
  | keyLoadResponse (reqId : BitVec 16) (outcome : KbOutcome) (payload : Bytes)
  | slotWaitRetry (q : Nat) (c : BitVec 17)
  | useReserveResponse (reqId : BitVec 16) (outcome : KbOutcome) (s g : Nat)
  | keyRevoke (handle : Nat) (destroyed : Bool)
  | keyBusRequestLost (reqId : BitVec 16)
  | unwrapSlotSwitch (domain handle : Nat)
  | jnlWriteResponse (reqId : BitVec 16) (outcome : KbOutcome)
  | compactionStep
  | jnlReadResponse (reqId : BitVec 16) (data : Bytes)
  | jnlEraseResponse (reqId : BitVec 16) (outcome : KbOutcome)
  | journalRecovery
  -- context lines
  | claimResponse (port tag : Nat)
  | evictResponse (port tag : Nat) (superseded : Bool)
  | snoop (port stag domain line : Nat) (checkOk : Bool)
  | contextRestore (port tag : Nat) (data : ReadData)
  -- BASIL
  | basilOperationEnd (seq : Nat)
  | candidateBudgetExhausted (seq : Nat)
  | microcodeVerificationEnd
  | microcodeReload
  | microcodeBankUncorrectable (bankB : Bool)
  -- symmetric jobs
  | aesGcmEncrypt (q : Nat) (c : BitVec 17)
  | aesGcmDecrypt (q : Nat) (c : BitVec 17)
  | gmacGenerate (q : Nat) (c : BitVec 17)
  | gmacVerify (q : Nat) (c : BitVec 17)
  | aesCcmEncrypt (q : Nat) (c : BitVec 17)
  | aesCcmDecrypt (q : Nat) (c : BitVec 17)
  | aesXtsEncrypt (q : Nat) (c : BitVec 17)
  | aesXtsDecrypt (q : Nat) (c : BitVec 17)
  | aesCbcEncrypt (q : Nat) (c : BitVec 17)
  | aesCbcDecrypt (q : Nat) (c : BitVec 17)
  | aesCtr (q : Nat) (c : BitVec 17)
  | aesSivEncrypt (q : Nat) (c : BitVec 17)
  | aesSivDecrypt (q : Nat) (c : BitVec 17)
  | aesCmacGenerate (q : Nat) (c : BitVec 17)
  | aesCmacVerify (q : Nat) (c : BitVec 17)
  | keyWrap (q : Nat) (c : BitVec 17)
  | keyUnwrap (q : Nat) (c : BitVec 17)
  | chacha20Poly1305Encrypt (q : Nat) (c : BitVec 17)
  | chacha20Poly1305Decrypt (q : Nat) (c : BitVec 17)
  | hash (q : Nat) (c : BitVec 17)
  | hmacGenerate (q : Nat) (c : BitVec 17)
  | hmacVerify (q : Nat) (c : BitVec 17)
  | encryptThenMac (q : Nat) (c : BitVec 17)
  | verifyThenDecrypt (q : Nat) (c : BitVec 17)
  -- public-key jobs
  | rsaPrivate (q : Nat) (c : BitVec 17)
  | rsaPublic (q : Nat) (c : BitVec 17)
  | ecdsaSign (q : Nat) (c : BitVec 17)
  | ecdsaVerify (q : Nat) (c : BitVec 17)
  | ecdh (q : Nat) (c : BitVec 17)
  | keyGeneration (q : Nat) (c : BitVec 17)
  | eddsaSign (q : Nat) (c : BitVec 17)
  | eddsaVerify (q : Nat) (c : BitVec 17)
  | x25519 (q : Nat) (c : BitVec 17)
  | mlKemKeyGeneration (q : Nat) (c : BitVec 17)
  | mlKemEncapsulation (q : Nat) (c : BitVec 17)
  | mlKemDecapsulation (q : Nat) (c : BitVec 17)
  | mlDsaKeyGeneration (q : Nat) (c : BitVec 17)
  | mlDsaSign (q : Nat) (c : BitVec 17)
  | mlDsaVerify (q : Nat) (c : BitVec 17)
  | curveLoad (q : Nat) (c : BitVec 17)
  -- time jobs and control (all on Q1 but the time statement)
  | timeStatementRequest (q : Nat) (c : BitVec 17)
  | ptpEgress (c : BitVec 17)
  | ptpIngressVerify (c : BitVec 17)
  | ntsClientRequest (c : BitVec 17)
  | ntsClientResponseVerify (c : BitVec 17)
  | ntsServerExchange (c : BitVec 17)
  | adjust (c : BitVec 17)
  | step (c : BitVec 17)
  | sample (c : BitVec 17)
  | modeSelect (c : BitVec 17)
  | keyEntry (c : BitVec 17)
  | utc (c : BitVec 17)
  | fence (q : Nat) (c : BitVec 17)
  | noOp (q : Nat) (c : BitVec 17)
  -- SAGE
  | holdoverEntry
  | temperatureSample (theta : Int)
  | stepApplied
  | leap
  | sgInitLoad (src : From)
  | counterReturn (counterB : Bool)
  | pipelineStart (c : BitVec 17)
  | pipelineHandover (c : BitVec 17) (refused : Bool) (verdictOk : Bool)
  | timestampStrobe (ch : Nat) (strobe : Strobe)
  | ppsInputEdge (n : Nat) (strobe : Strobe)
  | ppsOutputEdge (n : Nat)
  -- PARSLEY
  | eventWrite (domain : Nat)
  | eventTimeout (domain : Nat)
  | headWordRead (domain : Nat) (w : BitVec 64)
  | eventWriteResponse (port tag : Nat)
  -- migration and mailboxes
  | dirtyLogRecordWrite (domain : Nat)
  | overflowClear (src : From) (page : Nat)
  | stopped (domain : Nat)
  | mbT2mDb (src : From) (page : Nat) (w : BitVec 32)
  | mbM2tDb (src : From) (page : Nat) (w : BitVec 32)
  | t2mAck (src : From) (page : Nat)
  | m2tAck (src : From) (page : Nat)
  | mailboxDisable (src : From) (page : Nat) (w : BitVec 32)
  | mailboxEnable (src : From) (page : Nat) (w : BitVec 32)
  | mailboxAreaWrite (src : From) (page offset : Nat) (data : Bytes)
  -- admin commands (on Q0)
  | identify (c : BitVec 17)
  | getLogDeferredError (c : BitVec 17)
  | getLogPlan (c : BitVec 17)
  | getLogMigrationState (c : BitVec 17)
  | getLogSelfTest (c : BitVec 17)
  | getFeaturesInterruptCoalescing (c : BitVec 17)
  | getFeaturesEventQueue (c : BitVec 17)
  | getFeaturesMigrationControl (c : BitVec 17)
  | setFeaturesInterruptCoalescing (c : BitVec 17)
  | setFeaturesEventQueue (c : BitVec 17)
  | logStart (c : BitVec 17)
  | stop (c : BitVec 17)
  | logEnd (c : BitVec 17)
  | restoreCount (c : BitVec 17)
  | microcodeDownload (c : BitVec 17)
  | microcodeActivate (c : BitVec 17)
  | createQueue (c : BitVec 17)
  | deleteQueue (c : BitVec 17)
  | domainCreate (c : BitVec 17)
  | domainResize (c : BitVec 17)
  | domainReset (c : BitVec 17)
  | domainDelete (c : BitVec 17)
  | domainResetComplete (domain : Nat)
  | selfTestChiveLane (c : BitVec 17)
  | selfTestBunch (c : BitVec 17)
  | selfTestDillLane (c : BitVec 17)
  | selfTestBasilSequencer (c : BitVec 17)
  | selfTestMemoryDataPort (c : BitVec 17)
  | selfTestSageStandbyCounter (c : BitVec 17)
  | selfTestThymeLockstepPair (c : BitVec 17)
  | selfTestKeyBusLane (c : BitVec 17)
  | selfTestEntropySource (c : BitVec 17)
  | selfTestStart (kind index : Nat)
  | selfTestTimeout (kind index : Nat)
  | selfTestEnd (kind index : Nat) (pass : Bool)
  | loadKeyByHandle (c : BitVec 17)
  | loadKeyAesKw (c : BitVec 17)
  | loadKeyAesKwp (c : BitVec 17)
  | postedLoadRun (load : BitVec 32)
  -- the register path
  | registerPathOpen (src : From)
  | registerPathFinish (src : From)
  | registerPathClose (src : From)
  | dgRpData (src : From) (word : BitVec 64)
  | dgRpLast (src : From) (word : BitVec 64)
  | registerPathDone
  | registerPathDataError
  -- mode requests
  | go (src : From)
  | resume (src : From)
  | drain (src : From)
  | quiesce (src : From)
  | lightSleep (src : From)
  | deepSleep (src : From)
  | provision (src : From)
  | reset (src : From)
  | drainedPoint
  | drainLimitExpiry
  | wakeTimer
  | wakeIn
  | powerOnReset
  | deviceReset
  | mainReset
  | pdAonSupplyLoss
  | sense
  | startupTestsEnd (found : StartupFindings)
  | enterService
  -- life cycle
  | transition (src : From) (code : BitVec 32)
  | otpCopyDone (readBack : Bool) (holdupOk : Bool)
  | programInstanceSlot (src : From) (index : Nat)
  | programEcdsaDigest (src : From) (index : Nat)
  | programMlDsaDigest (src : From) (index : Nat)
  | revokeEcdsaKey (src : From) (index : Nat)
  | revokeMlDsaKey (src : From) (index : Nat)
  -- tamper
  | tamperSourceFire (source : Nat)
  | alarmPortsStop
  | alarmClear (src : From)
  -- debug
  | request (src : From) (cls : Nat)
  | submit (src : From)
  | debugClose (src : From)
  | debugOpen (src : From) (cls : Nat)
  | debugResponseChecked
  | challengeExpiry
  -- integrity
  | lockstepMismatch (unit : LockUnit) (blame : Blame) (aTestFails bTestFails : Bool)
  | halfRejoin (unit : LockUnit) (halfB : Bool) (pass : Bool)
  | uncorrectableError (element : Element)
  | scrub (memory word : Nat) (corrected : Bool)
  | entropyHealthFail (cell : Nat)
  | pllSwitch (coreClock : Bool)
  | registerInterfaceFail
  | kbRst (lane : Nat)
  | linkUpLow (lane : Nat)
  | echoResponse (lane : Nat) (intact : Bool)
  -- registers and power
  | rcCounterRead (src : From) (counter : RcCounter)
  | registerWrite (src : From) (viaDebug : Bool) (addr size : Nat) (value : BitVec 64)
  | mainGood
  | timeGood
  | entropyStartUpTestsEnd
  deriving DecidableEq, Repr

end Sys2Proof
end

