-- ==== Sys2Proof/Decode.lean ====
section
/-! DEFINITION. The command that a word spells. The opcode table of Duern gives no row any bits: its commands arrive as events, register writes and entries, so no word spells one. -/

namespace Sys2Proof

/-- The command that a word of nbits bits spells by the table: no row has bits, so none. -/
def decodeTableWord (_nbits _w : Nat) : Option Instr := none

end Sys2Proof
end

