-- ==== Sys2Proof/Config.lean ====
section
/-! DEFINITION. What one implementation fixes and the values the spec leaves open. Every constant here is opaque: nothing can be proved about its value (notes/assumptions 1, 2, 7). -/

namespace Sys2Proof.Config

/-- GL_ID, "Fixed" (Table 16.4): the hardware identity of the revision. -/
opaque hwId : BitVec 32

/-- The n-th random byte that a DRBG or the entropy source yields (R264): a free value, applied to State.free. -/
opaque freeByte : Nat → Byte

/-- The n-th open value of the spec, of w bits (a value a rule leaves undefined or does not state): a free value, applied to State.free. -/
opaque freeValue : (w : Nat) → Nat → BitVec w

/-- The attestation scalar that the counter-mode KDF of SP 800-108 gives for a device secret (R282: label and context are not stated). -/
opaque attestationScalar : Bytes → Nat

/-- The entry (i, j) of the covariance that the oscillator model's least squares start from (R312 gives none). -/
opaque rlsFirst : Nat → Nat → Rat

/-- The coefficient, in 2^-16 ppb, and the covariance entry that SAGE stores for an exact value (R312 gives no number format). -/
opaque rlsRound : Rat → Int
opaque rlsStore : Rat → Rat

/-- The running RMS of the model's residuals, in 2^-16 ppb, after one more (R312 gives no window): inputs taken before, the RMS then, and the residual. -/
opaque rmsUpdate : (inputs rms : Nat) → (resid : Rat) → Nat

/-- The i-th nonce of the deterministic ECDSA generator of FIPS 186-5 (R268; the spec names no hash for it): curve, private scalar, hash value. -/
opaque detNonce : (curve : Nat) → (d : Nat) → Bytes → Nat → Nat

/-- The words, by memory and address, whose rows the memory test of step 4 finds bad (Table 14.4), at the n-th start-up. -/
opaque badRows : Nat → List (Nat × Nat)

/-- Whether the burst of a WRITE that has been sent is still in progress when it is cut: the n-th time that the question comes (Table 15.8). -/
opaque midBurst : Nat → Bool

/-- Byte i of the fixed pattern of the n-th ECHO frame of a lane's test (R461 gives none). -/
opaque echoByte : (n i : Nat) → Byte

/-- PT_PORT_MAP's code for a position that no port serves (Table 16.11 gives none). -/
opaque unservedPort : Nat → BitVec 4

/-- What a read of a size or an alignment that R476 does not name returns: address and size. -/
opaque oddRead : Nat → Nat → BitVec 64

end Sys2Proof.Config
end

