-- ==== Sys2Proof/Machine/Bytes.lean ====
section
/-! DEFINITION. Byte strings: byte order of numeric fields (R6) and of cryptographic strings (R7), slices, padding, and the CRC-32C of R372. -/

namespace Sys2Proof.Machine

/-- Number that a little-endian byte string stands for (R6). -/
def leNat : Bytes → Nat
  | [] => 0
  | b :: bs => b.toNat + 256 * leNat bs

/-- Number that a big-endian byte string stands for (R7). -/
def beNat (b : Bytes) : Nat := b.foldl (fun acc x => 256 * acc + x.toNat) 0

/-- The n low bytes of v, least significant first. -/
def leBytes : Nat → Nat → Bytes
  | 0, _ => []
  | n + 1, v => BitVec.ofNat 8 v :: leBytes n (v / 256)

/-- The n low bytes of v, most significant first. -/
def beBytes (n v : Nat) : Bytes := (leBytes n v).reverse

/-- len bytes of b from off on; bytes past the end are left out. -/
def sub (b : Bytes) (off len : Nat) : Bytes := (b.drop off).take len

/-- Little-endian field of len bytes at off. -/
def fieldLe (b : Bytes) (off len : Nat) : Nat := leNat (sub b off len)

/-- One byte, 0 past the end. -/
def byteAt (b : Bytes) (off : Nat) : Byte := b.getD off 0

/-- Bits [hi:lo] of a number (R5). -/
def bits (v hi lo : Nat) : Nat := (v >>> lo) % 2 ^ (hi + 1 - lo)

/-- Bit i of a number. -/
def bit (v i : Nat) : Bool := (v >>> i) % 2 == 1

/-- n zero bytes. -/
def zeros (n : Nat) : Bytes := List.replicate n 0

/-- b cut or zero-filled on the right to n bytes. -/
def padTo (n : Nat) (b : Bytes) : Bytes := (b ++ zeros (n - b.length)).take n

/-- Every byte is zero. -/
def allZero (b : Bytes) : Bool := b.all (· == 0)

/-- Every byte reads as erased NVM does (R216). -/
def allFF (b : Bytes) : Bool := b.all (· == 0xFF)

/-- Bytewise exclusive or, as long as the shorter string. -/
def xorB (a b : Bytes) : Bytes := List.zipWith (· ^^^ ·) a b

/-- b with the bytes of d written at off; b keeps its length. -/
def putAt (b : Bytes) (off : Nat) (d : Bytes) : Bytes :=
  (b.take off ++ (d.take (b.length - off)) ++ b.drop (off + d.length)).take b.length

/-- Zeros needed to fill len up to a multiple of m. -/
def padLen (m len : Nat) : Nat := (m - len % m) % m

/-- b zero-filled to a multiple of m bytes. -/
def padMul (m : Nat) (b : Bytes) : Bytes := b ++ zeros (padLen m b.length)

/-- a / b rounded up. -/
def ceilDiv (a b : Nat) : Nat := (a + b - 1) / b

/-- The string cut into blocks of n bytes, the last one perhaps shorter; fuel bounds the number of blocks. -/
def chunksF (n : Nat) : Nat → Bytes → List Bytes
  | 0, _ => []
  | _, [] => []
  | fuel + 1, b => b.take n :: chunksF n fuel (b.drop n)

/-- The string cut into blocks of n bytes. -/
def chunks (n : Nat) (b : Bytes) : List Bytes := chunksF n (b.length + 1) b

/-- One bit of a reflected CRC with polynomial p. -/
def crcBit (w : Nat) (p : BitVec w) (c : BitVec w) : BitVec w :=
  if c.getLsbD 0 then (c >>> 1) ^^^ p else c >>> 1

/-- One byte of a reflected CRC. -/
def crcByte (w : Nat) (p : BitVec w) (c : BitVec w) (b : Byte) : BitVec w :=
  let x := c ^^^ b.setWidth w
  crcBit w p (crcBit w p (crcBit w p (crcBit w p (crcBit w p (crcBit w p (crcBit w p (crcBit w p x)))))))

/-- CRC-32C with the parameters of R372: reflected 0x1EDC6F41, initial value and final XOR all ones. -/
def crc32c (b : Bytes) : BitVec 32 :=
  ~~~ (b.foldl (crcByte 32 0x82F63B78) (BitVec.allOnes 32))

/-- The flit check of a 64-byte flit (R372). -/
def flitCheck (f : Bytes) : BitVec 32 := crc32c (padTo 64 f)

/-- The flit checks of a string of flits. -/
def flitChecks (b : Bytes) : List (BitVec 32) := (chunks 64 b).map flitCheck

/-- The check that a flit is held with no longer agrees with it. -/
def spoil (checks : List (BitVec 32)) (i : Nat) : List (BitVec 32) := checks.modify i (~~~ ·)

/-- For each flit, whether it fails the check that it is held with (R372). -/
def flitFails (checks : List (BitVec 32)) (b : Bytes) : List Bool := (flitChecks b).zipIdx.map fun x => checks[x.2]? != some x.1

/-! ## Association lists -/

/-- The value under k, or d. -/
def assocD {κ ν : Type} [BEq κ] (l : List (κ × ν)) (k : κ) (d : ν) : ν := (l.lookup k).getD d

/-- The list with v under k; a new key goes to the end. -/
def assocSet {κ ν : Type} [BEq κ] : List (κ × ν) → κ → ν → List (κ × ν)
  | [], k, v => [(k, v)]
  | (k', v') :: l, k, v => if k' == k then (k, v) :: l else (k', v') :: assocSet l k v

/-- Element i, or d past the end. -/
def nth {α : Type} (l : List α) (i : Nat) (d : α) : α := l.getD i d

end Sys2Proof.Machine
end

