-- ==== Sys2Proof/Machine/State.lean ====
section
/-! DEFINITION. The state of Duern: every register, buffer, count and mode the spec gives the block, plain data throughout; Fault and Refusal; State.reset. INVENTORY.md lists each field with its rule and reset value. -/

namespace Sys2Proof.Machine

/-- Sparse store of registers: address in the window and value, rising addresses. -/
abbrev RegFile := List (Nat × BitVec 64)

/-! ## Mode and power (14_modes_power_startup.md) -/

/-- The twelve operating modes, Table 14.1. -/
inductive Mode where
  | cold | sense | startup | provisioning | service | degraded | drain | quiesce
  | lightSleep | deepSleep | authDebug | alarm
  deriving DecidableEq, Repr

/-- A request that R428 latches during the setup hold. -/
inductive HoldReq where
  | go | provision
  deriving DecidableEq, Repr

/-- Which steps of Table 14.4 have ended. -/
structure Steps where
  s1 : Bool
  s2 : Bool
  s3 : Bool
  s4 : Bool
  s5 : Bool
  s6 : Bool
  s7 : Bool
  s8 : Bool
  deriving DecidableEq, Repr

/-- Mode control: Table 14.2, R423 to R438. -/
structure ModeUnit where
  mode : Mode
  /-- GL_MODE_STATUS.target. -/
  target : BitVec 4
  hold : Bool
  quiet : Bool
  reqErr : Bool
  /-- Start-up failure code of R430. -/
  fail : BitVec 4
  latched : Option HoldReq
  steps : Steps
  /-- Step 8 waits in the branch that formats a blank journal (R431). -/
  formatWait : Bool
  /-- Tick of the start of PD_MAIN power-up: GL_STARTUP counts from it. -/
  step3Tick : Nat
  startup : BitVec 32
  /-- Tick of entry to Drain (R435). -/
  drainTick : Nat
  /-- Drain was entered from Provisioning (Table 14.3). -/
  fromProv : Bool
  /-- A RESUME waits in Drain, whose target stays DRAIN for as long as Drain lasts (Table 14.2). -/
  resume : Bool
  /-- The drained point of this Drain has been reached (R434). -/
  drainedPt : Bool
  /-- This start-up follows a wake from light sleep (R428). -/
  fromLight : Bool
  /-- Recovery: from a return from light or deep sleep until Service (R369). -/
  recovery : Bool
  /-- Steps 1 to 4 of R415 are under way: the mode that was in force at the latch is still the one reported. -/
  aborting : Bool
  mainOn : Bool
  timeOn : Bool
  deriving DecidableEq, Repr

/-- What PD_AON keeps: Tables 13.7, 14.2, R413, R437. -/
structure Aon where
  alarmLatched : Bool
  alarmMode : BitVec 4
  alarmSources : BitVec 12
  alarmTick : BitVec 64
  alarmAon : BitVec 48
  /-- The alarm has latched in the tick that runs (R415, R426). -/
  alarmNow : Bool
  wakeCause : BitVec 4
  resetCause : BitVec 6
  retention : RegFile
  deepTick : Nat
  /-- ck_aon periods since the entry into deep sleep (R437). -/
  aonCount : Nat
  deriving DecidableEq, Repr

/-! ## LOVAGE (13_lifecycle_tamper_debug.md) -/

/-- Life-cycle states, Table 13.1. -/
inductive Life where
  | blank | test | provisioned | secured | develop | returned | scrapped
  deriving DecidableEq, Repr

/-- A monotonic OTP word in its three copies (R399). -/
structure OtpMono where
  a : BitVec 32
  b : BitVec 32
  c : BitVec 32
  deriving DecidableEq, Repr

/-- One copy of a value word: its data bits, and whether its SECDED codeword decodes (R399). -/
structure OtpCopy where
  bits : BitVec 32
  decodes : Bool
  deriving DecidableEq, Repr

/-- A value word in its two copies (R399). -/
structure OtpVal where
  a : OtpCopy
  b : OtpCopy
  deriving DecidableEq, Repr

/-- Which copy of a word an OTP step programs, in the order A, B, C (R399). -/
inductive CopyId where
  | a | b | c
  deriving DecidableEq, Repr

/-- One copy still to program: the word's number, the copy and the bits to set. -/
structure OtpStep where
  word : Nat
  copy : CopyId
  bits : BitVec 32
  deriving DecidableEq, Repr

/-- The kinds of OTP operation (LC_OP_STATUS.op). -/
inductive OtpKind where
  | transition | programming | commit (bankB : Bool) (svn : Nat) | confirm
  deriving DecidableEq, Repr

/-- The OTP operation that is running (R407, R409); pulsed: the current copy has had its second pulse. -/
structure OtpOp where
  kind : OtpKind
  steps : List OtpStep
  pulsed : Bool
  /-- An alarm has latched: the copy in progress is the last (R409). -/
  halted : Bool
  deriving DecidableEq, Repr

/-- A debug challenge that awaits its response (R418). -/
structure Challenge where
  bytes : Bytes
  cls : Nat
  tick : Nat
  deriving DecidableEq, Repr

/-- LOVAGE: OTP, life-cycle state, tamper bits and debug authorisation. -/
structure Lovage where
  /-- Words 0 to 19 that are not blank. -/
  mono : List (Nat × OtpMono)
  /-- Words 20 to 135 that are not blank. -/
  vals : List (Nat × OtpVal)
  life : Life
  wordsLeft : Nat
  /-- Active instance slot, found at Sense (R402). -/
  instSlot : Option Nat
  op : Option OtpOp
  opDone : Bool
  opResult : BitVec 8
  opCode : BitVec 8
  /-- LC_TAMPER_HIT. -/
  hit : BitVec 12
  /-- Sources that are still firing (R417). -/
  firing : BitVec 12
  dbgClass : Nat
  retArmed : Bool
  chal : Option Challenge
  /-- The challenge of a submitted response that is being read and checked (R420): verifying is that there is one. -/
  checking : Option Challenge
  /-- The bytes of the response so far, and whether its read has failed. -/
  resp : Bytes
  respFailed : Bool
  /-- Class 3 or 4, with its return authorisation, that waits for the drained point (R421). -/
  granted : Option (Nat × Bool)
  dbgResult : BitVec 8
  /-- The key bus is closed by R421 until the next reset. -/
  dbgClosed : Bool
  /-- The device attestation scalar (R282). -/
  attKey : Option Nat
  deriving DecidableEq, Repr

/-! ## SAGE (09_secure_time.md) -/

/-- Servo modes, Table 9.10. -/
inductive ServoMode where
  | fw | hw | pps0 | pps1
  deriving DecidableEq, Repr

/-- Servo states, R309. -/
inductive ServoState where
  | freerun | locking | locked | holdover
  deriving DecidableEq, Repr

/-- The target of a pending step (R289), in units of 2^-40 ns. -/
inductive StepTarget where
  | offset (d : Int)
  | absolute (t : Nat)
  deriving DecidableEq, Repr

/-- A pending step; e_step is none for SG_INIT_CTL.load. -/
structure PendingStep where
  target : StepTarget
  eStep : Option (BitVec 32)
  deriving DecidableEq, Repr

/-- One counter of the pair (R291, R292): agreed counts the agreeing ticks of a repaired counter. -/
structure Counter where
  failed : Bool
  retired : Bool
  agreed : Nat
  failures : Nat
  /-- It is under a Self-Test: it cannot become active (Table 11.7a). -/
  testing : Bool
  deriving DecidableEq, Repr

/-- The oscillator model (R312, R380): coefficients and yB in 2^-16 ppb. -/
structure OscModel where
  c0 : Int
  c1 : Int
  c2 : Int
  /-- Covariance of the least squares, by rows; empty before the first update (R312). -/
  cov : List (List Rat)
  /-- Running RMS of the residuals, in 2^-16 ppb. -/
  rms : Nat
  yB : Nat
  /-- Accepted inputs taken since power-up or the last reset of the model. -/
  inputs : Nat
  isSet : Bool
  /-- y_b is held at 100 times SG_YFLOOR until 64 inputs (R380). -/
  wide : Bool
  deriving DecidableEq, Repr

/-- A time key table entry (R300, Table 9.5), with the state of R302. -/
structure TimeKey where
  index : Nat
  kind : BitVec 8
  tx : Bool
  rx : Bool
  cfZero : Bool
  keyId : BitVec 32
  handle : Nat
  handle2 : Nat
  lastSeq : List (Nat × BitVec 16)
  generations : Nat
  deriving DecidableEq, Repr

/-- Status codes, Table 4.16. -/
inductive Status where
  | ok | authFail | malformed | keyDenied | keyExhausted | keyOutsideWindow | fabricError
  | poisoned | tamperAbort | domainReset | flitCheckFail | piGuardFail | resourceBusy
  | unsupported | pkeParamInvalid | timeUntrusted | aborted | keyCacheFull | chainBroken
  deriving DecidableEq, Repr

/-- A message in the authentication pipeline (R303): the job's count on Q1, the tick of T0, what T0 latched, and the outcome once it is formed. -/
structure PipeMsg where
  count : BitVec 17
  start : Nat
  /-- Time key entry latched at T0, and the one that seals the new cookie of a server exchange. -/
  entry : Option TimeKey
  sealer : Option TimeKey
  /-- L of R304 in 2^-40 ns; none for a verify. -/
  launch : Option Nat
  /-- The addend's offset and utc_offset at the boundary of T0 (R303, R307). -/
  adj : Int
  utc : BitVec 16
  /-- A counter swap abandons the message (R308). -/
  abandoned : Bool
  /-- Status and output: formed at T0 when a check of it fails, else by the message's own operation. -/
  result : Option (Status × Bytes)
  deriving DecidableEq, Repr

/-- A change by a control job that takes effect at the next tick boundary (R299). -/
inductive TimeChange where
  | adjust (freq : Int) (eServo : BitVec 32)
  | sample (o : Int) (eRef eAsym : BitVec 32) (refId : Bytes)
  | servoMode (m : ServoMode)
  | keyEntry (index : Nat) (k : Option TimeKey)
  | utc (offset : BitVec 16) (leap : BitVec 8) (leapAt : BitVec 48)
  deriving DecidableEq, Repr

/-- SAGE. Times are in units of 2^-40 ns. -/
structure Sage where
  now : Nat
  adj : Int
  /-- Addend offset that the next tick boundary puts in force (R288, R32). -/
  adjNext : Option Int
  saturated : Bool
  pendingStep : Option PendingStep
  activeB : Bool
  ctrA : Counter
  ctrB : Counter
  servoMode : ServoMode
  servoState : ServoState
  yInt : Int
  freq : Int
  /-- The frequency that is in force from the next boundary (R288). -/
  freqNext : Option Int
  /-- Offset at the last accepted input, and of the last SAMPLE, in 2^-16 ns. -/
  lastO : Int
  sampleO : Int
  outliers : Nat
  goodRun : Nat
  recentO : List Nat
  /-- Ticks since the last accepted input; none before the first. -/
  sinceInput : Option Nat
  eRef : BitVec 32
  eAsym : BitVec 32
  /-- e_servo of the last ADJUST, and e_step of a step until the next accepted input (R313). -/
  eAdjust : BitVec 32
  eStep : Option (BitVec 32)
  refId : Bytes
  model : OscModel
  theta : Int
  /-- Ticks until the next temperature sample is due (R312). -/
  sampleIn : Nat
  /-- Temperature samples since the last accepted input: their sum and number (R312). -/
  thetaSum : Int
  thetaCnt : Nat
  utcOffset : BitVec 16
  leap : BitVec 8
  leapAt : BitVec 48
  keys : List TimeKey
  chSeq : List (BitVec 32)
  ntsPrefix : BitVec 64
  ntsCount : BitVec 32
  ntsDue : Bool
  pipe : List PipeMsg
  /-- Changes by control jobs that wait for the next boundary. -/
  waiting : List TimeChange
  ppsEnd0 : Option Nat
  ppsEnd1 : Option Nat
  deriving DecidableEq, Repr

/-! ## THYME (02_tick_and_plans.md) -/

/-- Classes of a plan record, Table 2.2. -/
inductive PlanClass where
  | shared | sealed
  deriving DecidableEq, Repr

/-- A plan record, Table 2.2. -/
structure PlanRec where
  chive : Nat
  dill : Nat
  basil : Nat
  cls : PlanClass
  verified : Bool
  cap : Nat
  weight : Nat
  revision : BitVec 32
  deriving DecidableEq, Repr

/-- A staged change of one domain: its record, or removal, and the epoch of effect (R59, R60, R62). -/
structure Staged where
  domain : Nat
  plan : Option PlanRec
  epoch : Nat
  deriving DecidableEq, Repr

/-- A slot of the slot map (R44, Table 2.3). -/
structure Slot where
  frame : Nat
  unit : LaneKind
  pos : Nat
  domain : Nat
  /-- Second member of a verified pair. -/
  second : Bool
  deriving DecidableEq, Repr

/-- Why a lane runs an issue. -/
inductive Role where
  | primary | shadow | retry | test
  deriving DecidableEq, Repr

/-- An issue of a slice to a lane (R38, R71). A delivered issue waits for its shadow's signature (R383). -/
structure Issue where
  unit : LaneKind
  lane : Nat
  pos : Nat
  domain : Nat
  queue : Nat
  count : BitVec 17
  slice : Nat
  gen : BitVec 12
  role : Role
  /-- The lane that runs the other copy of the slice in the same tick. -/
  partner : Option Nat
  delivered : Option (Verdict × BitVec 64)
  /-- The lane's key registers, loaded from BAY over the bunch link as the slice starts and cleared in the guard band (R153, R222): the key, the older member of a pair, and the key that a wrap wraps. -/
  keys : List Bytes
  deriving DecidableEq, Repr

/-- One of a CHIVE lane's two output buffers, used alternately, with the output that waits for its write-back (R151, R153, R169): zeroed output is that of a failed comparison; held says that the comparison has still to be judged. -/
structure LaneOut where
  lane : Nat
  second : Bool
  queue : Nat
  count : BitVec 17
  slice : Nat
  held : Bool
  zeroed : Bool
  data : Bytes
  deriving DecidableEq, Repr

/-- Read and write beat accounts of a domain (R167). -/
structure Account where
  domain : Nat
  read : Nat
  write : Nat
  deriving DecidableEq, Repr

/-- THYME. -/
structure Thyme where
  tick : Nat
  epoch : Nat
  /-- The tick is the first of an epoch and EPOCH_BOUNDARY has not run. -/
  epochDue : Bool
  /-- THYME's halves disagreed, so that the next assignment is not made (R382). -/
  idle : Bool
  /-- The tick began at a step to a time off the 160 ns grid: it is short, and nothing is issued in it (R34). -/
  short : Bool
  tickCycles : Nat
  /-- Fraction of a core cycle carried to the next tick, 2^-24 cycles (R32). -/
  cycAcc : Nat
  plan : List (Nat × PlanRec)
  compiled : List (Nat × PlanRec)
  staged : List Staged
  slotMap : List Slot
  revisions : List (Nat × BitVec 32)
  chiveCredit : List (Nat × Int)
  dillCredit : List (Nat × Int)
  accounts : List Account
  frameUse : List (Nat × Nat)
  /-- Active ports at the last epoch boundary or entry to Service: fewer of them now, and every CHIVE slot is charged 32 beats (R457). -/
  epochPorts : Nat
  /-- Payload beats that the frame has moved, read and written (R43, R53). -/
  frameRead : Nat
  frameWrite : Nat
  laneOf : List (Option Nat)
  dillOf : List (Option Nat)
  /-- Holder of each BASIL service position (R55), and the sequencer that it maps to (R248). -/
  basilOf : List (Option Nat)
  seqOf : List (Option Nat)
  issues : List Issue
  /-- Output buffers of the CHIVE lanes that hold something (Table 5.1). -/
  outs : List LaneOut
  deriving DecidableEq, Repr

/-! ## SORREL (12_integrity_and_availability.md) -/

/-- Health of a replaceable unit (R389). -/
inductive Health where
  | healthy | suspended | retired
  deriving DecidableEq, Repr

/-- A lane or sequencer: health, suspensions in the epoch, whether its bunch took it out (R390), and how much of its test set has passed: vectors of a lane, ticks of a sequencer (R387, R388). -/
structure UnitState where
  health : Health
  suspensions : Nat
  withBunch : Bool
  tested : Nat
  deriving DecidableEq, Repr

/-- What a memory data port does (Table 16.11). -/
inductive PortRole where
  | position (k : Nat) | spare | suspended | retired
  deriving DecidableEq, Repr

/-- A memory data port: role, suspension counts and egress failures in the epoch (R374, R456). -/
structure PortState where
  role : PortRole
  counts : Nat
  egress : Nat
  /-- What the test read differs from what it wrote (R456). -/
  bad : Bool
  deriving DecidableEq, Repr

/-- A half of a lockstep pair (R381). -/
inductive Half where
  | inPair | left | retired
  deriving DecidableEq, Repr

/-- A key-bus lane: health, requests lost and received frames that failed their check in the epoch, ECHO frames back in its test (R461). -/
structure KbLane where
  health : Health
  losses : Nat
  badFrames : Nat
  echoes : Nat
  deriving DecidableEq, Repr

/-- A Self-Test asked for by an admin command (R350 to R352). -/
structure SelfTest where
  kind : Nat
  index : Nat
  accepted : Nat
  started : Bool
  /-- The second half or cell of a pair is under test (Table 11.7a). -/
  second : Bool
  count : BitVec 17
  deriving DecidableEq, Repr

/-- An entry of the Self-Test log (R359). -/
structure TestLogEntry where
  tick : Nat
  kind : Nat
  outcome : Nat
  index : Nat
  count : BitVec 17
  deriving DecidableEq, Repr

/-- SORREL. -/
structure Sorrel where
  lanes : List UnitState
  dill : List UnitState
  basil : List UnitState
  ports : List PortState
  kb : List KbLane
  /-- Halves A and B of each unit of R381. -/
  halves : List (LockUnit × Half × Half)
  /-- Units whose halves have disagreed with no half to blame in this tick: their work is repeated one tick later (R381). -/
  repeating : List LockUnit
  cells : List Bool
  /-- The standby PLL of ck_time, of ck_core, is the active one (R394). -/
  pllTime : Bool
  pllCore : Bool
  chivePtr : Nat
  dillPtr : Nat
  basilPtr : Nat
  /-- BASIL service position whose exchange with the reserve waits (R388). -/
  exchange : Option Nat
  ce : BitVec 32
  ue : BitVec 32
  spared : BitVec 32
  tests : List SelfTest
  testLog : List TestLogEntry
  /-- Words corrected by the last scrub: memory and word (R377). -/
  scrubSeen : List (Nat × Nat)
  /-- Spare rows used: memory and number. -/
  spareRows : List (Nat × Nat)
  /-- PLLs that start-up has retired: of ck_core or of ck_time, the second or the first of the pair (R429). -/
  pllBad : List (Bool × Bool)
  regIfFailed : Bool
  /-- Lanes that cycle 241 of this tick suspends, each with whether its own verdict failed (R389, R390). -/
  failedNow : List (LaneKind × Nat × Bool)
  deriving DecidableEq, Repr

/-! ## FENNEL (03_rings_and_doorbells.md, 04_job_descriptors.md) -/

/-- Descriptor generations, Table 3.1. -/
inductive Gen where
  | a | b | c
  deriving DecidableEq, Repr

/-- A copy of an entry that FENNEL holds (R98, R99); pushed copies are express (R39). -/
structure EntryCopy where
  count : BitVec 17
  bytes : Bytes
  express : Bool
  /-- Status with which the count ends without being run: a failed entry read, a damaged mark (R97), a pushed copy that is not fresh (R95). -/
  bad : Option Status
  /-- The flit checks that it is held with, and the port that brought it, but for a pushed one (R372, R373). -/
  checks : List (BitVec 32)
  port : Option Nat
  deriving DecidableEq, Repr

/-- A pending first half of a Gen C push (R93). -/
structure PushHalf where
  src : From
  data : Bytes
  tick : Nat
  deriving DecidableEq, Repr

/-- One queue: ring geometry, Table 3.3 to 3.6 fields and FENNEL's state for it. -/
structure Queue where
  num : Nat
  domain : Nat
  gen : Gen
  n : Nat
  base : Nat
  vector : BitVec 16
  coalCount : BitVec 8
  coalTicks : BitVec 16
  urgent : Bool
  head : BitVec 17
  tail : BitVec 17
  enabled : Bool
  disabling : Bool
  /-- Covered counts that read stale and wait for the next doorbell or push; the stall bit is that there is one (R97). -/
  stale : List (BitVec 17)
  /-- Counts in flight whose entries are read again because the queue's state has been rebuilt (R378). -/
  recheck : List (BitVec 17)
  /-- Counts whose held copy has failed its flit check: their entries are read again, once (Table 12.1). -/
  unsound : List (BitVec 17)
  dbError : Bool
  pushDiscard : Bool
  linkDown : Bool
  /-- Confirmed completions since the last interrupt request (R106). -/
  pendingInt : Nat
  firstPending : Option Nat
  lastInt : Option Nat
  /-- An urgent completion was confirmed in a tick that had its interrupt request (R106, R107). -/
  urgentDue : Bool
  copies : List EntryCopy
  /-- The next count to validate (R101). -/
  validated : BitVec 17
  pushHalf : Option PushHalf
  /-- Links of the chain so far; 0 outside a chain (R137). -/
  chainLen : Nat
  chainBroken : Bool
  /-- A doorbell or push has been accepted since Create Queue (R338). -/
  used : Bool
  deriving DecidableEq, Repr

/-- What waits in the arrival queue until FENNEL accepts it (R88): a doorbell write, or a complete push (R92). -/
inductive Arrival where
  | bell (q : Nat) (w : BitVec 32)
  | push (q : Nat) (data : Bytes)
  deriving DecidableEq, Repr

/-- State of one slice of a job. -/
inductive SliceState where
  | reading | staged | issued
  /-- Delivered with a passing verdict; its output waits for its write-back, if it has one. -/
  | delivered
  /-- Its write-back is on its way. -/
  | writing
  deriving DecidableEq, Repr

/-- One stream of a job state record (R160, R164): the chaining value of a serial mode, or register and semiblocks of a wrap (R207); the carried partial block; the accumulator of a final-fold mode (R162); S2V's sum over its finished components (R166). -/
structure Stream where
  chain : Bytes
  part : Bytes
  acc : Nat
  comps : Bytes
  deriving DecidableEq, Repr

/-- A job state record (R160): the streams of the key and of the older member of a pair, the count of delivered slices, and what a finished first pass gave: V (R166). -/
structure JobRec where
  newer : Stream
  older : Stream
  delivered : Nat
  first : Bytes
  deriving DecidableEq, Repr

/-- A slice that FENNEL has taken into its staging pool (R51, R168). -/
structure Slice where
  index : Nat
  state : SliceState
  /-- Tick of the read request (R50), and earliest tick of eligibility (R39). -/
  asked : Nat
  eligible : Nat
  fails : Nat
  retry : Bool
  /-- Position of the issue that failed last: the order of R70. -/
  pos : Nat
  /-- Signatures of failed comparisons, for the referee of R385: lane and signature. -/
  votes : List (Nat × BitVec 64)
  /-- The slice's staging buffer (R50, R168): the source bytes of its range once they are staged; DILL slices of an encrypting 0x50 find the ciphertext there (R181). -/
  buf : Bytes
  /-- The record that the slice ran from, once it has delivered: a slice issued again at egress runs from it and leaves the record as it is (R183, R374). -/
  inputs : Option JobRec
  /-- Output that has moved from the lane into the staging buffer (R178), and the data unit and check that failed in it (R177). -/
  out : Bytes
  fault : Option (Nat × Nat)
  deriving DecidableEq, Repr

/-- How the slices of a pass follow each other (R157). -/
inductive Order where
  | parallel | fold | serial
  deriving DecidableEq, Repr

/-- A pass of a job over its payload (R36, R157): slice k carries bytes start + k * size on, of total bytes from start; slices below first do not exist on this unit (R180). -/
structure Pass where
  unit : LaneKind
  size : Nat
  start : Nat
  total : Nat
  first : Nat
  count : Nat
  order : Order
  /-- The pass reads its payload from memory, and writes output (R173, R181). -/
  reads : Bool
  writes : Bool
  deriving DecidableEq, Repr

/-- The part a key plays in a job (R204). -/
inductive KeyRole where
  | key | key2 | pair | newer | older
  deriving DecidableEq, Repr

/-- A key of a job: its role, whether it belongs to key2, and the failure of R195 when it has one. -/
structure JobKey where
  role : KeyRole
  second : Bool
  handle : Nat
  failed : Option Status
  deriving DecidableEq, Repr

/-- Where a job stands. -/
inductive Phase where
  /-- Waits for its aux or parameter block (R120). -/
  | aux
  /-- Waits for its fragment tables (R135). -/
  | frags
  /-- Waits for keys (R194). -/
  | keys
  /-- Waits for the place of a context that is being saved (R233). -/
  | ctxWait
  /-- Waits for hardware-IV reservation (R213). -/
  | ivWait
  /-- Its slices are staged, issued and delivered. -/
  | slices
  /-- A public-key or statement job that waits for or runs on a sequencer. -/
  | basil
  /-- A Q1 message or control job whose block is staged, or an admin command that waits to take effect. -/
  | command
  /-- In SAGE's pipeline. -/
  | pipe
  /-- Runs to a status: outputs or zeros are being written. -/
  | writing
  /-- Its completion can be issued. -/
  | ended
  /-- Its completion write is outstanding. -/
  | completing
  /-- Its completion is confirmed and waits for ring order. -/
  | confirmed
  deriving DecidableEq, Repr

/-- One job: an accepted entry from validation to its confirmed completion. -/
structure Job where
  queue : Nat
  count : BitVec 17
  domain : Nat
  gen : Gen
  entry : Bytes
  express : Bool
  phase : Phase
  aux : Option Bytes
  srcTable : Option (List (Nat × Nat))
  dstTable : Option (List (Nat × Nat))
  /-- Bytes of the fragment table being read. -/
  tableBuf : Bytes
  /-- The flit checks of the table read so far, the port that brought it, and whether it is its second read (Table 12.1). -/
  tableChecks : List (BitVec 32)
  tablePort : Option Nat
  tableAgain : Bool
  /-- Source bytes that have arrived: offset in the source and bytes. -/
  data : List (Nat × Bytes)
  slices : List Slice
  passes : List Pass
  /-- The next slice index to stage (the index counts through every pass, R157), and the indices delivered. -/
  nextSlice : Nat
  deliveredIdx : List Nat
  /-- Slot position of the slice that delivered last: the position of output that is written after it (R52). -/
  lastPos : Nat
  /-- Holds a job state record (R160), or a sequencer's staging buffer (R259). -/
  hasRecord : Bool
  jrec : JobRec
  /-- What the last slice has delivered under the key and under the older member: tag, MAC, digest, or wrapped or unwrapped key. -/
  made : Bytes
  madeOld : Bytes
  keys : List JobKey
  /-- A Q1 job that waits for its command has had its keys found in BAY (R199, R203). -/
  found : Bool
  charged : Bool
  /-- Tick in which the job reached the last free object of a pool (R330). -/
  asked : Option Nat
  iv : Option Bytes
  firstTick : Option Nat
  /-- Tick at which its frame of eligibility began: when it was staged. -/
  stagedTick : Nat
  /-- The type 0x3 record and body, and its granted use index (R259). -/
  pk : Option Bytes
  pkUse : Option Nat
  outTag : Bytes
  detail : BitVec 32
  bytesDone : Nat
  /-- Output ranges whose write response has returned: offset and length (R146). -/
  acked : List (Nat × Nat)
  wroteOutput : Bool
  status : Option Status
  retried : Bool
  shadowed : Bool
  pairBoth : Bool
  pairOld : Bool
  /-- The deferred-error flag that its completion record carries (Table 4.14, R106). -/
  deferredFlag : Bool
  /-- Time for completion bytes 48 to 59, 2^-40 ns. -/
  time : Option Nat
  /-- Zero-fill lane-ticks still to take and the ranges they write (R170). -/
  zeros : List (Nat × Nat)
  /-- Result words of an admin command (Table 11.2). -/
  result0 : BitVec 64
  result1 : BitVec 64
  adminDetail : BitVec 16
  /-- Tick and reset mark of an admin entry (R345). -/
  resetMark : Bool
  deriving DecidableEq, Repr

/-- A P2 notice (R467). -/
structure Notice where
  domain : Nat
  queue : Nat
  count : BitVec 17
  status : Status
  detail : BitVec 32
  deriving DecidableEq, Repr

/-- FENNEL. -/
structure Fennel where
  queues : List Queue
  /-- The arrival queue, oldest first (R88). -/
  arrivals : List Arrival
  jobs : List Job
  p2Store : List Notice
  p2Credits : Nat
  p2Dropped : Bool
  deriving DecidableEq, Repr

/-! ## Ports (15_ports_and_integration.md) -/

/-- Ruren operations, Table 15.2. -/
inductive RurenOp where
  | read | write | claim | evict
  deriving DecidableEq, Repr

/-- Traffic classes, Table 15.3. -/
inductive TClass where
  | metadata | sealed | shared | maintenance
  deriving DecidableEq, Repr

/-- What a transaction carries. -/
inductive Purpose where
  /-- One beat of entries, and the counts that it is read for (R86); again: its second read, after it arrived poisoned (R375). -/
  | entry (q : Nat) (cs : List (BitVec 17)) (prefetch again : Bool)
  | aux (q : Nat) (c : BitVec 17)
  | table (q : Nat) (c : BitVec 17) (dst : Bool)
  | payload (q : Nat) (c : BitVec 17) (slice offset : Nat)
  | restore (q : Nat) (c : BitVec 17) (older : Bool)
  | package (bankB : Bool)
  /-- A debug response (R420): the offset of the piece. -/
  | response (offset : Nat)
  /-- A domain's head word (R365). -/
  | headWord (domain : Nat)
  | output (q : Nat) (c : BitVec 17) (slice offset : Nat)
  | zero (q : Nat) (c : BitVec 17) (offset : Nat)
  | result (q : Nat) (c : BitVec 17)
  | completion (q : Nat) (c : BitVec 17)
  /-- interrupts: the write is one of those whose response requests an interrupt (R368). -/
  | events (domain first n : Nat) (interrupts : Bool)
  | dirty (domain : Nat)
  | marker (domain : Nat)
  | stamp (channel : Nat)
  | line (q : Nat) (c : BitVec 17) (older : Bool) (index : Nat)
  /-- A write or read of the test of a suspended port (R456), and the place of its pattern among the free values. -/
  | portTest (port first : Nat)
  deriving DecidableEq, Repr

/-- A Ruren transaction (R444): while it waits to be sent its tag is none, and its port counts for a port test only (R455, R494). The data of a read is what a cut left of it. -/
structure Txn where
  port : Nat
  tag : Option Nat
  op : RurenOp
  cls : TClass
  domain : Nat
  iova : Nat
  len : Nat
  data : Bytes
  purpose : Purpose
  /-- Slot position by which sealed requests leave (R52). -/
  pos : Nat
  /-- It goes out on a spare port, after a truncation (R450, R452). -/
  spare : Bool
  /-- It has been truncated once (R451, R452). -/
  cut : Bool
  /-- The port that it is not to go out on again, when another one is active (R447, R498). -/
  avoid : Option Nat
  /-- It has been sent before, and is issued again with the same bytes (R447, R452, R498). -/
  again : Bool
  /-- Poison bits of the flits of its data: of what a cut read had brought, or of an EVICT's line (R448). -/
  poison : List Bool
  /-- A domain reset has cut or discarded it: its response is awaited only (Table 15.8). -/
  dead : Bool
  deriving DecidableEq, Repr

/-! ## BAY, key bus, MINT (06_keys_and_nonces.md) -/

/-- A key record, Table 6.1. -/
structure KeyRec where
  typ : Nat
  alg : Nat
  policy : BitVec 16
  klen : Nat
  hdigest : Nat
  useLimit : Nat
  notBefore : Nat
  notAfter : Nat
  newer : Nat
  older : Nat
  material : Bytes
  /-- Every reserved field of Table 6.1 reads zero. -/
  clean : Bool
  deriving DecidableEq, Repr

/-- MINT's counter state of a slot (R212, R213): next value, end of the confirmed blocks, and whether a reservation is on its way. -/
structure IvCounter where
  next : Nat
  limit : Nat
  asked : Bool
  refused : Bool
  /-- No block has been confirmed since the slot was loaded or the record created: a draw waits (R213). -/
  fresh : Bool
  deriving DecidableEq, Repr

/-- A BAY slot (R199 to R208). -/
structure KeySlot where
  domain : Nat
  handle : Nat
  loading : Bool
  record : Option KeyRec
  /-- Key material in use; none in a slot-only slot that nothing has filled (R208). -/
  material : Option Bytes
  useNext : Nat
  useEnd : Nat
  useAsked : Bool
  exhausted : Bool
  pinned : Bool
  revoked : Bool
  /-- An unwrapped key that waits for the switch (R208). -/
  newKey : Option Bytes
  lru : Nat
  counter : Option IvCounter
  deriving DecidableEq, Repr

/-- BAY. -/
structure Bay where
  slots : List KeySlot
  clock : Nat
  deriving DecidableEq, Repr

/-- A journal target (Table 15.10). -/
inductive JTarget where
  | copyA | copyB | map
  deriving DecidableEq, Repr

/-- What a key-bus request asks for (Table 6.5). -/
inductive KbKind where
  | keyLoad
  | useReserve (n : Nat)
  | jnlRead (target : JTarget) (offset len : Nat)
  | jnlWrite (target : JTarget) (offset : Nat) (data : Bytes)
  | jnlErase (target : JTarget)
  /-- An ECHO frame of a lane's test, and which of the 256 (R461). -/
  | echo (n : Nat)
  deriving DecidableEq, Repr

/-- Who a key-bus response is for. -/
inductive KbFor where
  | slot
  | job (q : Nat) (c : BitVec 17)
  | mint
  | lane (lane : Nat)
  deriving DecidableEq, Repr

/-- A key-bus request that is waiting or outstanding (R193, R458): its place in the order of raising; the number of its request frame once that has been sent, and the req_id that it carries. -/
structure KbReq where
  serial : Nat
  reqId : BitVec 16
  frame : Option Nat
  lane : Nat
  kind : KbKind
  domain : Nat
  handle : Nat
  dest : KbFor
  tick : Nat
  errors : Nat
  deriving DecidableEq, Repr

/-- The key bus at P5. -/
structure KeyBus where
  reqs : List KbReq
  /-- Requests raised so far. -/
  serial : Nat
  /-- BY_JNL_A, BY_JNL_B and BY_JNL_MAP as the lock of BY_CFG has found them: static values at P5 until a reset (R485). -/
  presented : Option (BitVec 48 × BitVec 48 × BitVec 48)
  /-- The req_id that the next request frame carries, when no outstanding request has it. -/
  nextId : BitVec 16
  nextFrame : Nat
  deriving DecidableEq, Repr

/-- A counter record (R210, R212). -/
structure CtrRec where
  domain : Nat
  handle : Nat
  ceiling : Nat
  spent : Bool
  removal : Bool
  /-- Byte offset of its latest record in the active copy, and in the copy that a compaction builds (R218); none before there is one. -/
  pos : Option Nat
  newPos : Option Nat
  /-- Its word was uncorrectable: it is being read again from the active copy (Table 12.2). -/
  unread : Bool
  deriving DecidableEq, Repr

/-- A reservation or spent record to append to the log(s) (R216, R218). -/
structure Append where
  domain : Nat
  handle : Nat
  ceiling : Nat
  spent : Bool
  /-- Writes that it still has to make, the one on its way among them; 3 while the second waits for the erase of the new copy (R218); none before it is issued. -/
  waiting : Option Nat
  deriving DecidableEq, Repr

/-- A compaction in progress (R218): the step begun last and the records it removes. -/
structure Compaction where
  step : Nat
  removed : List (Nat × Nat)
  /-- Log records appended to the new copy so far. -/
  newUsed : Nat
  /-- Table bytes written to the new copy (R218 step 2). -/
  table : Bytes
  deriving DecidableEq, Repr

/-- Stage of the recovery of R219. -/
inductive Recovery where
  | idle | headers | reading | scanning | erasing | done
  deriving DecidableEq, Repr

/-- MINT. -/
structure Mint where
  records : List CtrRec
  activeB : Bool
  generation : BitVec 32
  /-- Bytes 0 to 31 of the active copy's header, which its retirement writes again (R218). -/
  header : Bytes
  /-- Log positions used in the active copy, torn ones included. -/
  logUsed : Nat
  seq : Nat
  appends : List Append
  compaction : Option Compaction
  /-- Three outcome-3 responses: refuses until a JNL_WRITE succeeds (R460). -/
  refusing : Bool
  /-- No valid journal (R220). -/
  lost : Bool
  recovery : Recovery
  headA : Option Bytes
  headB : Option Bytes
  mapBytes : Option Bytes
  /-- Journal bytes read so far: copy B?, offset, bytes. -/
  buf : List (Bool × Nat × Bytes)
  /-- How many bytes at the front of a copy are known to be 0xFF; none when one is not (R219). -/
  scan : List (Bool × Option Nat)
  deriving DecidableEq, Repr

/-! ## DILL (07_digest_engine.md) -/

/-- Where a context is (R233, R236). -/
inductive CtxPlace where
  | onDie
  | saving (record : Nat)
  | saved (record : Nat) (saveCtr : Nat)
  | restoring (record : Nat) (saveCtr : Nat)
  deriving DecidableEq, Repr

/-- A DILL context and its index entry (R232): running state, outer HMAC state, carried partial block, byte count and next slice index. -/
structure Ctx where
  domain : Nat
  queue : Nat
  count : BitVec 17
  older : Bool
  place : CtxPlace
  lru : Nat
  state : Bytes
  outer : Bytes
  carry : Bytes
  absorbed : Nat
  next : Nat
  /-- Sealed record of a save in progress. -/
  sealed : Bytes
  deriving DecidableEq, Repr

/-- State of a line in the writeback buffer (Table 15.7). -/
inductive LineState where
  | claimed | owned | passed
  deriving DecidableEq, Repr

/-- A context line in the writeback buffer (R237, R453). -/
structure WbLine where
  domain : Nat
  line : Nat
  data : Bytes
  /-- The flit checks that it is held with (R372, R448). -/
  checks : List (BitVec 32)
  state : LineState
  queue : Nat
  count : BitVec 17
  older : Bool
  deriving DecidableEq, Repr

/-- An access to a unit window that waits at the port for its turn: a write, or a read of an RC counter (R240, R477). -/
inductive PortAccess
  | write (src : From) (addr size : Nat) (value : BitVec 64)
  | count (src : From) (counter : RcCounter)
  deriving DecidableEq, Repr

/-- The register path of Table 7.3 (DG_RP_CFG, KEY, TOTAL, LASTCNT lie in the register file). -/
structure RegPath where
  /-- Accesses that flow control holds at the port, in order of arrival: a write of message bytes while the FIFO is full, and all that come behind it (R240, R477). -/
  held : List PortAccess
  opened : Bool
  /-- DG_RP_CFG and DG_RP_KEY as they stood when OPEN was accepted: those of the session (R239, Table 7.3). -/
  cfg : Nat
  key : Nat
  /-- An OPEN waits for its context or its key (R239), and the tick in which DILL accepted it. -/
  opening : Bool
  openTick : Nat
  /-- The tick from which the blocks that wait are eligible (R238, R39). -/
  since : Nat
  /-- The session holds its context (R232). -/
  ctx : Bool
  /-- Materials of the session's key, or of the newer and the older member of a pair. -/
  newer : Option Bytes
  older : Option Bytes
  owner : From
  busy : Bool
  done : Bool
  status : BitVec 8
  /-- Message bytes of the session, and whether the message is closed. -/
  msg : Bytes
  words : Nat
  finishing : Bool
  /-- Words waiting in the FIFO (32 at most). -/
  fifo : Nat
  dead : Bool
  expect : List (BitVec 64)
  result : Bytes
  deriving DecidableEq, Repr

/-- DILL. -/
structure Dill where
  ctxs : List Ctx
  saveCtr : Nat
  sealKey : Option Bytes
  lines : List WbLine
  rp : RegPath
  deriving DecidableEq, Repr

/-! ## BASIL (08_bignumber_engine.md) -/

/-- Bank states, Table 8.9. -/
inductive BankState where
  | empty | verifying | standby | active | draining
  deriving DecidableEq, Repr

/-- A microcode bank. -/
structure Bank where
  state : BankState
  svn : Nat
  sigKind : Nat
  build : BitVec 32
  deriving DecidableEq, Repr

/-- An operation on a sequencer (R249): its job, first tick S, duration, bank, DRBG draw, and its result once the operation's row has formed it. -/
structure Op where
  queue : Nat
  count : BitVec 17
  domain : Nat
  start : Nat
  dur : Nat
  bankB : Bool
  /-- Index of the free values that the operation's one DRBG request yields (R264). -/
  draw : Nat
  result : Option (Status × Bytes)
  /-- Shared secret for the key2 slot (R260), or curve to load (R273). -/
  secret : Option Bytes
  restarts : Nat
  budgets : Nat
  /-- The sequencer that runs it in step: a verified pair or a shadow (R56, R386). -/
  partner : Option Nat
  isShadow : Bool
  /-- Sequencers of a first run whose signatures disagreed, with the signatures (R386). -/
  votes : List (Nat × BitVec 64)
  deriving DecidableEq, Repr

/-- A curve entry (R271). -/
structure Curve where
  p : Nat
  a : Nat
  b : Nat
  gx : Nat
  gy : Nat
  n : Nat
  pbits : Nat
  deriving DecidableEq, Repr

/-- A DRBG instance (R264). -/
structure Drbg where
  instantiated : Bool
  requests : Nat
  refusing : Bool
  deriving DecidableEq, Repr

/-- A package being read and verified (R277, R281): its bank, the admin count that asked for it or none at start-up, length and bytes read. -/
structure Verify where
  bankB : Bool
  /-- It reloads a bank that was ACTIVE (R379). -/
  active : Bool
  admin : Option (BitVec 17)
  base : Nat
  len : Nat
  bytes : Bytes
  /-- Bytes of the package that have been read (R342). -/
  got : Nat
  failed : Option Status
  deriving DecidableEq, Repr

/-- What a run of the ROM verifier checks: a bank's package (R277), or a debug response (R420). -/
inductive RomUse where
  | bank (isB : Bool)
  | response
  deriving DecidableEq, Repr

/-- BASIL: sequencers S0 to S15, banks, curves, the 17 DRBG instances (the last is LOVAGE's). -/
structure Basil where
  seqs : List (Option Op)
  /-- Operations that wait for a sequencer to restart on (R283). -/
  waiting : List Op
  bankA : Bank
  bankB : Bank
  curves : List (Nat × Curve)
  drbgs : List Drbg
  verify : List Verify
  /-- Runs of the ROM verifier, each with the sequencer that it holds (R277). -/
  rom : List (RomUse × Nat)
  /-- Sequencers whose operation has ended early in this tick: they are zeroed in the next one (R285). -/
  resting : List Nat
  /-- Sequencers that are zeroed in this tick: the next operation starts in the tick after it at the earliest (R285). -/
  zeroing : List Nat
  /-- An accepted Activate that takes effect in the next tick: its bank, and whether it commits (R279, R280). -/
  switch : Option (Bool × Bool)
  commit : Option Bool
  deriving DecidableEq, Repr

/-! ## PARSLEY (11_admin_and_events.md) -/

/-- A staged event record (Table 11.12), with its continuation's data (R363) and the words that failed parity. -/
structure Event where
  typ : BitVec 8
  prio : Nat
  arg : BitVec 16
  tick : Nat
  data : Bytes
  cont : Option Bytes
  poison : BitVec 8
  deriving DecidableEq, Repr

/-- The event queue of a domain (Table 11.8, R361 to R369). -/
structure EventQ where
  domain : Nat
  base : Nat
  vector : BitVec 16
  intPrio : BitVec 2
  timeout : BitVec 16
  hwm : BitVec 8
  lwm : BitVec 8
  count : BitVec 16
  headWord : BitVec 16
  staged : List Event
  gap : BitVec 32
  gapTick : Nat
  lastStaged : Nat
  lastHeadRead : Nat
  hold : Bool
  recovering : Bool
  /-- Unconfirmed-range events held until the link returns (R113). -/
  held : List Event
  lastInt : Option Nat
  deriving DecidableEq, Repr

/-- PARSLEY. -/
structure Parsley where
  qs : List EventQ
  deriving DecidableEq, Repr

/-! ## Domains, mailboxes, migration (10_domains_and_sharing.md) -/

/-- Byte memory of the mailbox areas of a page, offsets 0x000 to 0x7FF: rising offsets, and no entry zero (an unlisted byte reads zero). -/
abbrev Memory := List Host.Cell

/-- A mailbox page (Table 10.3). -/
structure Mailbox where
  area : Memory
  enabled : Bool
  disabling : Bool
  t2mFull : Bool
  m2tFull : Bool
  t2mErr : Bool
  m2tErr : Bool
  t2mTag : BitVec 16
  t2mLen : BitVec 11
  m2tTag : BitVec 16
  m2tLen : BitVec 11
  deriving DecidableEq, Repr

/-- Migration states (DL_STATUS). -/
inductive MigState where
  | normal | logging | stopping | stopped
  deriving DecidableEq, Repr

/-- State of the stop marker (R335). -/
inductive Marker where
  | none | issued | confirmed
  deriving DecidableEq, Repr

/-- Migration and the dirty log of a domain (R331 to R338); a run is its first page and its number of pages. -/
structure Migration where
  state : MigState
  base : Nat
  k : Nat
  head : BitVec 32
  tail : BitVec 32
  overflow : Bool
  overflowed : Bool
  /-- The manager has cleared overflow in this tick: recording resumes from the next (R334). -/
  paused : Bool
  stopSeq : BitVec 32
  openRun : Option (Nat × Nat)
  closed : List (Nat × Nat)
  marker : Marker
  /-- LOG_END or a reset has asked for logging to end once the closed runs are written. -/
  ending : Bool
  deriving DecidableEq, Repr

/-- A domain that exists (R316). -/
structure Domain where
  num : Nat
  nsBase : Nat
  nsLog2 : Nat
  slotRes : Nat
  saveBase : Nat
  saveCount : Nat
  deferred : Bool
  /-- A domain reset was triggered in this tick and has not completed (R327, R328). -/
  resetting : Option Nat
  deleting : Bool
  linkDown : Bool
  mailbox : Mailbox
  mig : Migration
  /-- Which areas held a message when the reset was triggered (Table 11.13, type 0x02). -/
  resetFlags : BitVec 2
  deriving DecidableEq, Repr

/-! ## Administration (11_admin_and_events.md) -/

/-- How a posted load gets its key (Table 11.3). -/
inductive LoadKind where
  | handle | kw | kwp
  deriving DecidableEq, Repr

/-- A posted Load Key (R353, R354). -/
structure PostedLoad where
  load : BitVec 32
  kind : LoadKind
  domain : Nat
  handle : Nat
  kek : Nat
  /-- Data buffer and its length L. -/
  data : Nat
  len : Nat
  count : BitVec 17
  tag : BitVec 16
  accepted : Nat
  deriving DecidableEq, Repr

/-- A Deferred Error log entry (Table 11.9). -/
structure DefErr where
  load : BitVec 32
  domain : Nat
  status : Status
  count : BitVec 17
  tag : BitVec 16
  handle : Nat
  kek : Nat
  tick : Nat
  deriving DecidableEq, Repr

/-- A change that an admin command or a register write has made and that takes effect at the next tick boundary (Table 11.3, Table 10.2, R296, R349, R367). -/
inductive Change where
  | setup (addr : Nat) (value : BitVec 64)
  | addQueue (x : Queue)
  | interrupts (queue : Nat) (vector : BitVec 16) (coalCount : BitVec 8) (coalTicks : BitVec 16) (urgent : Bool)
  | addDomain (x : Domain) (events : EventQ)
  | settings (domain nsBase nsLog2 slotRes saveBase saveCount : Nat)
  /-- restart: the ring base has been set, to whatever value (R362, R367). -/
  | events (domain base : Nat) (vector : BitVec 16) (intPrio : BitVec 2) (timeout : BitVec 16) (hwm lwm : BitVec 8) (restart : Bool)
  /-- A life-cycle state, and its blank transition words, in force from the next tick (R409). -/
  | life (state : Life) (left : Nat)
  /-- A debug class of 1 or 2, or 0, and a return authorisation, in force from the next tick (R421). -/
  | debug (cls : Nat) (ret : Bool)
  /-- A memory port position whose port was suspended; the lowest spare port takes it from the next tick boundary (R456). -/
  | position (k : Nat)
  /-- The host link of a domain is down: R111 applies from the next tick (R465). -/
  | linkDown (domain : Nat)
  /-- A slot has been marked revoked: step 2 of R194 refuses it from the next tick (R203). -/
  | revoked (domain handle : Nat)
  /-- A function-level reset was reported: the reset is triggered in the next tick (R327). -/
  | flr (domain : Nat)
  /-- The dirty log records again (R334). -/
  | resumeLog (domain : Nat)
  /-- A queue's state is uncorrectable: it is rebuilt in the next tick (R378). -/
  | rebuild (queue : Nat)
  /-- A row of a memory is mapped to a spare row (R377). -/
  | spareRow (memory word : Nat)
  /-- A clock is switched to the other PLL of its pair (R394). -/
  | pll (coreClock : Bool)
  deriving DecidableEq, Repr

/-- Load Key and its log, and the changes of the next tick boundary. -/
structure Admin where
  changes : List Change
  loadNumber : BitVec 32
  loads : List PostedLoad
  defLog : List DefErr
  defLost : BitVec 32
  /-- A Get Log Page whose page is written at the start of the next tick (R357). -/
  page : Option (BitVec 17)
  deriving DecidableEq, Repr

/-- What Duern sends on its output pins and ports. -/
inductive Output where
  | irq (port : PPort) (domain : Nat) (vector : BitVec 16)
  | notice (dropped : Bool) (n : Notice)
  | handover (channel : Nat) (launch : Nat) (message : Bytes)
  /-- The header and the first data word of a handover that the channel refuses (R469). -/
  | handoverRefused (channel : Nat) (launch : Nat) (word : Bytes)
  | snoopMiss (port stag : Nat)
  | snoopData (port stag : Nat) (data : Bytes) (poison : List Bool)
  /-- The WDAT beat with cut and last set that ends the burst of a WRITE (Table 15.8). -/
  | cutBeat (port tag : Nat)
  | hold (domain : Nat) (on : Bool)
  | pps (n : Nat) (edge : Nat)
  | revokeAck (handle : Nat)
  | readData (value : BitVec 64)
  /-- A record of the issue trace: what it names, and the verdict that came, if one did (Table 13.14). -/
  | trace (domain queue pos opcode : Nat) (verdict : Option Verdict)
  deriving DecidableEq, Repr

/-- The whole state of Duern, with the model's own outbox, free-value counter and queue of waiting commands. -/
structure State where
  mode : ModeUnit
  regs : RegFile
  aon : Aon
  lovage : Lovage
  sage : Sage
  thyme : Thyme
  sorrel : Sorrel
  fennel : Fennel
  txns : List Txn
  bay : Bay
  keyBus : KeyBus
  mint : Mint
  dill : Dill
  basil : Basil
  parsley : Parsley
  domains : List Domain
  admin : Admin
  /-- What the RO status registers returned at the start of the tick, by address; empty before the first (R478). -/
  shown : List (Nat × Nat)
  outbox : List Output
  free : Nat
  pending : List Instr
  deriving DecidableEq, Repr

/-- The reasons a step can stop with a fault. No command of Duern has one: every fault of the spec has a response that is a next state (Table 12.4). -/
inductive Fault where
  /-- Raised by no command: kept because the interface asks for the type. Safe. -/
  | none
  deriving DecidableEq, Repr

/-- The reasons a command is turned away. -/
inductive Refusal where
  /-- A row of the table without a meaning yet; no arm uses it. Safe: the machine stops. -/
  | notModelled (mnemonic : String)
  deriving DecidableEq, Repr

/-! ## Reset -/

/-- Reset values of one channel's registers (Table 9.3). -/
def channelReset (c : Nat) : RegFile :=
  [(0x70100 + 0x20 * c, 8), (0x70104 + 0x20 * c, 0), (0x70108 + 0x20 * c, 0), (0x70110 + 0x20 * c, 0)]

/-- The writable setup registers at their Reset columns, rising addresses: Tables 16.4, 14.2, 16.6, 16.8, 16.9, 7.3, 16.10, 9.3, 13.7, 16.11. -/
def regsReset : RegFile :=
  [(0x0008, 0), (0x0010, 0), (0x0018, 0), (0x001C, 0x007D3010), (0x0020, 0), (0x0108, 0), (0x0110, 0),
   (0x0120, 0x005F5E10), (0x20000, 0), (0x20008, 0), (0x20010, 8), (0x20014, 0x00000101), (0x20018, 0)]
  ++ [(0x40000, 0), (0x40008, 0), (0x4000C, 0x01000), (0x40010, 0), (0x40018, 0), (0x40020, 0)]
  ++ [(0x50000, 0), (0x50008, 0), (0x50010, 0), (0x58000, 0), (0x58004, 0), (0x58010, 0), (0x58018, 0)]
  ++ [(0x60000, 0), (0x60008, 0), (0x60010, 0)]
  ++ [(0x70000, 0), (0x70008, 0), (0x70010, 0), (0x70018, 0x005F5E10), (0x7001C, 0x00006400), (0x70020, 0x00000401),
      (0x70024, 0x00004000), (0x70028, 0x0003E800), (0x7002C, 0x00000400), (0x70030, 0x0000199A), (0x70034, 0x00010000),
      (0x70040, 0x000F4240), (0x70044, 0), (0x70048, 0x000F4240), (0x7004C, 0)]
  ++ (List.range 18).flatMap channelReset
  ++ [(0x80004, 0)] ++ (List.range 12).map (fun i => (0x80040 + 4 * i, 0))
  ++ [(0x80080, 0xFFF), (0x800A8, 0)]
  ++ [(0x90000, 0)] ++ (List.range 16).map (fun w => (0x90010 + 4 * w, 0)) ++ [(0x90080, 0)]

/-- Mode control as power-on reset leaves it: Sense, nothing done yet. -/
def ModeUnit.reset : ModeUnit :=
  { mode := .sense, target := 0, hold := false, quiet := false, reqErr := false, fail := 0, latched := none,
    steps := ⟨false, false, false, false, false, false, false, false⟩, formatWait := false, step3Tick := 0,
    startup := 0, drainTick := 0, fromProv := false, resume := false, drainedPt := false, fromLight := false, recovery := false, aborting := false, mainOn := false, timeOn := true }

/-- PD_AON after power-on reset (Table 14.6): cleared, with the power-on bit of GL_RESET_CAUSE set. -/
def Aon.reset : Aon :=
  { alarmLatched := false, alarmMode := 0, alarmSources := 0, alarmTick := 0, alarmAon := 0, alarmNow := false, wakeCause := 0,
    resetCause := 1, retention := regsReset, deepTick := 0, aonCount := 0 }

/-- LOVAGE over a never-programmed OTP (DESIGN CHOICE, notes/assumptions/5). -/
def Lovage.reset : Lovage :=
  { mono := [], vals := [], life := .blank, wordsLeft := 16, instSlot := none, op := none, opDone := false,
    opResult := 0, opCode := 0, hit := 0, firing := 0, dbgClass := 0, retArmed := false, chal := none,
    checking := none, resp := [], respFailed := false, granted := none, dbgResult := 0, dbgClosed := false, attKey := none }

/-- A counter of the pair with no failure. -/
def Counter.fresh : Counter := { failed := false, retired := false, agreed := 0, failures := 0, testing := false }

/-- SAGE after PD_TIME power-up (R290, R311, R312). -/
def Sage.reset : Sage :=
  { now := 0, adj := 0, adjNext := none, saturated := false, pendingStep := none, activeB := false, ctrA := .fresh, ctrB := .fresh,
    servoMode := .fw, servoState := .freerun, yInt := 0, freq := 0, freqNext := none, lastO := 0, sampleO := 0, outliers := 0,
    goodRun := 0, recentO := [], sinceInput := none, eRef := 0, eAsym := 0, eAdjust := 0, eStep := none, refId := List.replicate 8 0,
    model := { c0 := 0, c1 := 0, c2 := 0, cov := [], rms := 0, yB := 0, inputs := 0, isSet := false, wide := false },
    theta := 100, sampleIn := 0, thetaSum := 0, thetaCnt := 0, utcOffset := 0, leap := 0, leapAt := 0, keys := [], chSeq := List.replicate 18 0, ntsPrefix := 0,
    ntsCount := 0, ntsDue := true, pipe := [], waiting := [], ppsEnd0 := none, ppsEnd1 := none }

/-- THYME with no plan and no lane map. -/
def Thyme.reset : Thyme :=
  { tick := 0, epoch := 0, epochDue := false, idle := false, epochPorts := 8, short := false, tickCycles := 256, cycAcc := 0, plan := [],
    compiled := [], staged := [], slotMap := [], revisions := [], chiveCredit := [], dillCredit := [],
    accounts := [], frameUse := [], frameRead := 0, frameWrite := 0, laneOf := List.replicate 64 none, dillOf := List.replicate 16 none,
    basilOf := List.replicate 14 none, seqOf := List.replicate 14 none, issues := [], outs := [] }

/-- A healthy unit. -/
def UnitState.fresh : UnitState := { health := .healthy, suspensions := 0, withBunch := false, tested := 0 }

/-- The lockstep units with both halves in the pair. -/
def halvesReset : List (LockUnit × Half × Half) :=
  [(.thyme, .inPair, .inPair), (.fennel, .inPair, .inPair), (.bay, .inPair, .inPair), (.mint, .inPair, .inPair),
   (.parsley, .inPair, .inPair), (.sorrel, .inPair, .inPair), (.sagePipe, .inPair, .inPair)]

/-- SORREL before the retirement map is built. -/
def Sorrel.reset : Sorrel :=
  { lanes := List.replicate 72 .fresh, dill := List.replicate 16 .fresh, basil := List.replicate 16 .fresh,
    ports := (List.range 8).map (fun k => { role := .position k, counts := 0, egress := 0, bad := false })
      ++ List.replicate 2 { role := .spare, counts := 0, egress := 0, bad := false },
    kb := List.replicate 2 { health := .healthy, losses := 0, badFrames := 0, echoes := 0 }, halves := halvesReset, repeating := [],
    cells := [true, true], pllTime := false, pllCore := false, chivePtr := 0, dillPtr := 0, basilPtr := 0, exchange := none,
    ce := 0, ue := 0, spared := 0, tests := [], testLog := [], scrubSeen := [], spareRows := [], pllBad := [],
    regIfFailed := false, failedNow := [] }

/-- A stream with nothing in it. -/
def Stream.fresh : Stream := { chain := List.replicate 16 0, part := [], acc := 0, comps := [] }

/-- A job state record as a job takes it. -/
def JobRec.fresh : JobRec := { newer := .fresh, older := .fresh, delivered := 0, first := [] }

/-- FENNEL with no queue. -/
def Fennel.reset : Fennel := { queues := [], arrivals := [], jobs := [], p2Store := [], p2Credits := 0, p2Dropped := false }

/-- BAY with every slot free. -/
def Bay.reset : Bay := { slots := [], clock := 0 }

/-- The key bus without requests. -/
def KeyBus.reset : KeyBus := { reqs := [], serial := 0, presented := none, nextId := 0, nextFrame := 0 }

/-- MINT before recovery. -/
def Mint.reset : Mint :=
  { records := [], activeB := false, generation := 0, header := [], logUsed := 0, seq := 0, appends := [], compaction := none,
    refusing := false, lost := false, recovery := .idle, headA := none, headB := none, mapBytes := none, buf := [], scan := [] }

/-- The register path closed (Reset column of Table 7.3). -/
def RegPath.reset : RegPath :=
  { held := [], opened := false, cfg := 0, key := 0, opening := false, openTick := 0, since := 0, ctx := false, newer := none, older := none, owner := { port := .p3, domain := 0, requester := 0 }, busy := false, done := false,
    status := 0xFF, msg := [], words := 0, finishing := false, fifo := 0, dead := false,
    expect := List.replicate 8 0, result := List.replicate 64 0 }

/-- DILL with every context free. -/
def Dill.reset : Dill := { ctxs := [], saveCtr := 0, sealKey := none, lines := [], rp := .reset }

/-- An empty bank. -/
def Bank.none : Bank := { state := .empty, svn := 0, sigKind := 0, build := 0 }

/-- BASIL with idle sequencers and empty banks. -/
def Basil.reset : Basil :=
  { seqs := List.replicate 16 Option.none, waiting := [], bankA := .none, bankB := .none, curves := [],
    drbgs := List.replicate 17 { instantiated := false, requests := 0, refusing := false }, verify := [],
    rom := [], resting := [], zeroing := [], switch := Option.none, commit := Option.none }

/-- Administration at the entry to Service and before it. -/
def Admin.reset : Admin := { changes := [], loadNumber := 0, loads := [], defLog := [], defLost := 0, page := none }

/-- The machine right after the release of PD_AON power-on reset (R439): Sense, with PD_MAIN and PD_TIME empty. -/
def State.reset : State :=
  { mode := .reset, regs := regsReset, aon := .reset, lovage := .reset, sage := .reset, thyme := .reset,
    sorrel := .reset, fennel := .reset, txns := [], bay := .reset, keyBus := .reset,
    mint := .reset, dill := .reset, basil := .reset, parsley := { qs := [] }, domains := [], admin := .reset,
    shown := [], outbox := [], free := 0, pending := [] }

end Sys2Proof.Machine
end

