-- ==== Sys2Proof/Machine/Ops.lean ====
section
/-! DEFINITION. The named operations over State that every family uses: answers, lookups and updates of queues, jobs and domains, the outbox, free values, interrupts, event staging (R361, R363, R365, R369), and Ruren transactions (R444, R446, R455, R494). -/

namespace Sys2Proof.Machine

/-- The answer of every command: a next state. -/
abbrev Ans := Host.Outcome State Fault Refusal

/-- Answer with the state s. -/
def done (s : State) : Ans := .next s

/-- Answer with f applied to what is there; with nothing there the command has no effect (notes/assumptions/9). -/
def onSome {α : Type} (o : Option α) (s : State) (f : α → State) : Ans :=
  match o with
  | some x => done (f x)
  | none => done s

/-- Answer with f s when the command can happen, s unchanged when it cannot (notes/assumptions/9). -/
def guarded (b : Bool) (s : State) (f : State → State) : Ans := if b then done (f s) else done s

/-! ## Order -/

/-- Lexicographic order of keys. -/
def keyLt : List Nat → List Nat → Bool
  | [], [] => false
  | [], _ => true
  | _, [] => false
  | x :: xs, y :: ys => if x < y then true else if y < x then false else keyLt xs ys

/-- Insert into a list sorted by key, behind equal keys. -/
def insertKey {α : Type} (k : α → List Nat) (x : α) : List α → List α
  | [] => [x]
  | y :: ys => if keyLt (k x) (k y) then x :: y :: ys else y :: insertKey k x ys

/-- Sort by key. -/
def sortKey {α : Type} (k : α → List Nat) (l : List α) : List α := l.foldl (fun acc x => insertKey k x acc) []

/-! ## Registers -/

/-- Value of a register cell; a cell that is not listed reads zero (R474). -/
def State.reg (s : State) (a : Nat) : BitVec 64 := assocD s.regs a 0

/-- A register cell as a number. -/
def State.regN (s : State) (a : Nat) : Nat := (s.reg a).toNat

/-- s with a register cell set. -/
def State.setReg (s : State) (a : Nat) (v : BitVec 64) : State := { s with regs := assocSet s.regs a v }

/-! ## Modes -/

/-- Service or Degraded service (R424). -/
def State.inService (s : State) : Bool := s.mode.mode == .service || s.mode.mode == .degraded

/-- PD_MAIN runs: every mode but Cold, both sleeps, and Sense before step 3 (Table 1.2). -/
def State.mainRuns (s : State) : Bool :=
  match s.mode.mode with
  | .cold | .lightSleep | .deepSleep | .sense => false
  | _ => true

/-- Alarm: no unit issues work (R415). -/
def State.inAlarm (s : State) : Bool := s.mode.mode == .alarm

/-- A unit repeats this tick's work in the next (R381). -/
def State.repeats (s : State) (u : LockUnit) : Bool := s.sorrel.repeating.contains u

/-! ## Queues, jobs, domains -/

def State.queue? (s : State) (q : Nat) : Option Queue := s.fennel.queues.find? (·.num == q)

def State.setQueue (s : State) (q : Nat) (f : Queue → Queue) : State :=
  { s with fennel := { s.fennel with queues := s.fennel.queues.map fun x => if x.num == q then f x else x } }

def State.job? (s : State) (q : Nat) (c : BitVec 17) : Option Job :=
  s.fennel.jobs.find? fun j => j.queue == q && j.count == c

def State.setJob (s : State) (q : Nat) (c : BitVec 17) (f : Job → Job) : State :=
  { s with fennel := { s.fennel with jobs := s.fennel.jobs.map fun j => if j.queue == q && j.count == c then f j else j } }

def State.addJob (s : State) (j : Job) : State := { s with fennel := { s.fennel with jobs := s.fennel.jobs ++ [j] } }

def State.dropJob (s : State) (q : Nat) (c : BitVec 17) : State :=
  { s with fennel := { s.fennel with jobs := s.fennel.jobs.filter fun j => !(j.queue == q && j.count == c) } }

def State.domain? (s : State) (d : Nat) : Option Domain := s.domains.find? (·.num == d)

def State.setDomain (s : State) (d : Nat) (f : Domain → Domain) : State :=
  { s with domains := s.domains.map fun x => if x.num == d then f x else x }

def State.evq? (s : State) (d : Nat) : Option EventQ := s.parsley.qs.find? (·.domain == d)

def State.setEvq (s : State) (d : Nat) (f : EventQ → EventQ) : State :=
  { s with parsley := { qs := s.parsley.qs.map fun x => if x.domain == d then f x else x } }

/-- A reset of domain d that was triggered before tick m has not completed: it holds d's work from cycle 0 of the tick after its trigger (R327). -/
def State.resetBy (s : State) (d m : Nat) : Bool := (s.domain? d).any fun x => x.resetting.any fun t => decide (t < m)

/-- The reset of domain d is in force in this tick. -/
def State.resetting (s : State) (d : Nat) : Bool := s.resetBy d s.thyme.tick

/-- The reset of domain d is in force in the next tick. -/
def State.resetNext (s : State) (d : Nat) : Bool := s.resetBy d (s.thyme.tick + 1)

/-- The plan record in force of a domain (R40, R68). -/
def State.planOf (s : State) (d : Nat) : Option PlanRec := s.thyme.compiled.lookup d

/-- Domain d is sealed in the plan in force. -/
def State.isSealed (s : State) (d : Nat) : Bool := (s.planOf d).any fun p => p.cls == .sealed

/-- Credits of a unit. -/
def State.credits (s : State) (u : LaneKind) : List (Nat × Int) :=
  match u with
  | .chive => s.thyme.chiveCredit
  | .dill => s.thyme.dillCredit

/-- The domain that owns Q1: SG_CFG.q1_owner (R297, Table 9.3). -/
def State.q1Owner (s : State) : Nat := bits (s.regN 0x70000) 8 0

/-- The host link of a domain is down (R111). -/
def State.linkOff (s : State) (d : Nat) : Bool := (s.domain? d).any (·.linkDown)

/-- A deferred error of the domain is pending (R150). -/
def State.deferred (s : State) (d : Nat) : Bool := (s.domain? d).any (·.deferred)

/-- Domain d is a host function (Table 16.11, R487). -/
def State.isHost (s : State) (d : Nat) : Bool := bit (s.regN (0x90010 + 4 * (d / 32))) (d % 32)

/-! ## Outputs and free values -/

/-- s with one more output sent. -/
def State.emit (s : State) (o : Output) : State := { s with outbox := s.outbox ++ [o] }

/-- An interrupt request of domain d: P0 for host functions, P3 for on-chip domains (R106, R368, R463). -/
def State.irq (s : State) (d : Nat) (v : BitVec 16) : State := s.emit (.irq (if s.isHost d then .p0 else .p3) d v)

/-- n free bytes, applied to the counter (notes/assumptions/7). -/
def State.freeBytes (s : State) (n : Nat) : Bytes := (List.range n).map fun i => Config.freeByte (s.free + i)

/-- s after n free values were used. -/
def State.useFree (s : State) (n : Nat) : State := { s with free := s.free + n }

/-! ## Events -/

/-- Staging size of a domain (R361). -/
def stagingSize (d : Nat) : Nat := if d = 0 then 64 else 8

/-- Records that an event takes: a continuation makes it two (R363). -/
def Event.size (e : Event) : Nat := if e.cont.isSome then 2 else 1

/-- Records staged. -/
def stagedCount (es : List Event) : Nat := (es.map Event.size).sum

/-- Modes in which PARSLEY drives flow control (R369). -/
def State.holdMode (s : State) (q : EventQ) : Bool :=
  s.mode.mode == .startup || s.mode.mode == .drain || s.mode.recovery || q.recovering

/-- An event queue after one more record is posted: staged, or dropped and counted when staging is full (R365, R492). -/
def EventQ.post (q : EventQ) (tick : Nat) (e : Event) : EventQ :=
  if stagedCount q.staged + e.size ≤ stagingSize q.domain
  then { q with staged := q.staged ++ [e], lastStaged := tick }
  else { q with gap := BitVec.ofNat 32 (min (q.gap.toNat + e.size) 0xFFFFFFFF), gapTick := if q.gap = 0 then tick else q.gapTick }

/-- The span after a link's return ends once the staging has fallen to lwm (R369). -/
def State.endRecovery (s : State) (d : Nat) : State :=
  s.setEvq d fun q => { q with recovering := q.recovering && decide (q.lwm.toNat < stagedCount q.staged) }

/-- Assert the hold at hwm, and release it at lwm or with the end of the modes that ask for it (R369). -/
def State.checkHold (s : State) (d : Nat) : State :=
  let s := s.endRecovery d
  match s.evq? d with
  | none => s
  | some q =>
    if s.holdMode q && !q.hold && q.hwm.toNat ≤ stagedCount q.staged then
      (s.setEvq d fun q => { q with hold := true }).emit (.hold d true)
    else if q.hold && (!s.holdMode q || stagedCount q.staged ≤ q.lwm.toNat) then
      (s.setEvq d fun q => { q with hold := false }).emit (.hold d false)
    else s

/-- Every hold that no mode asks for any more is released (R369). -/
def State.releaseHolds (s : State) : State := s.parsley.qs.foldl (fun s q => s.checkHold q.domain) s

/-- Post an event record to domain d's queue in this tick; a domain that does not exist gets none. -/
def State.postEvent (s : State) (d : Nat) (e : Event) : State :=
  (s.setEvq d fun q => q.post s.thyme.tick e).checkHold d

/-- An event of one record: type, priority, arg and the data from byte 12 on (Table 11.12). -/
def mkEvent (s : State) (typ : Nat) (prio : Nat) (arg : Nat) (data : Bytes) : Event :=
  { typ := BitVec.ofNat 8 typ, prio := prio, arg := BitVec.ofNat 16 arg, tick := s.thyme.tick, data := padTo 20 data,
    cont := none, poison := 0 }

/-- Post one record to a domain. -/
def State.event (s : State) (d typ prio arg : Nat) (data : Bytes) : State := s.postEvent d (mkEvent s typ prio arg data)

/-- An RC counter after one count more (R478). -/
def satInc (v : BitVec 32) : BitVec 32 := if v == BitVec.allOnes 32 then v else v + 1

/-- Add a change that takes effect at the next tick boundary. -/
def State.addChange (s : State) (x : Change) : State := { s with admin := { s.admin with changes := s.admin.changes ++ [x] } }

/-- Post to the domain and to the manager, once when they are the same (notes/assumptions/10). -/
def State.eventDM (s : State) (d typ prio arg : Nat) (data : Bytes) : State :=
  let s := s.event d typ prio arg data
  if d = 0 then s else s.event 0 typ prio arg data

/-- Post to the owner of Q1. -/
def State.eventO (s : State) (typ prio arg : Nat) (data : Bytes) : State := s.event s.q1Owner typ prio arg data

/-! ## Ruren transactions -/

/-- Aligned 128-byte beats that a byte range touches (R167). -/
def beatsOf (iova len : Nat) : Nat := if len = 0 then 0 else (iova + len - 1) / 128 - iova / 128 + 1

/-- The bytes that a request asks for: after a cut, those that it has not brought (R450). -/
def Txn.rest (t : Txn) : Nat × Nat := if t.op == .read then (t.iova + t.data.length, t.len - t.data.length) else (t.iova, t.len)

/-- Beats outstanding on a port (R455). -/
def State.portBeats (s : State) (p : Nat) : Nat :=
  ((s.txns.filter fun t => t.port == p && t.tag.isSome).map fun t => beatsOf t.rest.1 t.rest.2).sum

/-- The port at position k, if any (R455). -/
def State.portAt (s : State) (k : Nat) : Option Nat := s.sorrel.ports.findIdx? fun p => p.role == .position k

/-- The position with the fewest beats outstanding, the lower on a tie, among ports other than avoid (R455, R498). -/
def State.pickPort (s : State) (avoid : Option Nat) : Option Nat :=
  ((List.range 8).filterMap s.portAt).foldl (fun best p =>
    if some p == avoid then best
    else match best with
      | none => some p
      | some b => if s.portBeats p < s.portBeats b then some p else some b) none

/-- The lowest-numbered spare port in service (R450). -/
def State.sparePort (s : State) : Option Nat := s.sorrel.ports.findIdx? fun p => p.role == .spare

def State.setPort (s : State) (p : Nat) (f : PortState → PortState) : State :=
  { s with sorrel := { s.sorrel with ports := s.sorrel.ports.modify p f } }

/-- The lowest tag of a port that no request holds (R444). -/
def State.freeTag (s : State) (p : Nat) : Option Nat :=
  (List.range 256).find? fun t => s.txns.all fun x => !(x.port == p && x.tag == some t)

/-- Two transactions touch a common byte of one address space. -/
def Txn.overlaps (a b : Txn) : Bool :=
  a.domain == b.domain && decide (a.iova < b.iova + b.len) && decide (b.iova < a.iova + a.len)

/-- Of two accesses to common bytes one is a WRITE and the other a READ or a WRITE: they are never outstanding at once (R446, R171). -/
def Txn.conflicts (t o : Txn) : Bool :=
  ((t.op == .write && (o.op == .read || o.op == .write)) || (t.op == .read && o.op == .write)) && t.overlaps o

/-- The port that a request goes out on now: its own for a port test, the lowest spare port after a truncation (R450), else the active port that the arbiter selects, without the one to avoid while another is active (R455, R498). -/
def State.portFor (s : State) (t : Txn) : Option Nat :=
  if t.cls == .maintenance then
    if (s.sorrel.ports[t.port]?).any fun p => p.role == .suspended then some t.port else none
  else if t.spare then s.sparePort
  else (s.pickPort t.avoid).or (s.pickPort none)

/-- An event write of a domain whose host link is down waits (R368). -/
def State.linkHolds (s : State) (t : Txn) : Bool :=
  match t.purpose with
  | .events d _ _ _ => s.linkOff d
  | _ => false

/-- A completion waits until every earlier completion of its queue has been confirmed, so that they become visible in ring order (R20). -/
def Txn.behind (t o : Txn) : Bool :=
  match t.purpose, o.purpose with
  | .completion q _, .completion q' _ => q == q' && !o.dead
  | _, _ => false

/-- What leaves with a transaction that has not been sent before: a completion record takes its tick and its deferred flag as it is written (R145, R150). -/
def State.sentData (s : State) (t : Txn) : Bytes :=
  match t.purpose with
  | .completion .. =>
    let b := byteAt t.data 1
    if t.again then t.data
    else putAt (putAt t.data 8 (leBytes 8 s.thyme.tick)) 1 [if s.deferred t.domain then b ||| 0x40 else b &&& 0xBF]
  | _ => t.data

/-- The transaction at place i has to wait: for one that is outstanding, or for one that was queued before it (R20, R446). -/
def mustWait (ts : List Txn) (i : Nat) (t : Txn) : Bool :=
  ts.zipIdx.any fun x => x.2 != i && ((t.conflicts x.1 && (x.1.tag.isSome || decide (x.2 < i))) || (t.behind x.1 && decide (x.2 < i)))

/-- The transactions after the waiting one at place i has been sent, when its link, a port, a tag, the order of completions (R20) and R446 allow it (R494). -/
def State.sendOne (s : State) (ts : List Txn) (i : Nat) : List Txn :=
  match ts[i]? with
  | none => ts
  | some t =>
    let cur : State := { s with txns := ts }
    if t.tag.isNone && !t.dead && !s.linkHolds t && !mustWait ts i t then
      match cur.portFor t with
      | some p => ts.set i { t with port := p, tag := cur.freeTag p, data := s.sentData t }
      | none => ts
    else ts

/-- Insert a place behind those of no higher position. -/
def insertPos (x : Nat × Nat) : List (Nat × Nat) → List (Nat × Nat)
  | [] => [x]
  | y :: ys => if x.1 < y.1 then x :: y :: ys else y :: insertPos x ys

/-- Places of the waiting transactions of a class: in ascending slot position, and as they were queued within one (R52). -/
def waitingOf (cls : TClass) (ts : List Txn) : List Nat :=
  ((ts.zipIdx.filter fun x => x.1.tag.isNone && x.1.cls == cls).foldl (fun l x => insertPos (x.1.pos, x.2) l) []).map (·.2)

/-- Send what can be sent of one class. -/
def State.sendClass (s : State) (cls : TClass) (ts : List Txn) : List Txn := (waitingOf cls ts).foldl s.sendOne ts

/-- Send what can be sent, metadata and sealed requests ahead of shared ones (R52); what an alarm writes goes out from the tick after its latch (R415). -/
def State.sendAll (s : State) : State :=
  if s.mode.aborting && s.aon.alarmNow then s
  else { s with txns := s.sendClass .shared (s.sendClass .maintenance (s.sendClass .sealed (s.sendClass .metadata s.txns))) }

/-- The pieces of a transfer that cross no 4 KiB boundary (R444). -/
def split4k : Nat → Nat → Nat → List (Nat × Nat)
  | 0, _, _ => []
  | fuel + 1, iova, len =>
    let n := 4096 - iova % 4096
    if len ≤ n then [(iova, len)] else (iova, n) :: split4k fuel (iova + n) (len - n)

/-- Number of pieces that split4k can need. -/
def splitFuel (len : Nat) : Nat := len / 4096 + 2

/-- Queue a transfer as requests of at most 32 beats each, sealed ones under a slot position (R52); mk gives each piece's purpose from its offset, data its bytes. An IOVA has 52 bits (R29): a payload, table or aux buffer that runs past the end of the IOVA space goes on at its start; the spec gives a check for rings only (DESIGN CHOICE, notes/assumptions/89). -/
def State.issueAt (pos : Nat) (s : State) (op : RurenOp) (cls : TClass) (domain iova len : Nat) (data : Bytes) (mk : Nat → Purpose) : State :=
  (split4k (splitFuel len) iova len).foldl (fun s (an : Nat × Nat) =>
    { s with txns := s.txns ++ [
        { port := 0, tag := none, op := op, cls := cls, domain := domain, iova := an.1 % 2 ^ 52, len := an.2,
          data := sub data (an.1 - iova) an.2, purpose := mk (an.1 - iova), pos := pos, spare := false, cut := false, avoid := none, again := false, poison := [], dead := false }] }) s

/-- The transaction queued last, changed. -/
def State.lastTxn (s : State) (f : Txn → Txn) : State := { s with txns := s.txns.modify (s.txns.length - 1) f }

/-- A transfer that serves no slot position. -/
def State.issue (s : State) (op : RurenOp) (cls : TClass) (domain iova len : Nat) (data : Bytes) (mk : Nat → Purpose) : State :=
  s.issueAt 0 op cls domain iova len data mk

/-- Class of a domain's payload traffic (R52). -/
def State.payloadClass (s : State) (d : Nat) : TClass := if s.isSealed d then .sealed else .shared

/-- The outstanding transaction with a port and a tag. -/
def State.txn? (s : State) (port tag : Nat) : Option Txn := s.txns.find? fun t => t.port == port && t.tag == some tag

/-- s without the transaction of a port and a tag. -/
def State.endTxn (s : State) (port tag : Nat) : State :=
  { s with txns := s.txns.filter fun t => !(t.port == port && t.tag == some tag) }

/-- Some transaction, sent or waiting, serves a purpose that p accepts. -/
def State.anyTxn (s : State) (p : Purpose → Bool) : Bool := s.txns.any fun t => p t.purpose

/-- s without the transactions, not yet sent, whose purpose p accepts; sent ones stay as dead until their response (Table 15.8). -/
def State.killTxns (s : State) (p : Txn → Bool) : State :=
  { s with txns := (s.txns.filter fun t => !(p t && t.tag.isNone)).map fun t => if p t then { t with dead := true } else t }

/-- Each WRITE that p accepts and whose burst is still in progress ends with a cut beat (Table 15.8); whether one is, is a free value (notes/assumptions/137). -/
def State.cutWrites (s : State) (p : Txn → Bool) : State :=
  s.txns.foldl (fun s t => match t.tag with
    | some g =>
      if t.op == .write && !t.dead && p t then (if Config.midBurst s.free then s.emit (.cutBeat t.port g) else s).useFree 1 else s
    | none => s) s

/-- The line of a domain's number in the writeback buffer. -/
def State.line? (s : State) (d n : Nat) : Option WbLine := s.dill.lines.find? fun l => l.domain == d && l.line == n

/-- s with a line of the writeback buffer changed. -/
def State.setLine (s : State) (d n : Nat) (f : WbLine → WbLine) : State :=
  { s with dill := { s.dill with lines := s.dill.lines.map fun l => if l.domain == d && l.line == n then f l else l } }

/-- A read of the response that is being checked. -/
def Purpose.isResponse : Purpose → Bool
  | .response _ => true
  | _ => false

/-- The job that a transaction serves, if any. -/
def Purpose.job? : Purpose → Option (Nat × BitVec 17)
  | .aux q c | .table q c _ | .payload q c _ _ | .restore q c _ | .output q c _ _ | .zero q c _ | .result q c
  | .completion q c => some (q, c)
  | _ => none

/-! ## Partner ports -/

/-- The write is held by port flow control: Drain, or an event hold of the domain (R433, R369); it stays with the sender. -/
def State.writeHeld (s : State) (d : Nat) : Bool := s.mode.mode == .drain || (s.evq? d).any (·.hold)

/-- The queue that an arrival is for. -/
def Arrival.queue : Arrival → Nat
  | .bell q _ => q
  | .push q _ => q

/-- Modes in which queue pages take writes (Table 14.1). -/
def State.pagesOpen (s : State) : Bool := s.inService || s.mode.mode == .quiesce

/-- The register interface serves the unit windows: PD_MAIN runs and R395 has not stopped it (Table 14.1). -/
def State.windowUp (s : State) : Bool := s.mainRuns && !s.sorrel.regIfFailed

/-- A write reaches a unit window: from domain 0 on P3 (R475), and not in SCRAPPED (R398). -/
def State.windowWrite (s : State) (src : From) : Bool :=
  src.port == .p3 && src.domain == 0 && s.windowUp && s.lovage.life != .scrapped

/-- A write to a unit window is accepted: it reaches the window, and start-up has not failed (R430). -/
def State.unitWrite (s : State) (src : From) : Bool := s.windowWrite src && s.mode.fail == 0

/-- An access waits at the port behind those that wait. -/
def State.holdAccess (s : State) (w : PortAccess) : State :=
  { s with dill := { s.dill with rp := { s.dill.rp with held := s.dill.rp.held ++ [w] } } }

/-- An access to a unit window in its turn: the register interface serves P3 accesses in the order in which they arrive, so it waits behind those that flow control holds (R240, R477). -/
def State.inTurn (s : State) (w : PortAccess) (f : State → State) : State := if s.dill.rp.held.isEmpty then f s else s.holdAccess w

/-- The lock registers of Table 16.2. -/
def lockRegs : List Nat := [0x8, 0x20000, 0x40000, 0x50000, 0x60000, 0x70000, 0x80004, 0x90000]

/-- The value a setup register takes at the next boundary, or has (R477). -/
def State.regSoon (s : State) (a : Nat) : Nat :=
  s.admin.changes.foldl (fun v c => match c with
    | .setup b x => if b = a then x.toNat else v
    | _ => v) (s.regN a)

end Sys2Proof.Machine
end

