-- ==== Sys2Proof/Machine/Otp.lean ====
section
/-! DEFINITION. Reading OTP: monotonic and value words (R399, Table 13.2), transition codes and the life-cycle state (R400, R401), instance slots (R402), key digests (R404), the anti-rollback count (R405) and device secrets (R406). -/

namespace Sys2Proof.Machine

/-- A blank monotonic word. -/
def OtpMono.blank : OtpMono := { a := 0, b := 0, c := 0 }

/-- A blank copy decodes as 0 (R399). -/
def OtpCopy.blank : OtpCopy := { bits := 0, decodes := true }

/-- A blank value word. -/
def OtpVal.blank : OtpVal := { a := .blank, b := .blank }

/-- Majority of the three copies, bit by bit (R399). -/
def OtpMono.read (m : OtpMono) : BitVec 32 := (m.a &&& m.b) ||| (m.a &&& m.c) ||| (m.b &&& m.c)

/-- Copy A when it decodes, else copy B, else unreadable (R399). -/
def OtpVal.read (v : OtpVal) : Option (BitVec 32) :=
  if v.a.decodes then some v.a.bits else if v.b.decodes then some v.b.bits else none

/-- A monotonic word. -/
def Lovage.mono' (l : Lovage) (w : Nat) : OtpMono := assocD l.mono w .blank

/-- A value word. -/
def Lovage.val' (l : Lovage) (w : Nat) : OtpVal := assocD l.vals w .blank

/-- Reading of a monotonic word. -/
def Lovage.readMono (l : Lovage) (w : Nat) : BitVec 32 := (l.mono' w).read

/-- Reading of a value word. -/
def Lovage.readVal (l : Lovage) (w : Nat) : Option (BitVec 32) := (l.val' w).read

/-- A value word that was never programmed. -/
def Lovage.valBlank (l : Lovage) (w : Nat) : Bool := l.val' w == .blank

/-- Set bits of a word. -/
def popcount (v : BitVec 32) : Nat := ((List.range 32).filter fun i => v.getLsbD i).length

/-- Transition code of a target (Table 13.3). -/
def lifeCode : Life → BitVec 32
  | .test => 0x55555555
  | .provisioned => 0x33333333
  | .secured => 0x0F0F0F0F
  | .develop => 0x00FF00FF
  | .returned => 0x69696969
  | .scrapped => 0xFFFFFFFF
  | .blank => 0

/-- Moves of Table 13.4. -/
def lifeMoves : List (Life × Life) :=
  [(.blank, .test), (.test, .provisioned), (.provisioned, .secured), (.provisioned, .develop), (.secured, .returned),
   (.develop, .returned)]

/-- Code of a state (Table 13.1). -/
def lifeNum : Life → Nat
  | .blank => 0
  | .test => 1
  | .provisioned => 2
  | .secured => 3
  | .develop => 4
  | .returned => 5
  | .scrapped => 6

/-- The state after one transition word (R401). -/
def lifeStep (st : Life) (w : BitVec 32) : Life :=
  match lifeMoves.find? fun m => m.1 == st && lifeCode m.2 == w with
  | some m => m.2
  | none => st

/-- The state that OTP gives (R401). -/
def Lovage.deriveLife (l : Lovage) : Life :=
  let st := (List.range 16).foldl (fun st i => lifeStep st (l.readMono i)) .blank
  if popcount (l.readMono 16) ≥ 16 then .scrapped else st

/-- Blank transition words left (R401). -/
def Lovage.deriveLeft (l : Lovage) : Nat := ((List.range 16).filter fun i => l.readMono i == 0).length

/-- The highest-numbered instance slot that reads non-zero (R402). -/
def Lovage.deriveInst (l : Lovage) : Option Nat :=
  ([3, 2, 1, 0] : List Nat).find? fun i => (l.readVal (20 + i)).any (· != 0)

/-- The instance identifier of the active slot (R209, R402). -/
def Lovage.instanceId (l : Lovage) : Option Nat :=
  l.instSlot.bind fun i => (l.readVal (20 + i)).map fun v => v.toNat % 2 ^ 23

/-- The active instance slot is confirmed (R402). -/
def Lovage.instConfirmed (l : Lovage) : Bool := l.instSlot.any fun i => (l.readMono 19).getLsbD (8 + i)

/-- Consecutive set bits from bit 0. -/
def thermo : Nat → BitVec 64 → Nat
  | 0, _ => 0
  | n + 1, v => if v.getLsbD 0 then 1 + thermo n (v >>> 1) else 0

/-- The anti-rollback count (R405). -/
def Lovage.antiRollback (l : Lovage) : Nat := thermo 64 (l.readMono 18 ++ l.readMono 17)

/-- Word of digest i of an ECDSA (or ML-DSA) key. -/
def digestWord (mlDsa : Bool) (i : Nat) : Nat := (if mlDsa then 88 else 40) + 12 * i

/-- A key digest: its 48 bytes, none when a word is unreadable (R404). -/
def Lovage.keyDigest (l : Lovage) (mlDsa : Bool) (i : Nat) : Option Bytes :=
  (List.range 12).foldl (fun acc w => acc.bind fun b =>
    (l.readVal (digestWord mlDsa i + w)).map fun v => b ++ leBytes 4 v.toNat) (some [])

/-- A digest position never programmed. -/
def Lovage.digestBlank (l : Lovage) (mlDsa : Bool) (i : Nat) : Bool :=
  (List.range 12).all fun w => l.valBlank (digestWord mlDsa i + w)

/-- A key is revoked, or counts as revoked because its digest is unreadable (R404). -/
def Lovage.keyRevoked (l : Lovage) (mlDsa : Bool) (i : Nat) : Bool :=
  (l.readMono 19).getLsbD (i + if mlDsa then 4 else 0) || (l.keyDigest mlDsa i).isNone

/-- A secret slot's 256 data bits read as all ones in either copy (R406). -/
def Lovage.secretWiped (l : Lovage) (i : Nat) : Bool :=
  ((List.range 8).all fun w => (l.val' (24 + 8 * i + w)).a.bits == BitVec.allOnes 32)
  || ((List.range 8).all fun w => (l.val' (24 + 8 * i + w)).b.bits == BitVec.allOnes 32)

/-- The highest-numbered non-blank secret slot (R406). -/
def Lovage.secretSlot (l : Lovage) : Option Nat :=
  ([1, 0] : List Nat).find? fun i => !(List.range 8).all fun w => l.valBlank (24 + 8 * i + w)

/-- The active device secret; none when there is none, or it is wiped or unreadable (R406). -/
def Lovage.secret (l : Lovage) : Option Bytes :=
  match l.secretSlot with
  | none => none
  | some i =>
    if l.secretWiped i then none
    else (List.range 8).foldl (fun acc w => acc.bind fun b =>
      (l.readVal (24 + 8 * i + w)).map fun v => b ++ leBytes 4 v.toNat) (some [])

/-- The life-cycle state offers hardware IVs, and under a confirmed instance (Table 13.1, R397). -/
def Lovage.ivsOffered (l : Lovage) : Bool :=
  (l.life == .provisioned || l.life == .secured || l.life == .develop) && l.instConfirmed

end Sys2Proof.Machine
end

