-- ==== Sys2Proof/Machine/OtpRun.lean ====
section
/-! DEFINITION. OTP operations as they run: one copy at a time, in the order A, B, C (R399, R407), and the steps of a commit (R280, R405) and of a slot's confirmation (R402). -/

namespace Sys2Proof.Machine

def State.setLovage (s : State) (f : Lovage → Lovage) : State := { s with lovage := f s.lovage }

/-- The three copies of a monotonic word. -/
def monoSteps (w : Nat) (bits : BitVec 32) : List OtpStep :=
  [{ word := w, copy := .a, bits := bits }, { word := w, copy := .b, bits := bits }, { word := w, copy := .c, bits := bits }]

/-- The two copies of a value word. -/
def valSteps (w : Nat) (bits : BitVec 32) : List OtpStep :=
  [{ word := w, copy := .a, bits := bits }, { word := w, copy := .b, bits := bits }]

/-- Bits set in one copy of a word. -/
def Lovage.program (l : Lovage) (st : OtpStep) (bits : BitVec 32) (decodes : Bool) : Lovage :=
  if st.word < 20 then
    let m := l.mono' st.word
    let m' : OtpMono := match st.copy with
      | .a => { m with a := m.a ||| bits }
      | .b => { m with b := m.b ||| bits }
      | .c => { m with c := m.c ||| bits }
    { l with mono := assocSet l.mono st.word m' }
  else
    let v := l.val' st.word
    let v' : OtpVal := match st.copy with
      | .a => { v with a := { bits := v.a.bits ||| bits, decodes := decodes } }
      | _ => { v with b := { bits := v.b.bits ||| bits, decodes := decodes } }
    { l with vals := assocSet l.vals st.word v' }

/-- Code of LC_OP_STATUS.op. -/
def OtpKind.code : OtpKind → Nat
  | .transition => 1
  | .programming => 2
  | .commit _ _ => 3
  | .confirm => 2

/-- Start an OTP operation. -/
def State.otpStart (s : State) (k : OtpKind) (steps : List OtpStep) : State :=
  s.setLovage fun l => { l with op := some { kind := k, steps := steps, pulsed := false, halted := false } }

/-- A microcode event of the manager (Table 11.13, type 0x18). -/
def State.ucodeEvent (s : State) (bankB : Bool) (code : Nat) (extra : Bytes) : State :=
  let b := if bankB then s.basil.bankB else s.basil.bankA
  s.event 0 0x18 1 (if bankB then 1 else 0) (leBytes 1 code ++ leBytes 1 b.svn ++ Machine.zeros 2 ++ extra)

/-- Banks whose svn is below the count become EMPTY (R280); a bank whose package is still being verified has no svn yet, and its own check of step 4 follows (R278). -/
def State.dropOldBanks (s : State) : State :=
  let n := s.lovage.antiRollback
  let f (b : Bank) : Bank := if b.state != .empty && b.state != .verifying && b.svn < n then .none else b
  { s with basil := { s.basil with bankA := f s.basil.bankA, bankB := f s.basil.bankB } }

/-- Raise the anti-rollback count to a bank's svn, when that is higher, bit by bit in ascending order; refused with its event while another OTP operation runs (R280, R405). An unsigned package never raises it (R278). -/
def State.commitStart (s : State) (bankB : Bool) : State :=
  let b := if bankB then s.basil.bankB else s.basil.bankA
  let n := s.lovage.antiRollback
  if b.sigKind = 0 then s
  else if s.lovage.op.isSome then s.ucodeEvent bankB 4 []
  else if b.svn ≤ n then s
  else s.otpStart (.commit bankB b.svn) ((List.range (b.svn - n)).flatMap fun i =>
    monoSteps (17 + (n + i) / 32) (BitVec.ofNat 32 (2 ^ ((n + i) % 32))))

/-- Set the confirmed bit of the active instance slot after a journal format (R402, R403); behind an operation that runs. -/
def State.confirmStart (s : State) : State :=
  match s.lovage.instSlot with
  | none => s
  | some i =>
    let steps := monoSteps 19 (BitVec.ofNat 32 (2 ^ (8 + i)))
    match s.lovage.op with
    | none => s.otpStart .confirm steps
    | some o => s.setLovage fun l => { l with op := some { o with steps := o.steps ++ steps } }

/-- Life-cycle state and blank words as OTP gives them (R401). -/
def Lovage.derive (l : Lovage) : Lovage := { l with life := l.deriveLife, wordsLeft := l.deriveLeft }

/-- The lowest blank transition word (Table 13.2). -/
def Lovage.nextWord (l : Lovage) : Option Nat := (List.range 16).find? fun i => l.readMono i == 0

/-- A torn move to RETURNED is completed when a blank transition word remains (R410). -/
def Lovage.completeReturn (l : Lovage) : Lovage :=
  if (l.life == .secured || l.life == .develop) && l.secretSlot.any l.secretWiped then
    match l.nextWord with
    | some w => ((monoSteps w (lifeCode .returned)).foldl (fun l st => l.program st st.bits true) l).derive
    | none => l
  else l

/-- What LOVAGE finds at Sense (R396, R402). -/
def Lovage.atSense (l : Lovage) : Lovage := { l.derive.completeReturn with instSlot := l.deriveInst }

/-- The copies of a monotonic word differ in more than one bit position. -/
def OtpMono.torn (m : OtpMono) : Bool := decide (1 < popcount ((m.a ^^^ m.b) ||| (m.a ^^^ m.c)))

/-- The copies are what programming a code leaves, in full or torn: copy A holds it, with what an earlier tear set; B is a part of it and C blank, or B is whole and C a part (R407, Table 13.6). -/
def OtpMono.tornFrom (m : OtpMono) (code : BitVec 32) : Bool :=
  let within (x y : BitVec 32) : Bool := x &&& ~~~y == 0
  within code m.a && ((m.c == 0 && within m.b code) || (m.b == code && within m.c code))

/-- Codes that the programming of a transition word or of the scrap word can give it (Table 13.3). -/
def wordCodes (w : Nat) : List (BitVec 32) :=
  if w = 16 then [lifeCode .scrapped] else ([.test, .provisioned, .secured, .develop, .returned] : List Life).map lifeCode

/-- Source 10 at Sense (Table 13.8): the copies of a word differ in more than one bit position. Of words 0 to 16, copies that a torn programming leaves are Table 13.6's, and fire nothing (DEDUCED, notes/assumptions/46). -/
def Lovage.controlTorn (l : Lovage) : Bool :=
  (List.range 20).any fun w =>
    let m := l.mono' w
    m.torn && (decide (17 ≤ w) || !((m.b == 0 && m.c == 0) || (wordCodes w).any m.tornFrom))

end Sys2Proof.Machine
end

