-- ==== Sys2Proof/Machine/Aes.lean ====
section
/-! DEFINITION. The AES block cipher of FIPS 197 (R155; the spec names the standard, notes/assumptions/2) and GF(2^128). -/

namespace Sys2Proof.Machine

/-- The S-box of FIPS 197 as one number: entry x at bits 8x+7 to 8x. -/
def aesSbox : Nat := 0x16bb54b00f2d99416842e6bf0d89a18cdf2855cee9871e9b948ed9691198f8e19e1dc186b95735610ef6034866b53e708a8bbd4b1f74dde8c6b4a61c2e2578ba08ae7a65eaf4566ca94ed58d6d37c8e779e4959162acd3c25c2406490a3a32e0db0b5ede14b8ee4688902a22dc4f816073195d643d7ea7c41744975fec130ccdd2f3ff1021dab6bcf5389d928f40a351a89f3c507f02f94585334d43fbaaefd0cf584c4a39becb6a5bb1fc20ed00d153842fe329b3d63b52a05a6e1b1a2c830975b227ebe28012079a059618c323c7041531d871f1e5a534ccf73f362693fdb7c072a49cafa2d4adf04759fa7dc982ca76abd7fe2b670130c56f6bf27b777c63

/-- The inverse S-box, in the same form. -/
def aesInvSbox : Nat := 0x7d0c2155631469e126d677ba7e042b17619953833cbbebc8b0f52aae4d3be0a0ef9cc9939f7ae52d0d4ab519a97f51605fec8027591012b131c7078833a8dd1ff45acd78fec0db9a2079d2c64b3e56fc1bbe18aa0e62b76f89c5291d711af1476edf751ce837f9e28535ade72274ac9673e6b4f0cecff297eadc674f4111913a6b8a130103bdafc1020f3fca8f1e2cd00645b3b80558e4f70ad3bc8c00abd890849d8da75746155edab9edfd5048706c92b6655dcc5ca4d41698688664f6f87225d18b6d49a25b76b224d92866a12e084ec3fa420b954cee3d23c2a632947b54cbe9dec444438e3487ff2f9b8239e37cfbd7f3819ea340bf38a53630d56a0952

/-- Entry x of a table of bytes kept as one number. -/
def boxAt (t : Nat) (x : Byte) : Byte := BitVec.ofNat 8 (t >>> (8 * x.toNat))

/-- Multiplication by x in GF(2^8) modulo x^8 + x^4 + x^3 + x + 1. -/
def xtime (b : Byte) : Byte := (b <<< 1) ^^^ (if b.getLsbD 7 then 0x1B else 0)

/-- Multiplication by a small constant in GF(2^8); the constants of MixColumns have four bits. -/
def gmul (c : Nat) (b : Byte) : Byte :=
  let b2 := xtime b
  let b4 := xtime b2
  let b8 := xtime b4
  (if bit c 0 then b else 0) ^^^ (if bit c 1 then b2 else 0) ^^^ (if bit c 2 then b4 else 0) ^^^ (if bit c 3 then b8 else 0)

/-- Round constants of the key schedule. -/
def aesRcon : List Byte := [0x01, 0x02, 0x04, 0x08, 0x10, 0x20, 0x40, 0x80, 0x1B, 0x36]

/-- Word i of the key schedule from the words before it, newest first. -/
def aesNextWord (nk i : Nat) (ws : List Bytes) : Bytes :=
  let prev := ws.headD []
  let t := if i % nk == 0 then
      let r := (prev.drop 1 ++ prev.take 1).map (boxAt aesSbox)
      xorB r [aesRcon.getD (i / nk - 1) 0, 0, 0, 0]
    else if nk > 6 && i % nk == 4 then prev.map (boxAt aesSbox)
    else prev
  xorB (ws.getD (nk - 1) []) t

/-- Round keys of a key of 16, 24 or 32 bytes, in order. -/
def aesRoundKeys (key : Bytes) : List Bytes :=
  let nk := key.length / 4
  let nr := nk + 6
  let first := (chunks 4 key).reverse
  let ws := (List.range (4 * (nr + 1) - nk)).foldl (fun ws k => aesNextWord nk (nk + k) ws :: ws) first
  chunks 16 ws.reverse.flatten

/-- ShiftRows on a column-major state of 16 bytes. -/
def shiftRows (s : Bytes) : Bytes :=
  (List.range 16).map fun i => byteAt s ((i % 4) + 4 * (((i / 4) + (i % 4)) % 4))

/-- Inverse of ShiftRows. -/
def invShiftRows (s : Bytes) : Bytes :=
  (List.range 16).map fun i => byteAt s ((i % 4) + 4 * (((i / 4) + 4 - (i % 4)) % 4))

/-- One column times the circulant matrix whose first row is a b c d. -/
def mixColumn (a b c d : Nat) (col : Bytes) : Bytes :=
  let x0 := byteAt col 0
  let x1 := byteAt col 1
  let x2 := byteAt col 2
  let x3 := byteAt col 3
  [gmul a x0 ^^^ gmul b x1 ^^^ gmul c x2 ^^^ gmul d x3, gmul d x0 ^^^ gmul a x1 ^^^ gmul b x2 ^^^ gmul c x3,
   gmul c x0 ^^^ gmul d x1 ^^^ gmul a x2 ^^^ gmul b x3, gmul b x0 ^^^ gmul c x1 ^^^ gmul d x2 ^^^ gmul a x3]

/-- MixColumns. -/
def mixColumns (s : Bytes) : Bytes := (chunks 4 s).flatMap (mixColumn 2 3 1 1)

/-- Inverse of MixColumns. -/
def invMixColumns (s : Bytes) : Bytes := (chunks 4 s).flatMap (mixColumn 14 11 13 9)

/-- The rounds after the first AddRoundKey; the last one has no MixColumns. -/
def aesEncRounds : Bytes → List Bytes → Bytes
  | s, [] => s
  | s, [k] => xorB (shiftRows (s.map (boxAt aesSbox))) k
  | s, k :: ks => aesEncRounds (xorB (mixColumns (shiftRows (s.map (boxAt aesSbox)))) k) ks

/-- The rounds of the inverse cipher over the round keys from the last but one down. -/
def aesDecRounds : Bytes → List Bytes → Bytes
  | s, [] => s
  | s, [k] => xorB ((invShiftRows s).map (boxAt aesInvSbox)) k
  | s, k :: ks => aesDecRounds (invMixColumns (xorB ((invShiftRows s).map (boxAt aesInvSbox)) k)) ks

/-- AES encryption of one block. -/
def aesEnc (key block : Bytes) : Bytes :=
  match aesRoundKeys key with
  | [] => block
  | k :: ks => aesEncRounds (xorB block k) ks

/-- AES decryption of one block. -/
def aesDec (key block : Bytes) : Bytes :=
  match (aesRoundKeys key).reverse with
  | [] => block
  | k :: ks => aesDecRounds (xorB block k) ks

/-- Multiplication in GF(2^128) with the bit order of SP 800-38D: block bit 0 is the most significant bit. -/
def ghashMul (x y : BitVec 128) : BitVec 128 :=
  ((List.range 128).foldl (fun (zv : BitVec 128 × BitVec 128) i =>
    let z := if x.getMsbD i then zv.1 ^^^ zv.2 else zv.1
    let v := if zv.2.getLsbD 0 then (zv.2 >>> 1) ^^^ 0xE1000000000000000000000000000000#128 else zv.2 >>> 1
    (z, v)) (0, y)).1

/-- A block of 16 bytes as a bit string, first byte most significant. -/
def blockBits (b : Bytes) : BitVec 128 := BitVec.ofNat 128 (beNat (padTo 16 b))

/-- GHASH over a string of whole blocks. -/
def ghash (h : BitVec 128) (data : Bytes) : BitVec 128 :=
  (chunks 16 data).foldl (fun acc b => ghashMul (acc ^^^ blockBits b) h) 0

/-- A 128-bit value as 16 bytes, first byte most significant. -/
def bitsBlock (v : BitVec 128) : Bytes := beBytes 16 v.toNat

/-- Doubling in GF(2^128) with the bit order of CMAC (SP 800-38B): subkeys and S2V. -/
def cmacDbl (b : Bytes) : Bytes :=
  let v := blockBits b
  bitsBlock ((v <<< 1) ^^^ (if v.getMsbD 0 then 0x87 else 0))

/-- Multiplication of an XTS tweak by alpha (IEEE 1619: little-endian byte order). -/
def xtsAlpha (t : Bytes) : Bytes :=
  let v := BitVec.ofNat 128 (leNat t)
  leBytes 16 ((v <<< 1) ^^^ (if v.getMsbD 0 then 0x87 else 0)).toNat

end Sys2Proof.Machine
end

