-- ==== Sys2Proof/Machine/Cipher.lean ====
section
/-! DEFINITION. Modes of operation over AES (R162 to R166, R175, R207, R208; SP 800-38A to F, RFC 5297, RFC 3394, RFC 5649, IEEE 1619) and ChaCha20-Poly1305 (RFC 8439). The first part works on whole strings; the part on slices works on one slice of a stream and on what a job state record carries (R160, notes/assumptions/2). -/

namespace Sys2Proof.Machine

/-- The first n bytes of the keystream whose counter block i is ctr i. -/
def aesStream (key : Bytes) (ctr : Nat → Bytes) (n : Nat) : Bytes :=
  ((List.range (ceilDiv n 16)).flatMap fun i => aesEnc key (ctr i)).take n

/-- Counter block m after block b: inc32 applied m times (R163). -/
def inc32 (b : Bytes) (m : Nat) : Bytes := b.take 12 ++ beBytes 4 (beNat (b.drop 12) + m)

/-- Counter block b plus m modulo 2^128 (R163). -/
def add128 (b : Bytes) (m : Nat) : Bytes := beBytes 16 (beNat b + m)

/-- AES-CTR over data from an initial counter block (R163). -/
def aesCtrCrypt (key iv data : Bytes) : Bytes := xorB data (aesStream key (add128 iv) data.length)

/-! ## GCM -/

/-- J0 of a 96-bit IV (R163). -/
def gcmJ0 (iv : Bytes) : Bytes := iv.take 12 ++ [0, 0, 0, 1]

/-- GCM's counter-mode cipher: message block m uses inc32 applied m times to J0, m from 1 (R163). -/
def gcmCrypt (key iv data : Bytes) : Bytes :=
  xorB data (aesStream key (fun i => inc32 (gcmJ0 iv) (i + 1)) data.length)

/-- The whole 16-byte GCM tag over associated data and ciphertext (R162). -/
def gcmTag (key iv aad ct : Bytes) : Bytes :=
  let h := blockBits (aesEnc key (zeros 16))
  let lens := beBytes 8 (8 * aad.length) ++ beBytes 8 (8 * ct.length)
  xorB (bitsBlock (ghash h (padMul 16 aad ++ padMul 16 ct ++ lens))) (aesEnc key (gcmJ0 iv))

/-! ## CBC, CMAC, CCM -/

/-- CBC encryption of blocks from chaining value c. -/
def cbcEncBlocks (key : Bytes) : Bytes → List Bytes → List Bytes
  | _, [] => []
  | c, b :: bs =>
    let x := aesEnc key (xorB b c)
    x :: cbcEncBlocks key x bs

/-- CBC decryption of blocks from chaining value c. -/
def cbcDecBlocks (key : Bytes) : Bytes → List Bytes → List Bytes
  | _, [] => []
  | c, b :: bs => xorB (aesDec key b) c :: cbcDecBlocks key b bs

/-- AES-CBC encryption without padding. -/
def cbcEnc (key iv data : Bytes) : Bytes := (cbcEncBlocks key iv (chunks 16 data)).flatten

/-- Last chaining value of a CBC-MAC over whole blocks. -/
def cbcMac (key : Bytes) (data : Bytes) : Bytes :=
  (chunks 16 data).foldl (fun c b => aesEnc key (xorB b c)) (zeros 16)

/-- AES-CMAC of SP 800-38B. -/
def cmac (key msg : Bytes) : Bytes :=
  let k1 := cmacDbl (aesEnc key (zeros 16))
  let k2 := cmacDbl k1
  let whole := msg.length % 16 == 0 && msg.length != 0
  let cut := if whole then msg.length - 16 else msg.length - msg.length % 16
  let last := msg.drop cut
  let m := if whole then xorB last k1 else xorB (padTo 16 (last ++ [0x80])) k2
  cbcMac key (msg.take cut ++ m)

/-- Counter block i of CCM. -/
def ccmCtr (nonce : Bytes) (i : Nat) : Bytes :=
  let q := 15 - nonce.length
  BitVec.ofNat 8 (q - 1) :: nonce ++ beBytes q i

/-- CCM's counter-mode cipher. -/
def ccmCrypt (key nonce data : Bytes) : Bytes :=
  xorB data (aesStream key (fun i => ccmCtr nonce (i + 1)) data.length)

/-! ## SIV -/

/-- S2V of RFC 5297 over components and a last one (R166). -/
def s2v (k1 : Bytes) (comps : List Bytes) (last : Bytes) : Bytes :=
  let d := comps.foldl (fun d c => xorB (cmacDbl d) (cmac k1 c)) (cmac k1 (zeros 16))
  if last.length < 16 then cmac k1 (xorB (cmacDbl d) (padTo 16 (last ++ [0x80])))
  else cmac k1 (last.take (last.length - 16) ++ xorB (last.drop (last.length - 16)) d)

/-- The vector's components before the plaintext (R166). -/
def sivComps (aad nonce : Bytes) : List Bytes :=
  (if aad.length = 0 then [] else [aad]) ++ (if nonce.length = 0 then [] else [nonce])

/-- V with bits 63 and 31 cleared (R166). -/
def sivQ (v : Bytes) : Bytes :=
  bitsBlock (blockBits v &&& ~~~ (1#128 <<< 63 ||| 1#128 <<< 31))

/-- S2V half of a SIV key. -/
def sivMacKey (key : Bytes) : Bytes := key.take (key.length / 2)

/-- CTR half of a SIV key. -/
def sivCtrKey (key : Bytes) : Bytes := key.drop (key.length / 2)

/-- The synthetic IV of a plaintext. -/
def sivTag (key aad nonce pt : Bytes) : Bytes := s2v (sivMacKey key) (sivComps aad nonce) pt

/-- The CTR pass of SIV under a tag. -/
def sivCrypt (key v data : Bytes) : Bytes := aesCtrCrypt (sivCtrKey key) (sivQ v) data

/-! ## XTS -/

/-- Tweaks of the blocks of one data unit from the encrypted unit number. -/
def xtsTweaks : Nat → Bytes → List Bytes
  | 0, _ => []
  | n + 1, t => t :: xtsTweaks n (xtsAlpha t)

/-- One data unit under XTS (R175). -/
def xtsUnit (enc : Bool) (key : Bytes) (dun : Nat) (unit : Bytes) : Bytes :=
  let k1 := key.take (key.length / 2)
  let k2 := key.drop (key.length / 2)
  let t0 := aesEnc k2 (leBytes 16 dun)
  let bs := chunks 16 unit
  (List.zipWith (fun b t => xorB ((if enc then aesEnc else aesDec) k1 (xorB b t)) t) bs (xtsTweaks bs.length t0)).flatten

/-! ## Key wrap -/

/-- One pass of the wrapping function W of RFC 3394 over register A and the semiblocks. -/
def kwPass (key : Bytes) (n j : Nat) (st : Bytes × List Bytes) : Bytes × List Bytes :=
  (st.2.zipIdx.foldl (fun (acc : Bytes × List Bytes) (ri : Bytes × Nat) =>
    let b := aesEnc key (acc.1 ++ ri.1)
    (xorB (b.take 8) (beBytes 8 (n * j + ri.2 + 1)), acc.2 ++ [b.drop 8])) (st.1, []))

/-- W of RFC 3394 over initial value a and at least two semiblocks. -/
def kwW (key a : Bytes) (r : List Bytes) : Bytes :=
  let st := (List.range 6).foldl (fun st j => kwPass key r.length j st) (a, r)
  st.1 ++ st.2.flatten

/-- AES-KWP (RFC 5649); material of at most 8 bytes takes a single invocation (R207). -/
def kwpWrap (key p : Bytes) : Bytes :=
  let aiv := [0xA6, 0x59, 0x59, 0xA6] ++ beBytes 4 p.length
  let q := padMul 8 p
  if q.length ≤ 8 then aesEnc key (aiv ++ padTo 8 q) else kwW key aiv (chunks 8 q)

/-! ## ChaCha20-Poly1305 -/

/-- Left rotation of a 32-bit word. -/
def rotl32 (x : BitVec 32) (n : Nat) : BitVec 32 := x.rotateLeft n

/-- The quarter round of RFC 8439 on words i j k l of the state. -/
def chachaQr (s : List (BitVec 32)) (i j k l : Nat) : List (BitVec 32) :=
  let a := s.getD i 0
  let b := s.getD j 0
  let c := s.getD k 0
  let d := s.getD l 0
  let a := a + b
  let d := rotl32 (d ^^^ a) 16
  let c := c + d
  let b := rotl32 (b ^^^ c) 12
  let a := a + b
  let d := rotl32 (d ^^^ a) 8
  let c := c + d
  let b := rotl32 (b ^^^ c) 7
  (((s.set i a).set j b).set k c).set l d

/-- A column round and a diagonal round. -/
def chachaDouble (s : List (BitVec 32)) : List (BitVec 32) :=
  let s := chachaQr (chachaQr (chachaQr (chachaQr s 0 4 8 12) 1 5 9 13) 2 6 10 14) 3 7 11 15
  chachaQr (chachaQr (chachaQr (chachaQr s 0 5 10 15) 1 6 11 12) 2 7 8 13) 3 4 9 14

/-- The ChaCha20 block of a key, a counter and a 12-byte nonce. -/
def chachaBlock (key nonce : Bytes) (ctr : Nat) : Bytes :=
  let w (b : Bytes) := (chunks 4 b).map fun c => BitVec.ofNat 32 (leNat c)
  let s := [0x61707865#32, 0x3320646e#32, 0x79622d32#32, 0x6b206574#32] ++ w key ++ [BitVec.ofNat 32 ctr] ++ w nonce
  let t := (List.range 10).foldl (fun t _ => chachaDouble t) s
  (List.zipWith (· + ·) s t).flatMap fun x => leBytes 4 x.toNat

/-- ChaCha20 over a message: block b uses counter b + 1 (R163). -/
def chachaCrypt (key nonce data : Bytes) : Bytes :=
  xorB data (((List.range (ceilDiv data.length 64)).flatMap fun i => chachaBlock key nonce (i + 1)).take data.length)

/-! ## Protection information -/

/-- T10 CRC-16 of Table 5.6: polynomial 0x8BB7, initial value 0, no reflection. -/
def crcT10 (data : Bytes) : BitVec 16 :=
  data.foldl (fun c b =>
    (List.range 8).foldl (fun (x : BitVec 16) _ => if x.getMsbD 0 then (x <<< 1) ^^^ 0x8BB7 else x <<< 1)
      (c ^^^ ((b.setWidth 16 : BitVec 16) <<< (8 : Nat)))) 0

/-- The NVMe 64-bit CRC of Table 5.7: polynomial 0xAD93D23594C93659 reflected, initial value and final XOR all ones (notes/assumptions/2). -/
def crcNvme64 (data : Bytes) : BitVec 64 :=
  ~~~ (data.foldl (crcByte 64 0x9A6C9329AC4BC9B5) (BitVec.allOnes 64))

/-! ## Slices of a mode -/

/-- n keystream bytes from byte off of the stream on; a block that straddles a boundary is computed on both sides (R163). -/
def streamAt (key : Bytes) (ctr : Nat → Bytes) (off n : Nat) : Bytes :=
  (((List.range (ceilDiv (off % 16 + n) 16)).flatMap fun i => aesEnc key (ctr (off / 16 + i))).drop (off % 16)).take n

/-- A power by repeated squaring; fuel bounds the exponent's bits. -/
def powBy {α : Type} (mul : α → α → α) : Nat → α → Nat → α → α
  | 0, _, _, acc => acc
  | fuel + 1, b, e, acc => powBy mul fuel (mul b b) (e / 2) (if e % 2 = 1 then mul acc b else acc)

/-- Power n of a hash key (Table 5.1, power multiplier). -/
def ghashPow (h : BitVec 128) (n : Nat) : BitVec 128 := powBy ghashMul 36 h n (1#128 <<< 127)

/-- The share of bytes at position pos of an authenticated string of n blocks (R162): Horner's rule over the blocks they touch, bytes outside taken as zero, times the power that their position needs. -/
def ghashShare (h : BitVec 128) (n pos : Nat) (b : Bytes) : BitVec 128 :=
  if b.isEmpty then 0
  else ghashMul (ghash h (padMul 16 (zeros (pos % 16) ++ b))) (ghashPow h (n - (pos + b.length - 1) / 16 - 1))

/-- The prime of Poly1305. -/
def polyP : Nat := 2 ^ 130 - 5

/-- The share of bytes at position pos of a Poly1305 string of n blocks; stop is the end of the bytes' part of the string: the 2^128 term of a block is added by the holder of the block's last byte (R162). -/
def polyShare (r n pos stop : Nat) (b : Bytes) : Nat :=
  if b.isEmpty then 0
  else
    let first := pos / 16
    let whole := ((chunks 16 (zeros (pos % 16) ++ b)).zipIdx.foldl (fun acc (x : Bytes × Nat) =>
      let endsHere := decide (min (16 * (first + x.2 + 1)) stop ≤ pos + b.length)
      (acc + leNat x.1 + if endsHere then 2 ^ 128 else 0) * r % polyP) 0)
    whole * powBy (fun x y => x * y % polyP) 36 r (n - (pos + b.length - 1) / 16 - 1) 1 % polyP

/-- A serial stream takes bytes: the carried block is completed, whole blocks are chained, and the rest is carried (R164). -/
def cbcAbsorb (key : Bytes) (st : Stream) (b : Bytes) : Stream :=
  let m := st.part ++ b
  let n := m.length / 16 * 16
  { st with chain := (chunks 16 (m.take n)).foldl (fun c x => aesEnc key (xorB x c)) st.chain, part := m.drop n }

/-- The carried block is padded with zeros and chained. -/
def cbcPad (key : Bytes) (st : Stream) : Stream :=
  if st.part.isEmpty then st else cbcAbsorb key st (zeros (16 - st.part.length))

/-- The end of a CMAC: the last block takes K1 or K2, which derive from E_K(0^128) (R164). -/
def cmacLast (key : Bytes) (st : Stream) (b : Bytes) : Bytes :=
  let k1 := cmacDbl (aesEnc key (zeros 16))
  let m := st.part ++ b
  let whole := m.length % 16 == 0 && !m.isEmpty
  let cut := if whole then m.length - 16 else m.length / 16 * 16
  let z := if whole then xorB (m.drop cut) k1 else xorB (padTo 16 (m.drop cut ++ [0x80])) (cmacDbl k1)
  (cbcAbsorb key { st with part := [] } (m.take cut ++ z)).chain

/-- A finished component enters S2V's sum, and the stream starts anew (R166). -/
def sivComp (st : Stream) (mac : Bytes) : Stream := { st with chain := zeros 16, part := [], comps := xorB (cmacDbl st.comps) mac }

/-- AES invocation t of a wrap over register and n semiblocks (R207). -/
def kwStep (key : Bytes) (n : Nat) (st : Bytes) (t : Nat) : Bytes :=
  let i := 8 + 8 * (t % n)
  let b := aesEnc key (st.take 8 ++ sub st i 8)
  xorB (b.take 8) (beBytes 8 (t + 1)) ++ sub st 8 (i - 8) ++ b.drop 8 ++ st.drop (i + 8)

/-- AES invocation t, counted from the end, of an unwrap. -/
def kwUnstep (key : Bytes) (n : Nat) (st : Bytes) (t : Nat) : Bytes :=
  let i := 8 + 8 * (t % n)
  let b := aesDec key (xorB (st.take 8) (beBytes 8 (t + 1)) ++ sub st i 8)
  b.take 8 ++ sub st 8 (i - 8) ++ b.drop 8 ++ st.drop (i + 8)

/-- What a wrap starts from: register and semiblocks. -/
def kwStart (sub' : Nat) (m : Bytes) : Bytes :=
  if sub' == 1 then List.replicate 8 0xA6 ++ m else [0xA6, 0x59, 0x59, 0xA6] ++ beBytes 4 m.length ++ padMul 8 m

/-- Slice k of a wrap: up to 16 AES invocations, or the single one of one semiblock (R207). -/
def kwSlice (key st : Bytes) (k : Nat) : Bytes :=
  let n := st.length / 8 - 1
  if n ≤ 1 then aesEnc key st
  else ((List.range (min (16 * (k + 1)) (6 * n) - 16 * k)).map (· + 16 * k)).foldl (kwStep key n) st

/-- Slice k of an unwrap. -/
def kwUnslice (key st : Bytes) (k : Nat) : Bytes :=
  let n := st.length / 8 - 1
  if n ≤ 1 then aesDec key st
  else ((List.range (min (16 * (k + 1)) (6 * n) - 16 * k)).map fun t => 6 * n - 1 - (t + 16 * k)).foldl (kwUnstep key n) st

/-- The integrity check of an unwrap over its final register and semiblocks: the material, or none (R208, RFC 3394, RFC 5649). -/
def kwOpen (sub' : Nat) (st : Bytes) : Option Bytes :=
  let p := st.drop 8
  if sub' == 1 then (if 24 ≤ st.length && st.take 8 == List.replicate 8 0xA6 then some p else none)
  else
    let n := beNat (sub st 4 4)
    if st.take 4 == [0xA6, 0x59, 0x59, 0xA6] && n ≤ p.length && p.length < n + 8 && n != 0 && allZero (p.drop n)
    then some (p.take n) else none

end Sys2Proof.Machine
end

