-- ==== Sys2Proof/Machine/Sha.lean ====
section
/-! DEFINITION. SHA-2 (FIPS 180-4), SHA-3 and SHAKE (FIPS 202), HMAC (FIPS 198-1): the digests of Table 4.7 (notes/assumptions/2). -/

namespace Sys2Proof.Machine

/-- Round constants of SHA-256 as one number, word i at bits 32i. -/
def sha256K : Nat := 0xc67178f2bef9a3f7a4506ceb90befffa8cc7020884c8781478a5636f748f82ee682e6ff35b9cca4f4ed8aa4a391c0cb334b0bcb52748774c1e376c0819a4c116106aa070f40e3585d6990624d192e819c76c51a3c24b8b70a81a664ba2bfe8a192722c8581c2c92e766a0abb650a735453380d134d2c6dfc2e1b213827b70a851429296706ca6351d5a79147c6e00bf3bf597fc7b00327c8a831c66d983e515276f988da5cb0a9dc4a7484aa2de92c6f240ca1cc0fc19dc6efbe4786e49b69c1c19bf1749bdc06a780deb1fe72be5d74550c7dc3243185be12835b01d807aa98ab1c5ed5923f82a459f111f13956c25be9b5dba5b5c0fbcf71374491428a2f98

/-- Round constants of SHA-512 as one number, word i at bits 64i. -/
def sha512K : Nat := 0x6c44198c4a4758175fcb6fab3ad6faec597f299cfc657e2a4cc5d4becb3e42b6431d67c49c100d4c3c9ebe0a15c9bebc32caab7b40c7249328db77f523047d841b710b35131c471b113f9804bef90dae0a637dc5a2c898a606f067aa72176fbaf57d4f7fee6ed178eada7dd6cde0eb1ed186b8c721c0c207ca273eceea26619cc67178f2e372532bbef9a3f7b2c67915a4506cebde82bde990befffa23631e288cc702081a6439ec84c87814a1f0ab7278a5636f43172f60748f82ee5defb2fc682e6ff3d6b2b8a35b9cca4f7763e3734ed8aa4ae3418acb391c0cb3c5c95a6334b0bcb5e19b48a82748774cdf8eeb991e376c085141ab5319a4c116b8d2d0c8106aa07032bbd1b8f40e35855771202ad69906245565a910d192e819d6ef5218c76c51a30654be30c24b8b70d0f89791a81a664bbc423001a2bfe8a14cf1036492722c851482353b81c2c92e47edaee6766a0abb3c77b2a8650a73548baf63de53380d139d95b3df4d2c6dfc5ac42aed2e1b21385c26c92627b70a8546d22ffc142929670a0e6e7006ca6351e003826fd5a79147930aa725c6e00bf33da88fc2bf597fc7beef0ee4b00327c898fb213fa831c66d2db43210983e5152ee66dfab76f988da831153b55cb0a9dcbd41fbd44a7484aa6ea6e4832de92c6f592b0275240ca1cc77ac9c650fc19dc68b8cd5b5efbe4786384f25e3e49b69c19ef14ad2c19bf174cf6926949bdc06a725c7123580deb1fe3b1696b172be5d74f27b896f550c7dc3d5ffb4e2243185be4ee4b28c12835b0145706fbed807aa98a3030242ab1c5ed5da6d8118923f82a4af194f9b59f111f1b605d0193956c25bf348b538e9b5dba58189dbbcb5c0fbcfec4d3b2f7137449123ef65cd428a2f98d728ae22

/-- Initial hash values, FIPS 180-4 section 5.3. -/
def sha224H : List Nat := [0xc1059ed8, 0x367cd507, 0x3070dd17, 0xf70e5939, 0xffc00b31, 0x68581511, 0x64f98fa7, 0xbefa4fa4]
def sha256H : List Nat := [0x6a09e667, 0xbb67ae85, 0x3c6ef372, 0xa54ff53a, 0x510e527f, 0x9b05688c, 0x1f83d9ab, 0x5be0cd19]
def sha384H : List Nat := [0xcbbb9d5dc1059ed8, 0x629a292a367cd507, 0x9159015a3070dd17, 0x152fecd8f70e5939, 0x67332667ffc00b31, 0x8eb44a8768581511, 0xdb0c2e0d64f98fa7, 0x47b5481dbefa4fa4]
def sha512H : List Nat := [0x6a09e667f3bcc908, 0xbb67ae8584caa73b, 0x3c6ef372fe94f82b, 0xa54ff53a5f1d36f1, 0x510e527fade682d1, 0x9b05688c2b3e6c1f, 0x1f83d9abfb41bd6b, 0x5be0cd19137e2179]

/-- The rotation and shift amounts of a SHA-2 word size: big sigmas, then small sigmas. -/
structure Sha2Params where
  k : Nat
  rounds : Nat
  s0 : Nat × Nat × Nat
  s1 : Nat × Nat × Nat
  m0 : Nat × Nat × Nat
  m1 : Nat × Nat × Nat

/-- SHA-256's family. -/
def sha256P : Sha2Params :=
  { k := sha256K, rounds := 64, s0 := (2, 13, 22), s1 := (6, 11, 25), m0 := (7, 18, 3), m1 := (17, 19, 10) }

/-- SHA-512's family. -/
def sha512P : Sha2Params :=
  { k := sha512K, rounds := 80, s0 := (28, 34, 39), s1 := (14, 18, 41), m0 := (1, 8, 7), m1 := (19, 61, 6) }

/-- Three rotations. -/
def shaBig {w : Nat} (r : Nat × Nat × Nat) (x : BitVec w) : BitVec w :=
  x.rotateRight r.1 ^^^ x.rotateRight r.2.1 ^^^ x.rotateRight r.2.2

/-- Two rotations and a shift. -/
def shaSmall {w : Nat} (r : Nat × Nat × Nat) (x : BitVec w) : BitVec w :=
  x.rotateRight r.1 ^^^ x.rotateRight r.2.1 ^^^ (x >>> r.2.2)

/-- n further words of the message schedule, newest first. -/
def sha2Schedule {w : Nat} (p : Sha2Params) : Nat → List (BitVec w) → List (BitVec w)
  | 0, ws => ws
  | n + 1, ws =>
    sha2Schedule p n ((shaSmall p.m1 (ws.getD 1 0) + ws.getD 6 0 + shaSmall p.m0 (ws.getD 14 0) + ws.getD 15 0) :: ws)

/-- One round with schedule word x and round number t. -/
def sha2Round {w : Nat} (p : Sha2Params) (v : List (BitVec w)) (t : Nat) (x : BitVec w) : List (BitVec w) :=
  let a := v.getD 0 0
  let b := v.getD 1 0
  let c := v.getD 2 0
  let d := v.getD 3 0
  let e := v.getD 4 0
  let f := v.getD 5 0
  let g := v.getD 6 0
  let h := v.getD 7 0
  let t1 := h + shaBig p.s1 e + ((e &&& f) ^^^ (~~~ e &&& g)) + BitVec.ofNat w (p.k >>> (w * t)) + x
  let t2 := shaBig p.s0 a + ((a &&& b) ^^^ (a &&& c) ^^^ (b &&& c))
  [t1 + t2, a, b, c, d + t1, e, f, g]

/-- The compression function on one block. -/
def sha2Block {w : Nat} (p : Sha2Params) (h : List (BitVec w)) (blk : Bytes) : List (BitVec w) :=
  let ws := (sha2Schedule p (p.rounds - 16) ((chunks (w / 8) blk).map fun c => BitVec.ofNat w (beNat c)).reverse).reverse
  let v := ws.zipIdx.foldl (fun v xt => sha2Round p v xt.2 xt.1) h
  List.zipWith (· + ·) h v

/-- SHA-2 over words of w bits from initial value h0. -/
def sha2 (w : Nat) (p : Sha2Params) (h0 : List Nat) (msg : Bytes) : Bytes :=
  let blk := w * 2
  let lenB := w / 4
  let m := msg ++ [0x80] ++ zeros (padLen blk (msg.length + 1 + lenB)) ++ beBytes lenB (8 * msg.length)
  let h := (chunks blk m).foldl (sha2Block p) (h0.map (BitVec.ofNat w))
  h.flatMap fun x => beBytes (w / 8) x.toNat

/-- SHA-256. -/
def sha256 (m : Bytes) : Bytes := sha2 32 sha256P sha256H m

/-- SHA-384. -/
def sha384 (m : Bytes) : Bytes := (sha2 64 sha512P sha384H m).take 48

/-- SHA-512. -/
def sha512 (m : Bytes) : Bytes := sha2 64 sha512P sha512H m

/-- SHA-512/t: the initial value comes from SHA-512 with its words XORed with a5…a5 (FIPS 180-4 section 5.3.6). -/
def sha512t (name : Bytes) (n : Nat) (m : Bytes) : Bytes :=
  let iv := sha2 64 sha512P (sha512H.map fun h => h ^^^ 0xa5a5a5a5a5a5a5a5) name
  (sha2 64 sha512P ((chunks 8 iv).map beNat) m).take n

/-! ## Keccak -/

/-- Round constants of Keccak-f[1600]. -/
def keccakRC : List Nat :=
  [0x1, 0x8082, 0x800000000000808a, 0x8000000080008000, 0x808b, 0x80000001, 0x8000000080008081, 0x8000000000008009, 0x8a, 0x88, 0x80008009, 0x8000000a]
  ++ [0x8000808b, 0x800000000000008b, 0x8000000000008089, 0x8000000000008003, 0x8000000000008002, 0x8000000000000080, 0x800a, 0x800000008000000a, 0x8000000080008081, 0x8000000000008080, 0x80000001, 0x8000000080008008]

/-- Rotation of lane x + 5y. -/
def keccakRot : List Nat := [0, 1, 62, 28, 27, 36, 44, 6, 55, 20, 3, 10, 43, 25, 39, 41, 45, 15, 21, 8, 18, 2, 61, 56, 14]

/-- One round of Keccak-f[1600] on 25 lanes. -/
def keccakRound (a : List (BitVec 64)) (rc : Nat) : List (BitVec 64) :=
  let l (i : Nat) := a.getD i 0
  let c := (List.range 5).map fun x => l x ^^^ l (x + 5) ^^^ l (x + 10) ^^^ l (x + 15) ^^^ l (x + 20)
  let d := (List.range 5).map fun x => c.getD ((x + 4) % 5) 0 ^^^ (c.getD ((x + 1) % 5) 0).rotateLeft 1
  let t := a.zipIdx.map fun v => (v.1 ^^^ d.getD (v.2 % 5) 0).rotateLeft (keccakRot.getD v.2 0)
  let b := (List.range 25).map fun i =>
    let x := i % 5
    let y := i / 5
    t.getD ((x + 3 * y) % 5 + 5 * x) 0
  let e := (List.range 25).map fun i =>
    let x := i % 5
    let y := i / 5
    b.getD i 0 ^^^ (~~~ b.getD ((x + 1) % 5 + 5 * y) 0 &&& b.getD ((x + 2) % 5 + 5 * y) 0)
  match e with
  | [] => []
  | e0 :: es => (e0 ^^^ BitVec.ofNat 64 rc) :: es

/-- Keccak-f[1600]. -/
def keccakF (a : List (BitVec 64)) : List (BitVec 64) := keccakRC.foldl keccakRound a

/-- Lanes of a state as bytes. -/
def keccakBytes (a : List (BitVec 64)) : Bytes := a.flatMap fun x => leBytes 8 x.toNat

/-- n output blocks of rate r. -/
def keccakSqueeze (r : Nat) : Nat → List (BitVec 64) → Bytes
  | 0, _ => []
  | n + 1, a => (keccakBytes a).take r ++ keccakSqueeze r n (keccakF a)

/-- The sponge with rate r, domain suffix byte sfx and n output bytes. -/
def keccak (r : Nat) (sfx : Byte) (n : Nat) (msg : Bytes) : Bytes :=
  let pad := padLen r (msg.length + 1)
  let m := if pad = 0 then msg ++ [sfx ||| 0x80] else msg ++ [sfx] ++ zeros (pad - 1) ++ [0x80]
  let a := (chunks r m).foldl (fun a blk =>
    keccakF (List.zipWith (· ^^^ ·) a ((chunks 8 (padTo 200 blk)).map fun c => BitVec.ofNat 64 (leNat c))))
    (List.replicate 25 0)
  (keccakSqueeze r (ceilDiv n r) a).take n

/-! ## Digest selectors -/

/-- Digest length of a selector, Table 4.7; SHAKE takes the length asked for. -/
def digestLen (sel : Nat) (out : Nat) : Nat :=
  match sel with
  | 0x01 => 28 | 0x02 => 32 | 0x03 => 48 | 0x04 => 64 | 0x05 => 28 | 0x06 => 32
  | 0x11 => 28 | 0x12 => 32 | 0x13 => 48 | 0x14 => 64
  | _ => out

/-- Block size of a selector's HMAC. -/
def digestBlock (sel : Nat) : Nat :=
  match sel with
  | 0x01 => 64 | 0x02 => 64 | 0x03 => 128 | 0x04 => 128 | 0x05 => 128 | 0x06 => 128
  | 0x11 => 144 | 0x12 => 136 | 0x13 => 104 | 0x14 => 72 | 0x21 => 168 | _ => 136

/-- Selector assigned by Table 4.7. -/
def digestOk (sel : Nat) : Bool := [0x01, 0x02, 0x03, 0x04, 0x05, 0x06, 0x11, 0x12, 0x13, 0x14, 0x21, 0x22].contains sel

/-- Selector of a SHAKE. -/
def isShake (sel : Nat) : Bool := sel == 0x21 || sel == 0x22

/-- The digest of a message under a selector of Table 4.7. -/
def digest (sel out : Nat) (m : Bytes) : Bytes :=
  match sel with
  | 0x01 => (sha2 32 sha256P sha224H m).take 28
  | 0x02 => sha256 m
  | 0x03 => sha384 m
  | 0x04 => sha512 m
  | 0x05 => sha512t [0x53, 0x48, 0x41, 0x2D, 0x35, 0x31, 0x32, 0x2F, 0x32, 0x32, 0x34] 28 m
  | 0x06 => sha512t [0x53, 0x48, 0x41, 0x2D, 0x35, 0x31, 0x32, 0x2F, 0x32, 0x35, 0x36] 32 m
  | 0x11 => keccak 144 0x06 28 m
  | 0x12 => keccak 136 0x06 32 m
  | 0x13 => keccak 104 0x06 48 m
  | 0x14 => keccak 72 0x06 64 m
  | 0x21 => keccak 168 0x1F out m
  | _ => keccak 136 0x1F out m

/-- Initial value of SHA-512/t. -/
def sha512tH (name : Bytes) : List Nat :=
  (chunks 8 (sha2 64 sha512P (sha512H.map fun h => h ^^^ 0xa5a5a5a5a5a5a5a5) name)).map beNat

/-- Initial value of a SHA-2 selector. -/
def sha2Iv (sel : Nat) : List Nat :=
  match sel with
  | 0x01 => sha224H
  | 0x02 => sha256H
  | 0x03 => sha384H
  | 0x04 => sha512H
  | 0x05 => sha512tH [0x53, 0x48, 0x41, 0x2D, 0x35, 0x31, 0x32, 0x2F, 0x32, 0x32, 0x34]
  | _ => sha512tH [0x53, 0x48, 0x41, 0x2D, 0x35, 0x31, 0x32, 0x2F, 0x32, 0x35, 0x36]

/-- Bytes of a word of a SHA-2 selector; 0 for Keccak. -/
def shaWord (sel : Nat) : Nat := if sel == 0x01 || sel == 0x02 then 4 else if sel ≤ 0x06 then 8 else 0

/-- Running state before the first block: SHA-2 words big-endian, Keccak lanes as FIPS 202 orders them (Table 7.2). -/
def digestIv (sel : Nat) : Bytes :=
  match shaWord sel with
  | 0 => zeros 200
  | w => (sha2Iv sel).flatMap (beBytes w)

/-- A Keccak state after whole blocks of rate r. -/
def keccakAbsorb (r : Nat) (st blocks : Bytes) : List (BitVec 64) :=
  (chunks r blocks).foldl (fun a blk =>
    keccakF (List.zipWith (· ^^^ ·) a ((chunks 8 (padTo 200 blk)).map fun c => BitVec.ofNat 64 (leNat c))))
    ((chunks 8 st).map fun c => BitVec.ofNat 64 (leNat c))

/-- A running state after more whole blocks. -/
def digestUpdate (sel : Nat) (st blocks : Bytes) : Bytes :=
  match shaWord sel with
  | 0 => keccakBytes (keccakAbsorb (digestBlock sel) st blocks)
  | 4 => ((chunks 64 blocks).foldl (sha2Block sha256P) ((chunks 4 st).map fun c => BitVec.ofNat 32 (beNat c))).flatMap fun x => beBytes 4 x.toNat
  | _ => ((chunks 128 blocks).foldl (sha2Block sha512P) ((chunks 8 st).map fun c => BitVec.ofNat 64 (beNat c))).flatMap fun x => beBytes 8 x.toNat

/-- Running state of a digest after whole blocks from its start. -/
def digestState (sel : Nat) (blocks : Bytes) : Bytes := digestUpdate sel (digestIv sel) blocks

/-- The digest from a running state, the bytes of the last partial block and the length of the whole message (R241, FIPS 180-4, FIPS 202). -/
def digestEnd (sel out : Nat) (st carry : Bytes) (total : Nat) : Bytes :=
  match shaWord sel with
  | 0 =>
    let r := digestBlock sel
    let sfx : Byte := if isShake sel then 0x1F else 0x06
    let pad := padLen r (carry.length + 1)
    let m := if pad = 0 then carry ++ [sfx ||| 0x80] else carry ++ [sfx] ++ zeros (pad - 1) ++ [0x80]
    let n := digestLen sel out
    (keccakSqueeze r (ceilDiv n r) (keccakAbsorb r st m)).take n
  | w =>
    let m := carry ++ [0x80] ++ zeros (padLen (16 * w) (carry.length + 1 + 2 * w)) ++ beBytes (2 * w) (8 * total)
    (digestUpdate sel st m).take (digestLen sel out)

/-- HMAC of FIPS 198-1 under a selector. -/
def hmac (sel : Nat) (key msg : Bytes) : Bytes :=
  let b := digestBlock sel
  let k := padTo b (if key.length > b then digest sel 0 key else key)
  digest sel 0 (xorB k (List.replicate b 0x5C) ++ digest sel 0 (xorB k (List.replicate b 0x36) ++ msg))

end Sys2Proof.Machine
end

