-- ==== Sys2Proof/Machine/Operands.lean ====
section
/-! DEFINITION. Operand forms: the fields of an entry in each generation (Tables 4.1 to 4.5a), the buffers of a job (Tables 4.8 and 4.9), its fragments (R134, R136), and its slices (R36, Table 5.3, Table 7.1, R157, R173, R180, R207). -/

namespace Sys2Proof.Machine

/-- Entry size of a generation (Table 3.1). -/
def Gen.size : Gen → Nat
  | .a => 32
  | .b => 64
  | .c => 128

/-! ## Entry fields -/

def eTag (e : Bytes) : Nat := fieldLe e 2 2
def eOp (e : Bytes) : Nat := (byteAt e 4).toNat
def eSub (e : Bytes) : Nat := (byteAt e 5).toNat
def eMac (e : Bytes) : Nat := (byteAt e 6).toNat
def eChain (e : Bytes) : Bool := (byteAt e 7).getLsbD 0
def eHwIv (e : Bytes) : Bool := (byteAt e 7).getLsbD 1
def eSrcInd (e : Bytes) : Bool := (byteAt e 7).getLsbD 2
def eDstInd (e : Bytes) : Bool := (byteAt e 7).getLsbD 3
def eLen (e : Bytes) : Nat := fieldLe e 8 4
def eKey (e : Bytes) : Nat := fieldLe e 12 3
def eSrc (e : Bytes) : Nat := fieldLe e 16 8 % 2 ^ 52
def eDst (e : Bytes) : Nat := fieldLe e 24 8 % 2 ^ 52
def eAux (e : Bytes) : Nat := fieldLe e 32 8 % 2 ^ 52
def eAad (e : Bytes) : Nat := fieldLe e 40 4
def eKey2 (e : Bytes) : Nat := fieldLe e 44 3
def eDun (e : Bytes) : Nat := fieldLe e 48 8
def eDuSize (e : Bytes) : Nat := bits (byteAt e 56).toNat 1 0
def ePiFmt (e : Bytes) : Nat := bits (byteAt e 56).toNat 3 2
def ePiIn (e : Bytes) : Bool := (byteAt e 57).getLsbD 0
def ePiOut (e : Bytes) : Bool := (byteAt e 57).getLsbD 1
def eChkGuard (e : Bytes) : Bool := (byteAt e 57).getLsbD 2
def eChkApp (e : Bytes) : Bool := (byteAt e 57).getLsbD 3
def eChkRef (e : Bytes) : Bool := (byteAt e 57).getLsbD 4
def eAppTag (e : Bytes) : Nat := fieldLe e 58 2
def eRefTag (e : Bytes) : Nat := fieldLe e 60 4
def eIv (e : Bytes) : Bytes := sub e 64 16
def eTagIn (e : Bytes) : Bytes := sub e 80 16
def eTimeParam (e : Bytes) : Bytes := sub e 96 16
def eRefHi (e : Bytes) : Nat := fieldLe e 112 2

/-- Ownership phase of an entry or record (R80). -/
def ePhase (e : Bytes) : Bool := (byteAt e 1).getLsbD 7

/-- app_mask, 0xFFFF where the generation lacks it (Table 4.5a). -/
def eAppMask (g : Gen) (e : Bytes) : Nat := if g == .c then fieldLe e 114 2 else 0xFFFF

/-! ## Operations -/

/-- MAC digest selector of a 0x50 (Table 4.6). -/
def macSel (sub : Nat) : Nat :=
  match bits sub 6 4 with
  | 1 => 0x02
  | 2 => 0x03
  | 3 => 0x04
  | _ => 0

/-- Authenticated decrypt (R149). -/
def isAuthDec (op sub : Nat) : Bool := op == 0x11 || op == 0x15 || op == 0x21 || op == 0x31 || (op == 0x50 && bit sub 7)

/-- Verify without output (R149). -/
def isVerify (op sub : Nat) : Bool := ((op == 0x12 || op == 0x22) && bit sub 0) || op == 0x42

/-- Decrypts or verifies: both members of a rotation pair run (R204). -/
def runsBoth (op sub : Nat) : Bool := isAuthDec op sub || isVerify op sub || op == 0x25

/-- A job of authenticated data and a message: the first two rows of Table 4.8. -/
def hasAad (op : Nat) : Bool := [0x10, 0x11, 0x14, 0x15, 0x20, 0x21, 0x30, 0x31, 0x50].contains op

/-- Length of tag or MAC in bytes (Table 4.6: 0 means the full length). -/
def macLen (e : Bytes) : Nat :=
  if eMac e ≠ 0 then eMac e
  else match eOp e with
    | 0x41 => digestLen (eSub e) 0
    | 0x42 => digestLen (eSub e) 0
    | 0x50 => digestLen (macSel (eSub e)) 0
    | _ => 16

/-- Bytes of a data unit (Table 4.3). -/
def duBytes (e : Bytes) : Nat := if eDuSize e = 1 then 4096 else 512

/-- Bytes of protection information per data unit. -/
def piBytes (e : Bytes) : Nat :=
  match ePiFmt e with
  | 1 => 8
  | 2 => 16
  | _ => 0

/-- Source bytes ahead of the payload: the IV of a Gen A decrypt (Table 4.8). -/
def srcHead (g : Gen) (e : Bytes) : Nat := if g == .a && (eOp e == 0x11 || eOp e == 0x31) then 12 else 0

/-- Source bytes after the payload: the tag of a Gen A decrypt or verify (Table 4.8). -/
def srcTail (g : Gen) (e : Bytes) : Nat :=
  if g == .a && (eOp e == 0x11 || eOp e == 0x31 || eOp e == 0x42) then macLen e else 0

/-- Payload bytes as the source holds them: associated data, message, and protection information (R125, R174). -/
def payloadLen (e : Bytes) : Nat :=
  match eOp e with
  | 0x18 => eLen e / duBytes e * (duBytes e + if ePiIn e then piBytes e else 0)
  | 0x19 => eLen e / duBytes e * (duBytes e + if ePiIn e then piBytes e else 0)
  | 0x24 => 0
  | 0x70 => 0
  | 0x7F => 0
  | op => (if hasAad op then eAad e else 0) + eLen e

/-- Bytes that Table 4.8 sends through the source field. -/
def srcLen (g : Gen) (e : Bytes) : Nat := srcHead g e + payloadLen e + srcTail g e

/-- Bytes that Table 4.8 sends through the destination field; none where they follow from a key record or a message (R135, Table 9.4). -/
def dstLen (g : Gen) (e : Bytes) : Option Nat :=
  match eOp e with
  | 0x10 | 0x14 | 0x20 | 0x30 => some (eLen e + if g == .a then macLen e else 0)
  | 0x11 | 0x15 | 0x21 | 0x31 | 0x50 | 0x1C | 0x1D | 0x1E => some (eLen e)
  | 0x18 | 0x19 => some (eLen e / duBytes e * (duBytes e + if ePiOut e then piBytes e else 0))
  | 0x40 => some (digestLen (eSub e) (eMac e))
  | 0x41 => some (if g == .a then macLen e else 0)
  | 0x24 => none
  | 0x60 => none
  | 0x70 => some 256
  | 0x71 => match eSub e with
    | 0x01 => some (eLen e)
    | 0x03 => some (eLen e + 32)
    | 0x04 | 0x05 => none
    | _ => some 0
  | _ => some 0

/-! ## Slices -/

/-- Serial slice size for an AES key of k bytes (Table 5.3). -/
def serialSize (k : Nat) : Nat := if k = 16 then 320 else if k = 24 then 256 else 192

/-- DILL slice size of a selector, single stream or rotation pair (Table 7.1). -/
def dillSize (sel : Nat) (pair : Bool) : Nat :=
  match sel with
  | 0x01 | 0x02 => if pair then 320 else 768
  | 0x03 | 0x04 | 0x05 | 0x06 => if pair then 384 else 1152
  | 0x11 => if pair then 288 else 1008
  | 0x12 => if pair then 272 else 952
  | 0x13 => if pair then 208 else 728
  | 0x14 => if pair then 144 else 504
  | 0x21 => 1176
  | _ => 952

/-- Slices of total bytes in pieces of size; no bytes make one slice (R36). -/
def sliceCount (total size : Nat) : Nat := max 1 (ceilDiv total size)

/-- One pass that reads its payload. -/
def mkPass (u : LaneKind) (size start total : Nat) (o : Order) (reads writes : Bool) : Pass :=
  { unit := u, size := size, start := start, total := total, first := 0, count := sliceCount total size, order := o,
    reads := reads, writes := writes }

/-- Lane-ticks of a wrap of m semiblocks (R207). -/
def wrapTicks (m : Nat) : Nat := max 1 (ceilDiv (6 * m) 16)

/-- Cipher slice size of a 0x50 (Table 5.3, R180). -/
def comboCipherSize (sub k : Nat) : Nat := if bits sub 3 0 == 1 && !bit sub 7 then serialSize k else 4096

/-- The second pass of a decrypt under a rotation pair: the message again, in parallel slices (R173). -/
def pairPass2 (size a l : Nat) : List Pass :=
  if l = 0 then [] else [mkPass .chive size a l .parallel true true]

/-- The passes of a job under keys of k bytes (of k2 bytes for key2), where pair and pair2 say whether both members of a rotation pair run (R36, R157, R173, R180, R207). -/
def passesOf (e : Bytes) (k k2 : Nat) (pair pair2 : Bool) : List Pass :=
  let a := eAad e
  let l := eLen e
  let p := a + l
  let sub := eSub e
  match eOp e with
  | 0x10 => [mkPass .chive 4096 0 p .fold true true]
  | 0x11 => if pair then mkPass .chive 2048 0 p .fold true false :: pairPass2 4096 a l else [mkPass .chive 4096 0 p .fold true true]
  | 0x12 => [mkPass .chive (if pair then 2048 else 4096) 0 l .fold true false]
  | 0x14 => [mkPass .chive (serialSize k) 0 p .serial true true]
  | 0x15 => if pair then mkPass .chive (serialSize k) 0 p .serial true false :: pairPass2 4096 a l
      else [mkPass .chive (serialSize k) 0 p .serial true true]
  | 0x18 | 0x19 =>
    let u := duBytes e + if ePiIn e then piBytes e else 0
    [mkPass .chive (if eDuSize e = 1 then u else 8 * u) 0 (payloadLen e) .parallel true true]
  | 0x1C => [mkPass .chive (serialSize k) 0 l .serial true true]
  | 0x1D | 0x1E => [mkPass .chive 4096 0 l .parallel true true]
  | 0x20 => mkPass .chive (serialSize (k / 2)) 0 p .serial true false :: pairPass2 4096 a l
  | 0x21 => if pair then mkPass .chive (serialSize (k / 2)) 0 p .serial true false :: pairPass2 4096 a l
      else [mkPass .chive (serialSize (k / 2)) 0 p .serial true true]
  | 0x22 => [mkPass .chive (serialSize k) 0 l .serial true false]
  | 0x24 =>
    let m := ceilDiv k2 8
    [{ unit := .chive, size := 0, start := 0, total := 0, first := 0, count := wrapTicks (if m ≤ 1 then 0 else m),
       order := .serial, reads := false, writes := true }]
  | 0x25 =>
    let m := l / 8 - 1
    [{ unit := .chive, size := l, start := 0, total := l, first := 0, count := wrapTicks (if m ≤ 1 then 0 else m),
       order := .serial, reads := true, writes := false }]
  | 0x30 => [mkPass .chive 2048 0 p .fold true true]
  | 0x31 => if pair then mkPass .chive 1024 0 p .fold true false :: pairPass2 2048 a l else [mkPass .chive 2048 0 p .fold true true]
  | 0x40 => [mkPass .dill (dillSize sub false) 0 l .serial true true]
  | 0x41 => [mkPass .dill (dillSize sub false) 0 l .serial true true]
  | 0x42 => [mkPass .dill (dillSize sub pair) 0 l .serial true false]
  | 0x50 =>
    let s := min (comboCipherSize sub k) (dillSize (macSel sub) pair2)
    let n := sliceCount p s
    let ch : Pass :=
      { unit := .chive, size := s, start := 0, total := p, first := (if l = 0 then n else a / s), count := n,
        order := (if bits sub 3 0 == 1 && !bit sub 7 then .serial else .parallel), reads := (!bit sub 7), writes := true }
    let di : Pass :=
      { unit := .dill, size := s, start := 0, total := p, first := 0, count := n, order := .serial,
        reads := true, writes := false }
    if bit sub 7 then [di, ch] else [ch, di]
  | _ => []

/-- Slices of a list of passes. -/
def passSlices (ps : List Pass) : Nat := (ps.map (·.count)).sum

/-- Slices of a list of passes as R159 and R225 count them: a slice of a 0x50 that both engines run is one (notes/assumptions/107). -/
def countSlices (ps : List Pass) : Nat :=
  max (passSlices (ps.filter (·.unit == .chive))) (passSlices (ps.filter (·.unit == .dill)))

/-- The pass of a slice index, the index within it, and the pass's first index. -/
def passAt : List Pass → Nat → Nat → Option (Pass × Nat × Nat)
  | [], _, _ => none
  | p :: ps, base, i => if i < p.count then some (p, i, base) else passAt ps (base + p.count) (i - p.count)

/-- Payload bytes [from, to) of slice k of a pass (R36). -/
def Pass.range (p : Pass) (k : Nat) : Nat × Nat :=
  (p.start + min (k * p.size) p.total, p.start + min ((k + 1) * p.size) p.total)

/-- Message bytes [from, to) that payload bytes [x, y) carry, after a bytes of associated data. -/
def msgRange (a : Nat) (r : Nat × Nat) : Nat × Nat := (r.1 - a, r.2 - a)

/-! ## Buffers and fragments -/

/-- A job's source fragments (R134). -/
def Job.srcFrags (j : Job) : List (Nat × Nat) :=
  match j.srcTable with
  | some t => t
  | none => [(eSrc j.entry, srcLen j.gen j.entry)]

/-- Length of a job's destination as written so far known: the table's sum, or Table 4.8's length. -/
def Job.dstFrags (j : Job) (len : Nat) : List (Nat × Nat) :=
  match j.dstTable with
  | some t => t
  | none => [(eDst j.entry, len)]

/-- The pieces of a fragment list that hold bytes [off, off + len): each with its offset in the range (R136). -/
def gather : List (Nat × Nat) → Nat → Nat → Nat → List (Nat × Nat × Nat)
  | [], _, _, _ => []
  | (a, n) :: fs, off, len, at0 =>
    if len = 0 then []
    else if off ≥ n then gather fs (off - n) len at0
    else
      let m := min len (n - off)
      (a + off, m, at0) :: gather fs 0 (len - m) (at0 + m)

/-- Bytes of the source that have arrived, zero where none has. -/
def Job.image (j : Job) : Bytes :=
  j.data.foldl (fun img (d : Nat × Bytes) => putAt img d.1 d.2) (Sys2Proof.Machine.zeros (srcLen j.gen j.entry))

/-- The payload of a job, as far as it has arrived. -/
def Job.payload (j : Job) : Bytes := sub j.image (srcHead j.gen j.entry) (payloadLen j.entry)

/-- Associated data. -/
def Job.aad (j : Job) : Bytes := j.payload.take (eAad j.entry)

/-- Message: plaintext, ciphertext or digest input. -/
def Job.msg (j : Job) : Bytes := j.payload.drop (if hasAad (eOp j.entry) then eAad j.entry else 0)

/-- The 16-byte IV field: inline, in the aux block, in the Gen A source prefix, or MINT's (Table 4.9). -/
def Job.ivField (j : Job) : Bytes :=
  match j.iv with
  | some v => padTo 16 v
  | none => match j.gen with
    | .a => padTo 16 (j.image.take 12)
    | .b => sub (j.aux.getD []) 0 16
    | .c => eIv j.entry

/-- The input tag of a decrypt or verify (Table 4.9). -/
def Job.tagIn (j : Job) : Bytes :=
  let n := macLen j.entry
  match j.gen with
  | .a => sub j.image (srcHead j.gen j.entry + payloadLen j.entry) n
  | .b => sub (j.aux.getD []) 16 n
  | .c => if n ≤ 16 then (eTagIn j.entry).take n else sub (j.aux.getD []) 16 n

/-- Aligned beats that bytes [off, off + len) of a fragment list touch. -/
def fragBeats (fs : List (Nat × Nat)) (off len : Nat) : Nat := ((gather fs off len 0).map fun (a, n, _) => beatsOf a n).sum

/-- Length of the associated data that a tag covers; a GMAC's payload is associated data. -/
def authLen (e : Bytes) : Nat := if eOp e == 0x12 then eLen e else if hasAad (eOp e) then eAad e else 0

/-- Length of the message that a tag covers. -/
def textLen (e : Bytes) : Nat := if eOp e == 0x12 then 0 else eLen e

/-- The cipher of a 0x50 is AES-CBC. -/
def comboCbc (sub : Nat) : Bool := bits sub 3 0 == 1

/-- The operation chains AES-CBC over its message. -/
def isCbc (op sub : Nat) : Bool := op == 0x1C || op == 0x1D || (op == 0x50 && comboCbc sub)

/-- The unwraps of posted loads run as jobs of domain 0 with this number in place of a queue's; no ring has it (R354). -/
def loadQueue : Nat := 1024

end Sys2Proof.Machine
end

