-- ==== Sys2Proof/Machine/Validate.lean ====
section
/-! DEFINITION. The structural checks of an entry, steps 3 to 6 of Table 4.12 (R11, R116 to R135, R142, R159, R163), as functions of the entry, its generation and its queue. -/

namespace Sys2Proof.Machine

/-- Step 3: reserved fields of the header and of the generation's layout (Tables 4.1 to 4.4). -/
def reservedOk (g : Gen) (e : Bytes) : Bool :=
  let head := bits (byteAt e 1).toNat 6 0 == 0 && bits (byteAt e 7).toNat 7 4 == 0 && byteAt e 15 == 0
    && fieldLe e 16 8 < 2 ^ 52 && fieldLe e 24 8 < 2 ^ 52
  let b := fieldLe e 32 8 < 2 ^ 52 && byteAt e 47 == 0 && bits (byteAt e 56).toNat 7 4 == 0
    && bits (byteAt e 57).toNat 7 5 == 0
  match g with
  | .a => head
  | .b => head && b
  | .c => head && b && allZero (sub e 116 12)

/-- Operation codes of Table 4.6 that a generation offers. -/
def genOffers (g : Gen) (op : Nat) : Bool :=
  match g with
  | .a => [0x10, 0x11, 0x30, 0x31, 0x40, 0x41, 0x42, 0x7F].contains op
  | .b => [0x10, 0x11, 0x12, 0x14, 0x15, 0x18, 0x19, 0x1C, 0x1D, 0x1E, 0x20, 0x21, 0x22, 0x24, 0x25, 0x30, 0x31, 0x40,
      0x41, 0x42, 0x50, 0x60, 0x70, 0x7F].contains op
  | .c => [0x10, 0x11, 0x12, 0x14, 0x15, 0x18, 0x19, 0x1C, 0x1D, 0x1E, 0x20, 0x21, 0x22, 0x24, 0x25, 0x30, 0x31, 0x40,
      0x41, 0x42, 0x50, 0x60, 0x70, 0x71, 0x7F].contains op

/-- Step 4: the opcode is assigned, and the generation and the queue accept it (R122, R123). -/
def opcodeOk (q : Nat) (g : Gen) (op : Nat) : Bool :=
  genOffers g op && (if q = 1 then op == 0x70 || op == 0x71 || op == 0x7F else op != 0x71)

/-- Tag lengths of GCM (Table 4.6). -/
def gcmMacOk (m : Nat) : Bool := m == 0 || m == 4 || m == 8 || (12 ≤ m && m ≤ 16)

/-- subop and mac_len of Table 4.6; the sub-operations of 0x60 and 0x71 are checked by their own chapters. -/
def subMacOk (op sub m : Nat) : Bool :=
  match op with
  | 0x10 | 0x11 => sub == 0 && gcmMacOk m
  | 0x12 => sub ≤ 1 && gcmMacOk m
  | 0x14 | 0x15 => 7 ≤ sub && sub ≤ 13 && (m == 0 || (4 ≤ m && m ≤ 16 && m % 2 == 0))
  | 0x18 | 0x19 | 0x1C | 0x1D | 0x1E => sub == 0 && m == 0
  | 0x20 | 0x21 => sub ≤ 16 && (m == 0 || m == 16)
  | 0x22 => sub ≤ 1 && (m == 0 || (4 ≤ m && m ≤ 16))
  | 0x24 | 0x25 => (sub == 1 || sub == 2) && m == 0
  | 0x30 | 0x31 => sub == 0 && (m == 0 || m == 16)
  | 0x40 => digestOk sub && (if isShake sub then 1 ≤ m else m == 0)
  | 0x41 | 0x42 => digestOk sub && !isShake sub && (m == 0 || (4 ≤ m && m ≤ digestLen sub 0))
  | 0x50 => (bits sub 3 0 == 1 || bits sub 3 0 == 2) && 1 ≤ bits sub 6 4 && bits sub 6 4 ≤ 3
      && (m == 0 || (4 ≤ m && m ≤ digestLen (macSel sub) 0))
  | 0x60 => m == 0
  | 0x70 => sub == 0 && m == 0
  | 0x7F => sub ≤ 1 && m == 0
  | _ => true

/-- hw_iv, where Table 4.6 allows and requires it (R127). -/
def hwIvOk (g : Gen) (op sub : Nat) (hw : Bool) : Bool :=
  if hw then op == 0x10 || (op == 0x12 && !bit sub 0) || (op == 0x14 && sub == 12) || op == 0x30
  else !(g == .a && (op == 0x10 || op == 0x30))

/-- The operation takes a driver's IV, nonce or initial counter block (Table 4.9). -/
def needsIv (op sub : Nat) : Bool :=
  [0x10, 0x11, 0x12, 0x14, 0x15, 0x1C, 0x1D, 0x1E, 0x30, 0x31, 0x50].contains op || ((op == 0x20 || op == 0x21) && sub != 0)

/-- The operation takes an input tag or makes an output tag (R126). -/
def hasTag (op : Nat) : Bool := [0x10, 0x11, 0x12, 0x14, 0x15, 0x20, 0x21, 0x22, 0x30, 0x31, 0x41, 0x42, 0x50].contains op

/-- Table 4.9 sends an item of the job to the aux block (R127), or the job has a parameter block or a requester nonce there (R120). A block that a non-zero aux field names and of which the job needs no byte is not read, so that its read cannot fail (DESIGN CHOICE, notes/assumptions/123). -/
def needsAux (g : Gen) (e : Bytes) : Bool :=
  let op := eOp e
  match g with
  | .a => false
  | .b => (needsIv op (eSub e) && !eHwIv e) || hasTag op || op == 0x60 || op == 0x70
  | .c => (hasTag op && macLen e > 16) || op == 0x60

/-- Bytes go through the destination field (R116): for 0x24 and a 0x71 of subop 0x05 they always do, for 0x60 its chapter says, and for subop 0x04 the message tells, once it is opened (notes/assumptions/106). -/
def sendsDst (g : Gen) (e : Bytes) : Bool :=
  match dstLen g e with
  | some n => n != 0
  | none => eOp e == 0x24 || (eOp e == 0x71 && eSub e == 0x05)

/-- Lengths and time_param of a 0x71 (R298, Table 9.4). -/
def timeFormOk (e : Bytes) : Bool :=
  let tp := eTimeParam e
  let l := eLen e
  let channel := bits (byteAt tp 0).toNat 7 4 == 0
  eMac e == 0 && match eSub e with
  | 0x01 => 44 ≤ l && l ≤ 256 && channel && byteAt tp 1 ≤ 2 && allZero (sub tp 2 2) && (byteAt tp 1 == 2 || allZero (sub tp 4 12))
  | 0x02 => 44 ≤ l && l ≤ 256 && allZero (sub tp 0 4)
  | 0x03 => 48 ≤ l && l ≤ 512 && channel && allZero (sub tp 1 3) && allZero (sub tp 8 8)
  | 0x04 => 48 ≤ l && l ≤ 512
  | 0x05 => 96 ≤ l && l ≤ 512 && channel && allZero (sub tp 1 3)
  | 0x10 => l == 32 && allZero tp
  | _ => false

/-- Addresses and their alignment (R116, R120, R125, R134). -/
def addressesOk (g : Gen) (e : Bytes) : Bool :=
  let op := eOp e
  let srcUsed := srcLen g e != 0
  let dstUsed := sendsDst g e
  (!srcUsed || eSrc e != 0) && (!dstUsed || eDst e != 0)
  && (!eSrcInd e || eSrc e % 16 == 0) && (!eDstInd e || eDst e % 16 == 0)
  && (!(op == 0x24 || op == 0x70 || op == 0x7F) || eSrc e == 0)
  && (!(op == 0x12 || op == 0x22 || op == 0x25 || op == 0x42 || op == 0x7F || (op == 0x41 && g != .a)
      || (op == 0x71 && (eSub e == 0x02 || eSub e == 0x10))) || eDst e == 0)
  && eAux e % 16 == 0 && (!needsAux g e || eAux e != 0)

/-- The storage descriptor (R132). -/
def storageOk (g : Gen) (e : Bytes) : Bool :=
  if eOp e == 0x18 || eOp e == 0x19 then
    let chk := eChkGuard e || eChkApp e || eChkRef e
    eDuSize e ≤ 1 && ePiFmt e ≤ 2
    && (ePiFmt e != 0 || !(ePiIn e || ePiOut e || chk || eAppTag e != 0 || eRefTag e != 0 || eRefHi e != 0))
    && (ePiFmt e == 0 || ePiIn e || ePiOut e)
    && (!chk || ePiIn e)
    && (ePiFmt e == 2 || eRefHi e == 0)
  else allZero (sub e 48 16) && (g != .c || eRefHi e == 0)

/-- Lengths (R125, R128, R180). -/
def lengthsOk (e : Bytes) : Bool :=
  let op := eOp e
  let l := eLen e
  (hasAad op || eAad e == 0)
  && eAad e + l ≤ 0xFFFFFFFF
  && (!(op == 0x14 || op == 0x15) || l < 2 ^ (8 * (15 - eSub e)))
  && (!(op == 0x18 || op == 0x19) || (l != 0 && l % duBytes e == 0))
  && (!(op == 0x1C || op == 0x1D) || l % 16 == 0)
  && (!(op == 0x50 && bits (eSub e) 3 0 == 1) || l % 16 == 0)
  && (!(op == 0x24 || op == 0x70 || op == 0x7F) || l == 0)

/-- Slices at the largest slice size that any accepted key gives (R159). -/
def sliceLimitOk (e : Bytes) : Bool := countSlices (passesOf e 16 64 false false) ≤ 2 ^ 21
  || countSlices (passesOf e 32 64 false false) ≤ 2 ^ 21

/-- Inline fields of a Gen C entry: iv zero under hw_iv (R127), the GCM IV of 12 bytes (R163), time_param zero but for 0x70 and 0x71 (Table 4.4). -/
def inlineOk (g : Gen) (e : Bytes) : Bool :=
  g != .c ||
  ((!eHwIv e || allZero (eIv e))
   && (!(eOp e == 0x10 || eOp e == 0x11 || eOp e == 0x12) || allZero (sub (eIv e) 12 4))
   && (eOp e == 0x70 || eOp e == 0x71 || allZero (eTimeParam e)))

/-- Step 5 but for the contents of a block, the chain length, and the own rules of 0x60 and 0x71. -/
def fieldsOk (g : Gen) (e : Bytes) : Bool :=
  subMacOk (eOp e) (eSub e) (eMac e) && hwIvOk g (eOp e) (eSub e) (eHwIv e) && addressesOk g e && storageOk g e
  && lengthsOk e && sliceLimitOk e && inlineOk g e && (eOp e != 0x71 || timeFormOk e)

/-- Steps 3 to 5 of an entry of a data queue or Q1 of domain d, link being its place in its chain (0 outside one): the failing status. The UNSUPPORTED of R271 for a curve load off domain 0 is judged with step 4: the spec names no step (DESIGN CHOICE, notes/assumptions/121). -/
def structCheck (q d : Nat) (g : Gen) (e : Bytes) (link : Nat) : Option Status :=
  if !reservedOk g e then some .malformed
  else if !opcodeOk q g (eOp e) || (eOp e == 0x60 && eSub e == 0x40 && d != 0) then some .unsupported
  else if !fieldsOk g e then some .malformed
  else if link ≥ 256 && eChain e then some .malformed
  else none

/-- Contents of an aux block: the GCM IV has 12 bytes (R163). -/
def auxOk (g : Gen) (e : Bytes) (aux : Bytes) : Bool :=
  !(g == .b && !eHwIv e && (eOp e == 0x10 || eOp e == 0x11 || eOp e == 0x12)) || allZero (sub aux 12 4)

/-! ## Fragment tables -/

/-- One fragment record: address, length, last, and whether it is well formed (Table 4.10, R135). -/
def fragRecord (b : Bytes) : Nat × Nat × Bool × Bool :=
  let a := fieldLe b 0 8
  let n := fieldLe b 8 4
  let f := fieldLe b 12 4
  (a, n, bit f 0, decide (a < 2 ^ 52) && f ≤ 1 && n != 0 && a != 0)

/-- What a table read so far says. -/
inductive TableState where
  | more
  | bad
  | whole (frags : List (Nat × Nat))
  deriving DecidableEq, Repr

/-- Parse the records read so far, at most 4,096 of them. -/
def parseTable : List Bytes → List (Nat × Nat) → TableState
  | [], acc => if acc.length ≥ 4096 then .bad else .more
  | r :: rs, acc =>
    if r.length < 16 then .more
    else
      let (a, n, last, ok) := fragRecord r
      if !ok || acc.length ≥ 4096 then .bad
      else if last then .whole (acc ++ [(a, n)])
      else parseTable rs (acc ++ [(a, n)])

/-- Sum of fragment lengths. -/
def fragSum (fs : List (Nat × Nat)) : Nat := (fs.map (·.2)).sum

end Sys2Proof.Machine
end

