-- ==== Sys2Proof/Machine/Keys.lean ====
section
/-! DEFINITION. BAY and the key bus: key records (Table 6.1, R187), policy (R188, R189), namespaces (R190, R191), slots (R199 to R203), use blocks (R196 to R198), key-bus requests (R192, R193, R458 to R462). -/

namespace Sys2Proof.Machine

/-! ## Key records -/

/-- The record of Table 6.1 in 128 bytes. -/
def parseRec (b : Bytes) : KeyRec :=
  { typ := bits (byteAt b 0).toNat 3 0, alg := (byteAt b 1).toNat, policy := BitVec.ofNat 16 (fieldLe b 2 2),
    klen := (byteAt b 4).toNat, hdigest := (byteAt b 5).toNat, useLimit := fieldLe b 8 8, notBefore := fieldLe b 16 8,
    notAfter := fieldLe b 24 8, newer := fieldLe b 32 3, older := fieldLe b 36 3, material := sub b 64 64,
    clean := bits (byteAt b 0).toNat 7 4 == 0 && allZero (sub b 6 2) && byteAt b 35 == 0 && byteAt b 39 == 0
      && allZero (sub b 40 24) && fieldLe b 2 2 < 2 ^ 10 }

/-- Key length of an algorithm class in bytes; HMAC takes 1 to 64 (Table 6.2). -/
def klenOk (alg klen : Nat) : Bool :=
  match alg with
  | 0x01 => klen == 16
  | 0x02 => klen == 24
  | 0x03 => klen == 32
  | 0x04 => klen == 32
  | 0x05 => klen == 64
  | 0x06 => klen == 32
  | 0x07 => klen == 48
  | 0x08 => klen == 64
  | 0x10 => klen == 32
  | 0x20 => 1 ≤ klen && klen ≤ 64
  | _ => false

def isAes (alg : Nat) : Bool := alg == 1 || alg == 2 || alg == 3
def isXts (alg : Nat) : Bool := alg == 4 || alg == 5
def isSiv (alg : Nat) : Bool := alg == 6 || alg == 7 || alg == 8

/-- An XTS key with equal halves (R155, R187). -/
def xtsWeak (alg : Nat) (m : Bytes) : Bool := isXts alg && m.take (m.length / 2) == m.drop (m.length / 2)

/-- BAY accepts a record into a slot (R187); type 0x3 records never occupy one. -/
def recordOk (r : KeyRec) : Bool :=
  r.clean && (r.typ == 0 || r.typ == 1 || r.typ == 2) && klenOk r.alg r.klen
  && r.notBefore < r.notAfter && !(r.typ == 0 && xtsWeak r.alg (r.material.take r.klen))

/-! ## Namespaces and policy -/

/-- A handle lies in a domain's window (R190, R191). -/
def inWindow (x : Domain) (h : Nat) : Bool := x.nsBase ≤ h && h < x.nsBase + 2 ^ x.nsLog2

/-- The key field is used (Table 6.4); 0x60 and 0x71 follow their own chapters. -/
def usesKey (op : Nat) : Bool := !(op == 0x40 || op == 0x70 || op == 0x7F || op == 0x60 || op == 0x71)

/-- The key2 field is used (Table 6.4). -/
def usesKey2 (op : Nat) : Bool := op == 0x24 || op == 0x25 || op == 0x50

/-- Class that Table 6.4 asks of the key field; of a pair record R189 asks the alg alone, and the hdigest of its members (notes/assumptions/49). -/
def keyClassOk (op sub : Nat) (r : KeyRec) : Bool :=
  match op with
  | 0x18 | 0x19 => isXts r.alg
  | 0x20 | 0x21 => isSiv r.alg
  | 0x30 | 0x31 => r.alg == 0x10
  | 0x41 | 0x42 => r.alg == 0x20 && (r.typ == 1 || r.hdigest == sub)
  | _ => isAes r.alg

/-- Policy bit that Table 6.4 asks of the key field. -/
def keyBit (op sub : Nat) : Nat :=
  match op with
  | 0x11 | 0x15 | 0x19 | 0x1D | 0x21 | 0x31 => 1
  | 0x12 | 0x22 => if bit sub 0 then 3 else 2
  | 0x24 => 4
  | 0x25 => 5
  | 0x41 => 2
  | 0x42 => 3
  | 0x50 => if bit sub 7 then 1 else 0
  | _ => 0

/-- Class and bits that Table 6.4 asks of key2. -/
def key2Ok (op sub : Nat) (r : KeyRec) : Bool :=
  match op with
  | 0x24 => (r.typ == 0 || r.typ == 2) && r.policy.getLsbD 6
  | 0x25 => r.typ == 2
  | _ => r.alg == 0x20 && (r.typ == 1 || r.hdigest == macSel sub) && r.policy.getLsbD (if bit sub 7 then 3 else 2)

/-- The bits of R189 that bind every key of a job on a queue other than Q1: time, and hw_iv_only. -/
def restrictOk (op sub : Nat) (hw : Bool) (r : KeyRec) : Bool :=
  !r.policy.getLsbD 9
  && !(r.policy.getLsbD 7 && !hw && (op == 0x10 || (op == 0x12 && !bit sub 0) || op == 0x14 || op == 0x30))

/-- A rotation pair may stand in the key field (R173, R189, R204). -/
def pairAllowed (op : Nat) : Bool := !(op == 0x19 || op == 0x1D || op == 0x50)

/-! ## Slots -/

def State.slot? (s : State) (d h : Nat) : Option KeySlot := s.bay.slots.find? fun x => x.domain == d && x.handle == h

def State.setSlot (s : State) (d h : Nat) (f : KeySlot → KeySlot) : State :=
  { s with bay := { s.bay with slots := s.bay.slots.map fun x => if x.domain == d && x.handle == h then f x else x } }

/-- s without a slot: it is zeroed with its use block and counter state (R202). -/
def State.dropSlot (s : State) (d h : Nat) : State :=
  { s with bay := { s.bay with slots := s.bay.slots.filter fun x => !(x.domain == d && x.handle == h) } }

/-- A job's completion has been issued. -/
def Job.issued (j : Job) : Bool := j.phase == .completing || j.phase == .confirmed

/-- A job has passed check 2 of R194. A Q1 job has its keys checked while it waits for its command. -/
def Job.passedKeys (j : Job) : Bool := if j.queue == 1 && j.phase == .command then j.found else j.phase != .keys

/-- A job holds the key of (d, h): it has passed check 2 of R194, and its completion is not issued (R199). -/
def Job.holds (j : Job) (d h : Nat) : Bool := j.domain == d && !j.issued && j.passedKeys && j.keys.any (·.handle == h)

/-- A job holds the key of (d, h) (R199). -/
def State.namedByJob (s : State) (d h : Nat) : Bool := s.fennel.jobs.any (·.holds d h)

/-- A slot is held: loading, named by a job, or the target or KEK of a posted load (R199, R354). -/
def State.slotHeld (s : State) (x : KeySlot) : Bool :=
  x.loading || s.namedByJob x.domain x.handle
  || s.admin.loads.any fun l => (l.domain == x.domain && l.handle == x.handle)
      || (l.kind != .handle && x.domain == 0 && l.kek == x.handle)

/-- Slots that a domain holds. -/
def State.slotsOf (s : State) (d : Nat) : Nat := (s.bay.slots.filter (·.domain == d)).length

/-- Free slots of the 65,536 (R199). -/
def State.freeSlots (s : State) : Nat := 65536 - s.bay.slots.length

/-- A domain holds more slots than its reservation. -/
def State.overReserved (s : State) (d : Nat) : Bool := (s.domain? d).all fun x => s.slotsOf d > x.slotRes

/-- Unfilled reservations of all domains (Table 6.6). -/
def State.unfilled (s : State) : Nat := (s.domains.map fun x => x.slotRes - s.slotsOf x.num).sum

/-- Table 6.6: whether domain d may take a free slot, and the slots it may take. -/
def State.candidates (s : State) (d : Nat) : Bool × List KeySlot :=
  let n := s.slotsOf d
  let r := ((s.domain? d).map (·.slotRes)).getD 0
  let beyond := s.bay.slots.filter fun x => !s.isSealed x.domain && s.overReserved x.domain
  if s.isSealed d then
    if n < r then (s.freeSlots > 0, if s.freeSlots > 0 then [] else beyond)
    else (false, s.bay.slots.filter (·.domain == d))
  else if n < r then (s.freeSlots > 0, beyond)
  else (s.freeSlots > s.unfilled, beyond)

/-- What a miss gives (R200). -/
inductive SlotGrant where
  | free
  | evict (victim : KeySlot)
  | wait
  | full
  deriving DecidableEq, Repr

/-- The slot that R200 gives on a miss by domain d. -/
def State.grantSlot (s : State) (d : Nat) : SlotGrant :=
  let (free, cs) := s.candidates d
  if free then .free
  else
    let open' := cs.filter fun x => !x.pinned
    match (open'.filter fun x => !s.slotHeld x).foldl (fun (b : Option KeySlot) x =>
        match b with
        | none => some x
        | some y => if x.lru < y.lru then some x else some y) none with
    | some v => .evict v
    | none => if open'.isEmpty then .full else .wait

/-! ## Key bus -/

/-- A key-bus lane carries new requests (R461). -/
def State.laneUp (s : State) (l : Nat) : Bool := (s.sorrel.kb[l]?).any fun x => x.health == .healthy

/-- The key bus is closed: RETURNED, SCRAPPED, or an open debug class (R397, R421). -/
def State.kbClosed (s : State) : Bool :=
  s.lovage.life == .returned || s.lovage.life == .scrapped || s.lovage.dbgClosed

/-- Some key-bus lane is in service (R462) and the key bus is open (R397). -/
def State.kbUp (s : State) : Bool := (s.laneUp 0 || s.laneUp 1) && !s.kbClosed

/-- Outstanding requests on a lane. -/
def State.laneLoad (s : State) (l : Nat) : Nat := (s.keyBus.reqs.filter (·.lane == l)).length

/-- The lane that R458 chooses for a request; a reissue prefers the lane other than avoid (R460). -/
def State.pickLane (s : State) (avoid : Option Nat) : Nat :=
  match avoid with
  | some a => if s.laneUp (1 - a) then 1 - a else a
  | none => if s.laneUp 0 && (!s.laneUp 1 || s.laneLoad 0 ≤ s.laneLoad 1) then 0 else 1

/-- Rank of a request in R193: sealed key requests by domain, then all others. -/
def State.kbRank (s : State) (r : KbReq) : Nat :=
  match r.kind with
  | .keyLoad | .useReserve _ => if s.isSealed r.domain then r.domain else 512
  | _ => 512

/-- Raise a request on the key bus: it waits on its lane for a frame and a req_id. A closed bus takes none (R397). -/
def State.kbRaise (s : State) (kind : KbKind) (d h : Nat) (dest : KbFor) (avoid : Option Nat) (errors : Nat) : State :=
  let r : KbReq := { serial := s.keyBus.serial, reqId := 0, frame := none, lane := s.pickLane avoid, kind := kind, domain := d, handle := h,
                     dest := dest, tick := s.thyme.tick, errors := errors }
  if s.kbClosed then s
  else { s with keyBus := { s.keyBus with reqs := s.keyBus.reqs ++ [r], serial := s.keyBus.serial + 1 } }

/-- The waiting request of a lane that its next frame takes: the highest-ranked one, in order of raising (R193). -/
def State.kbNext (s : State) (l : Nat) : Option KbReq :=
  (s.keyBus.reqs.filter fun r => r.lane == l && r.frame.isNone).foldl (fun (b : Option KbReq) r =>
    match b with
    | some x => if s.kbRank r < s.kbRank x then some r else some x
    | none => some r) none

/-- The req_id of the next request frame: the first from nextId on that no outstanding request carries; none while 65,536 are outstanding (R459, R490). -/
def KeyBus.freeId (k : KeyBus) : Option (BitVec 16) :=
  let used := (k.reqs.filter (·.frame.isSome)).map (·.reqId)
  if used.length < 65536 then
    (List.range (used.length + 1)).findSome? fun i =>
      let id := k.nextId + BitVec.ofNat 16 i
      if used.contains id then none else some id
  else none

/-- The request of a serial number leaves in the next frame, under a req_id, in a tick (R459). -/
def KeyBus.send (k : KeyBus) (n tick : Nat) : KeyBus :=
  match k.freeId with
  | none => k
  | some id =>
    let go (r : KbReq) : KbReq := if r.serial == n then { r with reqId := id, frame := some k.nextFrame, tick := tick } else r
    { k with reqs := k.reqs.map go, nextId := id + 1, nextFrame := k.nextFrame + 1 }

/-- A lane in service starts a request frame (R193, R461). -/
def State.kbFrame (s : State) (l : Nat) : State :=
  match (s.kbNext l).filter fun _ => s.laneUp l with
  | none => s
  | some x => { s with keyBus := s.keyBus.send x.serial s.thyme.tick }

/-- Each lane sends the requests that wait on it, one frame after another (R193, notes/assumptions/109). -/
def State.kbSend (s : State) : State :=
  [0, 1].foldl (fun s l => (List.range s.keyBus.reqs.length).foldl (fun s _ => s.kbFrame l) s) s

/-- The outstanding request of a req_id: one that has been sent (R460). -/
def State.kbReq? (s : State) (id : BitVec 16) : Option KbReq := s.keyBus.reqs.find? fun r => r.reqId == id && r.frame.isSome

/-- s without the request of a serial number. -/
def State.kbEnd (s : State) (n : Nat) : State :=
  { s with keyBus := { s.keyBus with reqs := s.keyBus.reqs.filter fun r => !(r.serial == n) } }

/-! ## Loading slots -/

/-- An empty slot that is loading. -/
def loadingSlot (d h lru : Nat) : KeySlot :=
  { domain := d, handle := h, loading := true, record := none, material := none, useNext := 0, useEnd := 0,
    useAsked := false, exhausted := false, pinned := false, revoked := false, newKey := none, lru := lru, counter := none }

/-- Take a slot for (d, h) and issue KEY_LOAD (R199). -/
def State.startLoad (s : State) (d h : Nat) : State :=
  let s := { s with bay := { s.bay with slots := s.bay.slots ++ [loadingSlot d h s.bay.clock], clock := s.bay.clock + 1 } }
  s.kbRaise .keyLoad d h .slot none 0

/-- Mark a slot used now, for the order of R200. -/
def State.touchSlot (s : State) (d h : Nat) : State :=
  let s := s.setSlot d h fun x => { x with lru := s.bay.clock }
  { s with bay := { s.bay with clock := s.bay.clock + 1 } }

/-- Ask the store for a block of 4,096 uses when 2,048 or fewer are left (R197). -/
def State.askUses (s : State) (d h : Nat) : State :=
  match s.slot? d h with
  | none => s
  | some x =>
    if !x.useAsked && !x.exhausted && !x.loading && x.useEnd - x.useNext ≤ 2048 && s.kbUp then
      (s.setSlot d h fun y => { y with useAsked := true }).kbRaise (.useReserve 4096) d h .slot none 0
    else s

/-- Where check 2 of R194 stands for one handle. -/
inductive SlotCheck where
  | ready (r : KeyRec)
  | wait
  | fail (st : Status)
  deriving DecidableEq, Repr

/-- A posted load of (d, h) is outstanding (R355). -/
def State.loadOutstanding (s : State) (d h : Nat) : Bool := s.admin.loads.any fun l => l.domain == d && l.handle == h

/-- A slot whose revocation is in force: it was marked in an earlier tick (R203). -/
def State.revokedNow (s : State) (x : KeySlot) : Bool := x.revoked && !s.admin.changes.contains (.revoked x.domain x.handle)

/-- Check 2 of R194 for a handle of domain d; needs says the field uses the key's material (R208). A slot without a use fails while the key bus is down (R462). -/
def State.checkSlot (s : State) (d h : Nat) (needs : Bool) : State × SlotCheck :=
  match s.slot? d h with
  | some x =>
    match x.record with
    | none => (s, .wait)
    | some r =>
      if s.revokedNow x then (s, .fail .keyDenied)
      else if x.newKey.isSome then (s, .wait)
      else if !s.kbUp && decide (x.useEnd ≤ x.useNext) && !x.exhausted then (s, .fail .keyDenied)
      else if needs && r.typ == 2 && x.material.isNone then
        if s.loadOutstanding d h then (s, .wait) else (s, .fail .keyDenied)
      else (s.touchSlot d h, .ready r)
  | none =>
    if !s.kbUp then (s, .fail .keyDenied)
    else match s.grantSlot d with
      | .free => (s.startLoad d h, .wait)
      | .evict v => ((s.dropSlot v.domain v.handle).startLoad d h, .wait)
      | .wait => (s, .wait)
      | .full => (s, .fail .keyCacheFull)

/-- Pinned slots of a domain. -/
def State.pinnedOf (s : State) (d : Nat) : Nat := (s.bay.slots.filter fun x => x.domain == d && x.pinned).length

/-- A granted and accepted record enters its slot: pinned when it asks for it and the reservation allows it (R201), with a use block asked for (R197). -/
def State.fillSlot (s : State) (d h : Nat) (r : KeyRec) : State :=
  let want := r.policy.getLsbD 8 || r.typ == 2
  let res := ((s.domain? d).map (·.slotRes)).getD 0
  let pin := want && s.pinnedOf d + 1 ≤ res
  let s := s.setSlot d h fun x =>
    { x with loading := false, record := some r, material := if r.typ == 0 then some (r.material.take r.klen) else none,
             pinned := pin }
  let s := if want && !pin then s.event d 0x22 2 0 (leBytes 3 h) else s
  s.askUses d h

/-- One use is charged on a slot (R196). -/
def State.charge (s : State) (d h : Nat) : State :=
  (s.setSlot d h fun x => { x with useNext := x.useNext + 1 }).askUses d h

/-- The slot has an index to charge. -/
def KeySlot.hasUse (x : KeySlot) : Bool := decide (x.useNext < x.useEnd)

/-- Threshold of the key-use warning (R198); a limit of 0 means 2^64 - 1. -/
def useThreshold (limit : Nat) : Nat := 7 * (if limit = 0 then 2 ^ 64 - 1 else limit) / 8

/-- Zero every revoked slot that no job holds any more (R203). -/
def State.sweepRevoked (s : State) : State :=
  { s with bay := { s.bay with slots := s.bay.slots.filter fun x => !(x.revoked && !s.slotHeld x) } }

end Sys2Proof.Machine
end

