-- ==== Sys2Proof/Machine/Flags.lean ====
section
/-! DEFINITION. Completion flags, status codes, bytes processed and the completion record (R143 to R150, R342), and the timestamp format (Table 9.1). -/

namespace Sys2Proof.Machine

/-- Status codes of Table 4.16. -/
def Status.code : Status → Nat
  | .ok => 0x00
  | .authFail => 0x01
  | .malformed => 0x02
  | .keyDenied => 0x03
  | .keyExhausted => 0x04
  | .keyOutsideWindow => 0x05
  | .fabricError => 0x06
  | .poisoned => 0x07
  | .tamperAbort => 0x08
  | .domainReset => 0x09
  | .flitCheckFail => 0x0A
  | .piGuardFail => 0x0B
  | .resourceBusy => 0x0C
  | .unsupported => 0x0D
  | .pkeParamInvalid => 0x0E
  | .timeUntrusted => 0x0F
  | .aborted => 0x10
  | .keyCacheFull => 0x11
  | .chainBroken => 0x12

/-- Statuses whose output area is untouched: no extension value either (R148). -/
def Status.untouched : Status → Bool
  | .malformed | .keyDenied | .keyExhausted | .keyOutsideWindow | .resourceBusy | .unsupported | .pkeParamInvalid
  | .keyCacheFull | .chainBroken => true
  | _ => false

/-- Statuses that carry no extension value: those, and the all-zero extension of R415. -/
def Status.bare (st : Status) : Bool := st.untouched || st == .tamperAbort

/-- 2^-40 ns in one nanosecond. -/
def nsUnit : Nat := 2 ^ 40

/-- 2^-40 ns in one tick of 160 ns. -/
def tickUnit : Nat := 160 * 2 ^ 40

/-- A time in 2^-40 ns as the timestamp of Table 9.1. -/
def timestamp (t : Nat) : Bytes :=
  let ns := t / nsUnit
  leBytes 2 (t % nsUnit / 2 ^ 24) ++ leBytes 4 (ns % 1000000000) ++ leBytes 6 (ns / 1000000000)

/-- Leading bytes of the destination that acknowledged ranges cover; fuel is the number of ranges. -/
def leading (rs : List (Nat × Nat)) : Nat → Nat → Nat
  | 0, n => n
  | fuel + 1, n => match rs.find? fun r => r.1 ≤ n && n < r.1 + r.2 with
    | some r => leading rs fuel (r.1 + r.2)
    | none => n

/-- Message bytes among the first n bytes of the destination: none of a digest or a tag, and not the protection information of 0x18 and 0x19 (R146, Table 4.8). -/
def messageBytes (e : Bytes) (n : Nat) : Nat :=
  if eOp e == 0x40 || eOp e == 0x41 then 0
  else if (eOp e == 0x18 || eOp e == 0x19) && ePiOut e then
    let u := duBytes e + piBytes e
    n / u * duBytes e + min (n % u) (duBytes e)
  else n

/-- Bytes processed (R146) of a data job with a status. -/
def Job.bytesFor (j : Job) (st : Status) : Nat :=
  let op := eOp j.entry
  let l := eLen j.entry
  if st.bare || j.firstTick.isNone && st != .ok && st != .timeUntrusted && st != .authFail then 0
  else match st with
    | .ok => if op == 0x24 || op == 0x60 then j.bytesDone else if op == 0x70 then 256 else l
    | .timeUntrusted => 256
    | .authFail => if op == 0x60 then j.bytesDone else l
    | .piGuardFail => j.bytesDone
    | _ => if isAuthDec op (eSub j.entry) then 0 else if op == 0x60 then 0 else min l (messageBytes j.entry (leading j.acked (j.acked.length + 1) 0))

/-- The ingress timestamp that a 0x71 verify echoes (R304). -/
def Job.echo (j : Job) : Option Bytes :=
  if eOp j.entry == 0x71 && (eSub j.entry == 0x02 || eSub j.entry == 0x04) then some (sub (eTimeParam j.entry) 4 12) else none

/-- The extension holds a defined value (Table 4.14). -/
def Job.hasValue (j : Job) (st : Status) : Bool :=
  !st.bare && (j.iv.isSome || j.detail != 0 || (st == .ok && j.outTag.length != 0)
    || (j.gen == .c && (j.time.isSome || j.firstTick.isSome || j.echo.any fun b => !allZero b)))

/-- Completion flags of Table 4.14. -/
def Job.flags (j : Job) (st : Status) (deferred : Bool) : Nat :=
  (if ePhase j.entry then 128 else 0) + (if deferred then 64 else 0) + (if j.retried then 32 else 0)
  + (if j.shadowed then 16 else 0) + (if j.pairBoth then 8 else 0) + (if j.pairOld then 4 else 0)
  + (if j.hasValue st then 1 else 0)

/-- The common record of Table 4.13. -/
def Job.common (j : Job) (st : Status) (deferred : Bool) (n tick : Nat) : Bytes :=
  leBytes 1 st.code ++ leBytes 1 (j.flags st deferred) ++ leBytes 2 (eTag j.entry) ++ leBytes 4 n ++ leBytes 8 tick

/-- Completion bytes 48 to 59 of a Gen C record: the time that the job's own chapter gives, or the start of the first slice's tick (Table 4.15). -/
def Job.timeBytes (j : Job) : Bytes :=
  match j.echo, j.time, j.firstTick with
  | some b, _, _ => b
  | none, some t, _ => timestamp t
  | none, none, some n => timestamp (n * tickUnit)
  | none, none, none => Machine.zeros 12

/-- The completion record of a data job, with the output tag and the IV that Table 4.9 places in the entry (R131, R143, R144, Table 4.15). -/
def Job.record (j : Job) (st : Status) (deferred : Bool) (tick : Nat) : Bytes :=
  let head := j.common st deferred (j.bytesFor st) tick
  let on := !st.bare
  let iv := if on then padTo 12 (j.iv.getD []) else Machine.zeros 12
  let detail := leBytes 4 (if on then j.detail.toNat else 0)
  match j.gen with
  | .c => head ++ (if st == .ok && j.outTag.length ≤ 16 then padTo 16 j.outTag else Machine.zeros 16) ++ iv ++ detail
      ++ (if on then j.timeBytes else Machine.zeros 12) ++ Machine.zeros 4
  | _ => head ++ iv ++ detail

/-- The completion record of an admin entry (R342, Table 11.2). Its extension always holds a defined value, the detail field (Table 4.14). -/
def Job.adminRecord (j : Job) (st : Status) (deferred : Bool) (tick : Nat) : Bytes :=
  padTo 64 (leBytes 1 st.code ++ leBytes 1 ((if ePhase j.entry then 128 else 0) + (if deferred then 64 else 0) + 1)
    ++ leBytes 2 (eTag j.entry) ++ leBytes 4 j.bytesDone ++ leBytes 8 tick
    ++ leBytes 8 j.result0.toNat ++ leBytes 8 j.result1.toNat ++ leBytes 2 j.adminDetail.toNat)

end Sys2Proof.Machine
end

