-- ==== Sys2Proof/Machine/Contexts.lean ====
section
/-! DEFINITION. DILL contexts: taking one (R232, R233), saving it (R234, R235, R453), restoring it (R236), and the writeback buffer (R237). -/

namespace Sys2Proof.Machine

/-- Digest selector of a job's DILL slices. -/
def Job.dillSel (j : Job) : Nat := if eOp j.entry == 0x50 then macSel (eSub j.entry) else eSub j.entry

/-- The job has DILL slices. -/
def Job.usesDill (j : Job) : Bool := [0x40, 0x41, 0x42, 0x50].contains (eOp j.entry)

/-- DILL slices of a job. -/
def Job.dillSlices (j : Job) : Nat := ((j.passes.filter fun p => p.unit == .dill).map (·.count)).sum

/-- A key slot's record. -/
def State.recOf (s : State) (d h : Nat) : Option KeyRec := (s.slot? d h).bind (·.record)

/-- A key slot's material. -/
def State.matOf (s : State) (d h : Nat) : Bytes := ((s.slot? d h).bind (·.material)).getD []

/-- Both members of a rotation pair run on DILL (R230). -/
def Job.dillPair (j : Job) : Bool := runsBoth (eOp j.entry) (eSub j.entry) && j.keys.any fun k => k.role == .older && (eOp j.entry == 0x42 || k.second)

/-- Contexts that the job takes at step 8 (R232). -/
def Job.ctxNeed (j : Job) : Nat :=
  if j.usesDill && (j.dillSlices > 1 || eOp j.entry == 0x50) then if j.dillPair then 2 else 1 else 0

/-- A context's place holds on-die state. -/
def CtxPlace.onDieLike : CtxPlace → Bool
  | .onDie => true
  | .saving _ => true
  | .restoring _ _ => true
  | .saved _ _ => false

/-- On-die contexts of a domain. -/
def State.onDieOf (s : State) (d : Nat) : Nat := (s.dill.ctxs.filter fun c => c.domain == d && c.place.onDieLike).length

/-- Contexts guaranteed to a sealed domain (R233). -/
def State.ctxGuarantee (s : State) (d : Nat) : Nat :=
  match s.planOf d with
  | some p => if p.cls == .sealed then 16 * p.dill else 0
  | none => 0

/-- On-die contexts in use outside every guarantee, the register path's included. -/
def State.sharedOnDie (s : State) : Nat :=
  (s.dill.ctxs.filter fun c => c.place.onDieLike && !s.isSealed c.domain).length + if s.dill.rp.ctx then 1 else 0

/-- Contexts outside every guarantee. -/
def State.sharedCtxRoom (s : State) : Nat := 4096 - (s.thyme.compiled.map fun p => s.ctxGuarantee p.1).sum

/-- A free on-die context that a domain may use (R233 case 1). -/
def State.ctxFree (s : State) (d : Nat) : Bool :=
  if s.isSealed d then s.onDieOf d < s.ctxGuarantee d else s.sharedOnDie < s.sharedCtxRoom

/-- A slice index runs on DILL. -/
def Job.onDill (j : Job) (i : Nat) : Bool := (passAt j.passes 0 i).any (·.1.unit == .dill)

/-- A context is active while a DILL slice of its job is staged or issued (R232). -/
def State.ctxActive (s : State) (c : Ctx) : Bool :=
  (s.job? c.queue c.count).any fun j => j.slices.any fun x => j.onDill x.index && (x.state == .staged || x.state == .issued)

/-- A record of a domain's save area that no context and no line in the writeback buffer uses (R234, R237): of several, the lowest (DESIGN CHOICE, notes/assumptions/128). -/
def State.freeRecord (s : State) (d : Nat) : Option Nat :=
  match s.domain? d with
  | none => none
  | some x =>
    let used := s.dill.ctxs.filterMap fun c => if c.domain == d then
        match c.place with
        | .saving r => some r
        | .saved r _ => some r
        | .restoring r _ => some r
        | .onDie => none
      else none
    let used := used ++ ((s.dill.lines.filter (·.domain == d)).map fun l => (l.line - x.saveBase / 128) / 5)
    (List.range (min x.saveCount (used.length + 1))).find? fun r => !used.contains r

/-- The least recently used suspended on-die context of a domain that can be saved (R233): of several last used in one tick, the one that was taken first (DESIGN CHOICE, notes/assumptions/129). -/
def State.ctxVictim (s : State) (d : Nat) : Option Ctx :=
  if (s.freeRecord d).isNone then none
  else (s.dill.ctxs.filter fun c => c.domain == d && c.place == .onDie && !s.ctxActive c).foldl
    (fun (b : Option Ctx) c => match b with
      | none => some c
      | some y => if c.lru < y.lru then some c else some y) none

/-- The shared domain that holds the most on-die contexts, the higher number on a tie (R233 case 3). -/
def State.ctxRichest (s : State) : Option Nat :=
  (s.domains.filter fun x => !s.isSealed x.num && 0 < s.onDieOf x.num).foldl (fun (b : Option Nat) x =>
    match b with
    | none => some x.num
    | some y => if s.onDieOf x.num > s.onDieOf y || (s.onDieOf x.num == s.onDieOf y && x.num > y) then some x.num else some y) none

/-- The HMAC key block XORed with a pad byte. -/
def hmacBlock (sel : Nat) (key : Bytes) (pad : Byte) : Bytes :=
  xorB (padTo (digestBlock sel) key) (List.replicate (digestBlock sel) pad)

/-- The saved context record of Table 7.2, sealed under R235. -/
def ctxRecord (sealKey : Bytes) (c : Ctx) (sel : Nat) (keyed : Bool) (record ctr : Nat) : Bytes :=
  let head := leBytes 4 0x00070001 ++ leBytes 2 c.domain ++ leBytes 2 c.queue ++ leBytes 4 c.count.toNat ++ leBytes 1 sel
    ++ leBytes 1 ((if keyed then 1 else 0) + if c.older then 2 else 0) ++ leBytes 2 (c.absorbed % digestBlock sel)
    ++ leBytes 8 c.absorbed ++ leBytes 4 c.next ++ Machine.zeros 4 ++ leBytes 8 ctr ++ Machine.zeros 8
  let iv := beBytes 4 (record * 512 + c.domain) ++ beBytes 8 ctr
  let ct := gcmCrypt sealKey iv (padTo 200 c.state ++ padTo 200 c.outer ++ padTo 168 c.carry)
  head ++ ct ++ gcmTag sealKey iv head ct ++ Machine.zeros 8

def State.setCtx (s : State) (q : Nat) (c : BitVec 17) (older : Bool) (f : Ctx → Ctx) : State :=
  { s with dill := { s.dill with ctxs := s.dill.ctxs.map fun x => if x.queue == q && x.count == c && x.older == older then f x else x } }

/-- Save address of a record. -/
def State.recordAddr (s : State) (d r : Nat) : Nat := ((s.domain? d).map (·.saveBase)).getD 0 + 640 * r

/-- The record of Table 7.2 of a context of job j, for save record r under save counter value n. -/
def State.ctxImage (s : State) (j : Job) (c : Ctx) (r n : Nat) : Bytes :=
  ctxRecord (s.dill.sealKey.getD []) c j.dillSel (eOp j.entry != 0x40) r n

/-- Save a context: seal its record and claim its five lines (R234, R235, R453); without five free lines the save waits. -/
def State.saveCtx (s : State) (c : Ctx) : State :=
  match s.freeRecord c.domain, s.job? c.queue c.count with
  | some r, some j =>
    if s.dill.lines.length + 5 > 64 then s
    else
      let rec' := s.ctxImage j c r s.dill.saveCtr
      let addr := s.recordAddr c.domain r
      let s := s.setCtx c.queue c.count c.older fun x => { x with place := .saving r, sealed := rec' }
      let lines : List WbLine := (List.range 5).map fun i =>
        { domain := c.domain, line := addr / 128 + i, data := sub rec' (128 * i) 128, checks := flitChecks (sub rec' (128 * i) 128),
          state := .claimed, queue := c.queue, count := c.count, older := c.older }
      let s := { s with dill := { s.dill with lines := s.dill.lines ++ lines, saveCtr := s.dill.saveCtr + 1 } }
      (List.range 5).foldl (fun s i => s.issue .claim .metadata c.domain (addr + 128 * i) 128 []
        fun _ => .line c.queue c.count c.older i) s
  | _, _ => s

/-- What asking for a context gives. -/
inductive CtxGrant where
  | taken
  | wait
  | busy
  deriving DecidableEq, Repr

/-- A place for one more on-die context of a domain (R233): a free one, or a wait for the save that frees one, or none. -/
def State.ctxRoom (s : State) (d : Nat) : State × CtxGrant :=
  if s.ctxFree d then (s, .taken)
  else if s.dill.ctxs.any fun c => match c.place with | .saving _ => c.domain == d || !s.isSealed d | _ => false then (s, .wait)
  else match s.ctxVictim d with
    | some v => (s.saveCtx v, .wait)
    | none =>
      if s.isSealed d then (s, .busy)
      else match s.ctxRichest.bind s.ctxVictim with
        | some v => (s.saveCtx v, .wait)
        | none => (s, .busy)

/-- Take one context for a job (R232, R233). -/
def State.takeCtx (s : State) (j : Job) (older : Bool) : State × CtxGrant :=
  match s.ctxRoom j.domain with
  | (s, .taken) =>
    ({ s with dill := { s.dill with ctxs := s.dill.ctxs ++ [
      { domain := j.domain, queue := j.queue, count := j.count, older := older, place := .onDie, lru := s.thyme.tick,
        state := [], outer := [], carry := [], absorbed := 0, next := 0, sealed := [] }] } },
     .taken)
  | r => r

/-- Release every context of a job (R232, R246). -/
def State.dropCtxs (s : State) (q : Nat) (c : BitVec 17) : State :=
  { s with dill := { s.dill with ctxs := s.dill.ctxs.filter fun x => !(x.queue == q && x.count == c) } }

/-- Every context of a job is on die. -/
def State.ctxsReady (s : State) (q : Nat) (c : BitVec 17) : Bool :=
  s.dill.ctxs.all fun x => !(x.queue == q && x.count == c) || x.place == .onDie

/-- Start the restore of a job's saved contexts when a place is free and their lines are freed; with no place the job waits (R236, R237). -/
def State.startRestore (s : State) (q : Nat) (c : BitVec 17) : State :=
  s.dill.ctxs.foldl (fun s x =>
    if x.queue == q && x.count == c then
      match x.place with
      | .saved r ctr =>
        match s.ctxRoom x.domain with
        | (s, .taken) =>
          let s := s.setCtx q c x.older fun y => { y with place := .restoring r ctr, sealed := [] }
          s.issue .read .metadata x.domain (s.recordAddr x.domain r) 640 [] fun _ => .restore q c x.older
        | (s, _) => s
      | _ => s
    else s) s

end Sys2Proof.Machine
end

