-- ==== Sys2Proof/Machine/Ec.lean ====
section
/-! DEFINITION. Modular arithmetic, the prime curves of Table 8.3 and of loaded entries (R271), ECDSA and ECDH on them (R253, R268 to R270), and the curve-load checks (Table 8.8). The built-in domain parameters are those of FIPS 186-5 (notes/assumptions/2). -/

namespace Sys2Proof.Machine

/-! ## Modular arithmetic -/

/-- b^e mod m by squaring over the bits of e, the lowest first; fuel bounds the bits. -/
def powModF (m : Nat) : Nat → Nat → Nat → Nat → Nat
  | 0, _, _, acc => acc
  | fuel + 1, b, e, acc =>
    if e = 0 then acc
    else powModF m fuel (b * b % m) (e / 2) (if e % 2 = 1 then acc * b % m else acc)

/-- b^e mod m. -/
def powMod (b e m : Nat) : Nat := powModF m (Nat.log2 e + 1) (b % m) e (1 % m)

/-- Inverse modulo a prime. -/
def invMod (a p : Nat) : Nat := powMod a (p - 2) p

/-- a - b modulo m, of reduced operands. -/
def subMod (a b m : Nat) : Nat := (a + m - b % m) % m

/-- Bits of a number. -/
def bitLen (n : Nat) : Nat := if n = 0 then 0 else Nat.log2 n + 1

/-! ## Curves -/

/-- P-256. -/
def curveP256 : Curve :=
  { p := 0xffffffff00000001000000000000000000000000ffffffffffffffffffffffff,
    a := 0xffffffff00000001000000000000000000000000fffffffffffffffffffffffc,
    b := 0x5ac635d8aa3a93e7b3ebbd55769886bc651d06b0cc53b0f63bce3c3e27d2604b,
    gx := 0x6b17d1f2e12c4247f8bce6e563a440f277037d812deb33a0f4a13945d898c296,
    gy := 0x4fe342e2fe1a7f9b8ee7eb4a7c0f9e162bce33576b315ececbb6406837bf51f5,
    n := 0xffffffff00000000ffffffffffffffffbce6faada7179e84f3b9cac2fc632551, pbits := 256 }

/-- P-384. -/
def curveP384 : Curve :=
  { p := 0xfffffffffffffffffffffffffffffffffffffffffffffffffffffffffffffffeffffffff0000000000000000ffffffff,
    a := 0xfffffffffffffffffffffffffffffffffffffffffffffffffffffffffffffffeffffffff0000000000000000fffffffc,
    b := 0xb3312fa7e23ee7e4988e056be3f82d19181d9c6efe8141120314088f5013875ac656398d8a2ed19d2a85c8edd3ec2aef,
    gx := 0xaa87ca22be8b05378eb1c71ef320ad746e1d3b628ba79b9859f741e082542a385502f25dbf55296c3a545e3872760ab7,
    gy := 0x3617de4a96262c6f5d9e98bf9292dc29f8f41dbd289a147ce9da3113b5f0b8c00a60b1ce1d7e819d7a431d7c90ea0e5f,
    n := 0xffffffffffffffffffffffffffffffffffffffffffffffffc7634d81f4372ddf581a0db248b0a77aecec196accc52973, pbits := 384 }

/-- P-521. -/
def curveP521 : Curve :=
  { p := 2 ^ 521 - 1, a := 2 ^ 521 - 4,
    b := 0x0051953eb9618e1c9a1f929a21a0b68540eea2da725b99b315f3b8b489918ef109e156193951ec7e937b1652c0bd3bb1bf073573df883d2c34f1ef451fd46b503f00,
    gx := 0x00c6858e06b70404e9cd9e3ecb662395b4429c648139053fb521f828af606b4d3dbaa14b5e77efe75928fe1dc127a2ffa8de3348b3c1856a429bf97e7e31c2e5bd66,
    gy := 0x011839296a789a3bc0045c8a5fb42c7d1bd998f54449579b446817afbd17273e662c97ee72995ef42640c550b9013fad0761353c7086a272c24088be94769fd16650,
    n := 0x01fffffffffffffffffffffffffffffffffffffffffffffffffffffffffffffffffa51868783bf2f966b7fcc0148f709a5d03bb5c9b8899c47aebb6fb71e91386409,
    pbits := 521 }

/-- A point: none is the point at infinity. -/
abbrev EcPoint := Option (Nat × Nat)

/-- A point in Jacobian coordinates X, Y, Z; Z = 0 is the point at infinity. -/
abbrev JPoint := Nat × Nat × Nat

/-- Doubling in Jacobian coordinates. -/
def jDouble (c : Curve) (q : JPoint) : JPoint :=
  let p := c.p
  let (x, y, z) := q
  if y = 0 || z = 0 then (1, 1, 0)
  else
    let yy := y * y % p
    let s := 4 * x * yy % p
    let zz := z * z % p
    let m := (3 * x * x + c.a * (zz * zz % p)) % p
    let x3 := subMod (m * m) (2 * s) p
    (x3, subMod (m * subMod s x3 p) (8 * (yy * yy % p)) p, 2 * y * z % p)

/-- Addition in Jacobian coordinates. -/
def jAdd (c : Curve) (a b : JPoint) : JPoint :=
  let p := c.p
  let (x1, y1, z1) := a
  let (x2, y2, z2) := b
  if z1 = 0 then b
  else if z2 = 0 then a
  else
    let z11 := z1 * z1 % p
    let z22 := z2 * z2 % p
    let u1 := x1 * z22 % p
    let u2 := x2 * z11 % p
    let s1 := y1 * z22 % p * z2 % p
    let s2 := y2 * z11 % p * z1 % p
    if u1 = u2 then (if s1 = s2 then jDouble c a else (1, 1, 0))
    else
      let h := subMod u2 u1 p
      let r := subMod s2 s1 p
      let hh := h * h % p
      let hhh := h * hh % p
      let v := u1 * hh % p
      let x3 := subMod (r * r) (hhh + 2 * v) p
      (x3, subMod (r * subMod v x3 p) (s1 * hhh) p, z1 * z2 % p * h % p)

/-- k times a point, over the bits of k, the highest first. -/
def jMul (c : Curve) (k : Nat) (q : JPoint) : JPoint :=
  ((List.range (bitLen k)).reverse).foldl (fun acc i =>
    let d := jDouble c acc
    if bit k i then jAdd c d q else d) (1, 1, 0)

/-- Back to affine coordinates. -/
def jAffine (c : Curve) (q : JPoint) : EcPoint :=
  let (x, y, z) := q
  if z = 0 then none
  else
    let i := invMod z c.p
    let ii := i * i % c.p
    some (x * ii % c.p, y * ii % c.p * i % c.p)

/-- A point as Jacobian coordinates. -/
def toJ : EcPoint → JPoint
  | none => (1, 1, 0)
  | some (x, y) => (x, y, 1)

/-- k times a point. -/
def ecMul (c : Curve) (k : Nat) (q : EcPoint) : EcPoint := jAffine c (jMul c k (toJ q))

/-- The base point. -/
def Curve.g (c : Curve) : EcPoint := some (c.gx, c.gy)

/-- The point lies on the curve. -/
def onCurve (c : Curve) (x y : Nat) : Bool := y * y % c.p == (x * x % c.p * x + c.a * x + c.b) % c.p

/-- Field length in bytes. -/
def Curve.f (c : Curve) : Nat := ceilDiv c.pbits 8

/-- The integer that ECDSA takes from a hash value: its leftmost bits (FIPS 186-5). -/
def ecHash (c : Curve) (h : Bytes) : Nat :=
  let nb := bitLen c.n
  let hb := 8 * h.length
  if hb ≤ nb then beNat h else beNat h >>> (hb - nb)

/-- One candidate of an ECDSA signature from a nonce; none when r or s is 0 (R268). -/
def ecdsaTry (c : Curve) (d e k : Nat) : Option (Nat × Nat) :=
  if k = 0 || k ≥ c.n then none
  else match ecMul c k c.g with
  | none => none
  | some (x, _) =>
    let r := x % c.n
    let s := invMod k c.n * ((e + r * d) % c.n) % c.n
    if r = 0 || s = 0 then none else some (r, s)

/-- ECDSA verification of r and s over a public point that lies on the curve (Table 8.6). -/
def ecdsaCheck (c : Curve) (q : Nat × Nat) (r s : Nat) (h : Bytes) : Bool :=
  if r = 0 || s = 0 || r ≥ c.n || s ≥ c.n then false
  else
    let w := invMod s c.n
    let u1 := ecHash c h * w % c.n
    let u2 := r * w % c.n
    match jAffine c (jAdd c (jMul c u1 (toJ c.g)) (jMul c u2 (toJ (some q)))) with
    | none => false
    | some (x, _) => x % c.n == r

/-- A scalar from a random string, in 1 to n - 1 (FIPS 186-5, extra random bits). -/
def scalarFrom (n : Nat) (b : Bytes) : Nat := beNat b % (n - 1) + 1

/-- A public point as Qx ‖ Qy. -/
def pointBytes (c : Curve) (q : EcPoint) : Bytes :=
  match q with
  | none => Machine.zeros (2 * c.f)
  | some (x, y) => beBytes c.f x ++ beBytes c.f y

/-! ## Loading a curve (R271, R272) -/

/-- One Miller–Rabin round: n - 1 = 2^s * t, base a. -/
def mrRound (n s t a : Nat) : Bool :=
  let x := powMod a t n
  let up (i : Nat) : Nat := powMod x (2 ^ i) n
  x == 1 || (List.range s).any fun i => up i == n - 1

/-- Factors of two in n; fuel bounds them. -/
def twos : Nat → Nat → Nat
  | 0, _ => 0
  | fuel + 1, n => if n ≠ 0 && n % 2 = 0 then 1 + twos fuel (n / 2) else 0

/-- Jacobi symbol (a / n) of an odd n, as 0, 1 or n - 1 style: answers 0, 1 or 2 for minus one; fuel bounds the reductions. -/
def jacobi : Nat → Nat → Nat → Nat → Nat
  | 0, _, _, _ => 0
  | fuel + 1, a, n, sign =>
    let a := a % n
    if a = 0 then (if n = 1 then sign else 0)
    else
      let k := twos (bitLen a) a
      let b := a / 2 ^ k
      let sign := if k % 2 = 1 && (n % 8 = 3 || n % 8 = 5) then 3 - sign else sign
      let sign := if b % 4 = 3 && n % 4 = 3 then 3 - sign else sign
      if b = 1 then sign else jacobi fuel n b sign

/-- The first D of 5, -7, 9, ... with Jacobi symbol -1, as its residue modulo n, by Selfridge's method A. -/
def lucasD (n : Nat) : Nat → Nat → Bool → Option Nat
  | 0, _, _ => none
  | fuel + 1, d, neg =>
    let r := if neg then n - d % n else d % n
    if jacobi (2 * bitLen n + 4) r n 1 = 2 then some r else lucasD n fuel (d + 2) (!neg)

/-- Half of a number modulo an odd n. -/
def halfMod (x n : Nat) : Nat := if x % 2 = 0 then x / 2 % n else (x + n) / 2 % n

/-- Lucas sequences U and V at k for P = 1, with Q^k. -/
def lucasUV (n d q k : Nat) : Nat × Nat × Nat :=
  ((List.range (bitLen k)).reverse).foldl (fun (acc : Nat × Nat × Nat) i =>
    let (u, v, qk) := acc
    let u2 := u * v % n
    let v2 := subMod (v * v) (2 * qk) n
    let q2 := qk * qk % n
    if bit k i then (halfMod (u2 + v2) n, halfMod (d * u2 + v2) n, q2 * q % n) else (u2, v2, q2)) (0, 2 % n, 1 % n)

/-- The strong Lucas test of an odd n. -/
def lucasTest (n : Nat) : Bool :=
  let r := Nat.sqrt n
  if r * r == n then false
  else match lucasD n 200 5 false with
  | none => false
  | some d =>
    let q := subMod 1 d n * invFour n % n
    let s := twos (bitLen n + 1) (n + 1)
    let t := (n + 1) / 2 ^ s
    let (u, _, _) := lucasUV n d q t
    u == 0 || (List.range s).any fun i =>
      let (_, v, _) := lucasUV n d q (t * 2 ^ i)
      v == 0
where
  /-- Inverse of 4 modulo an odd n. -/
  invFour (n : Nat) : Nat := halfMod (halfMod 1 n) n

/-- Primality by Miller–Rabin rounds with the given bases and a strong Lucas test (R272). -/
def probablePrime (n : Nat) (bases : List Nat) : Bool :=
  if n < 4 then n == 2 || n == 3
  else if n % 2 = 0 then false
  else
    let s := twos (bitLen n) (n - 1)
    let t := (n - 1) / 2 ^ s
    bases.all (fun a => mrRound n s t (a % (n - 3) + 2)) && lucasTest n

/-- The checks of Table 8.8 over a curve block's numbers. -/
def curveChecks (c : Curve) (bases : List Nat) : Bool :=
  bitLen c.p == c.pbits && c.p % 2 == 1
  && probablePrime c.p bases
  && decide (c.a < c.p) && decide (c.b < c.p) && c.b != 0
  && (4 * powMod c.a 3 c.p + 27 * (c.b * c.b % c.p)) % c.p != 0
  && decide (c.gx < c.p) && decide (c.gy < c.p) && onCurve c c.gx c.gy
  && probablePrime c.n bases
  && hasse c
  && ecMul c c.n c.g == none
  && c.n != c.p
  && (List.range 100).all fun k => powMod c.p (k + 1) c.n != 1
where
  /-- |n - (p + 1)| ≤ 2 √p. -/
  hasse (c : Curve) : Bool :=
    let d := if c.n ≥ c.p + 1 then c.n - (c.p + 1) else c.p + 1 - c.n
    d * d ≤ 4 * c.p

/-- A curve block (Table 8.7): entry and curve; none when its header or its length is wrong. -/
def parseCurve (b : Bytes) : Option (Nat × Curve) :=
  let e := (byteAt b 0).toNat
  let f := (byteAt b 1).toNat
  let pb := fieldLe b 2 2
  let num (i : Nat) := beNat (sub b (8 + i * f) f)
  if 0x40 ≤ e && e ≤ 0x7F && 24 ≤ f && f ≤ 72 && 192 ≤ pb && pb ≤ 571 && ceilDiv pb 8 == f && fieldLe b 4 4 == 0
      && b.length == 8 + 6 * f then
    some (e, { p := num 0, a := num 1, b := num 2, gx := num 3, gy := num 4, n := num 5, pbits := pb })
  else none

end Sys2Proof.Machine
end

