-- ==== Sys2Proof/Machine/Journal.lean ====
section
/-! DEFINITION. MINT: counter records and IV draws (R209 to R215), the reservation journal (R216 to R221, R486, R495, R496), its compaction and its recovery. -/

namespace Sys2Proof.Machine

/-! ## Journal records -/

/-- Byte offset of a copy's log: header area and table come first. -/
def jLogBase : Nat := 4096 + 131072 * 32

/-- A record of Table 6.9. -/
def jRecord (kind d h ceiling seq : Nat) : Bytes :=
  let b := leBytes 1 kind ++ [0] ++ leBytes 2 d ++ leBytes 4 h ++ leBytes 8 ceiling ++ leBytes 4 seq ++ Machine.zeros 8
  b ++ leBytes 4 (crc32c b).toNat

/-- The header of Table 6.8, its hdr_crc taken with byte 8 as 0xFF. -/
def jHeader (gen state inst records tableCrc : Nat) : Bytes :=
  let body (st : Nat) := leBytes 4 0x00060001 ++ leBytes 4 gen ++ leBytes 1 st ++ Machine.zeros 3 ++ leBytes 4 inst
    ++ leBytes 4 records ++ leBytes 4 tableCrc ++ Machine.zeros 36
  body state ++ leBytes 4 (crc32c (body 0xFF)).toNat

/-- The map of Table 6.10. -/
def jMap (activeB : Bool) (gen : Nat) : Bytes :=
  let b := leBytes 4 (if activeB then 1 else 0) ++ leBytes 4 gen ++ Machine.zeros 52
  b ++ leBytes 4 (crc32c b).toNat

/-- The journal target of a copy. -/
def copyTarget (b : Bool) : JTarget := if b then .copyB else .copyA

/-- The integrating chip provides the journal NVM (R486). -/
def State.jnlEn (s : State) : Bool := (s.reg 0x40000).getLsbD 0

/-- The NVM byte address of a journal target that P5 presents, from the tick after BY_CFG.lock is set (R485). -/
def State.journalAddress (s : State) (t : JTarget) : Option (BitVec 48) :=
  s.keyBus.presented.map fun x => match t with
    | .copyA => x.1
    | .copyB => x.2.1
    | .map => x.2.2

/-- With BY_CFG locked, P5 presents the BY_JNL_ values, and goes on to until a reset (R485). -/
def State.presentJournal (s : State) : State :=
  if (s.reg 0x40000).getLsbD 31 && s.keyBus.presented.isNone then
    { s with keyBus := { s.keyBus with
        presented := some ((s.reg 0x40010).setWidth 48, (s.reg 0x40018).setWidth 48, (s.reg 0x40020).setWidth 48) } }
  else s

def State.setMint (s : State) (f : Mint → Mint) : State := { s with mint := f s.mint }

/-- Write to the journal. -/
def State.jWrite (s : State) (t : JTarget) (off : Nat) (data : Bytes) : State :=
  s.kbRaise (.jnlWrite t off data) 0 0 .mint none 0

/-! ## Counter records -/

def State.ctrRec? (s : State) (d h : Nat) : Option CtrRec := s.mint.records.find? fun r => r.domain == d && r.handle == h

def State.setCtrRec (s : State) (d h : Nat) (f : CtrRec → CtrRec) : State :=
  s.setMint fun m => { m with records := m.records.map fun r => if r.domain == d && r.handle == h then f r else r }

/-- The ceiling of a record with the appends on their way counted in: no value is reserved twice (notes/assumptions/12). -/
def State.reservedTo (s : State) (d h : Nat) : Nat :=
  (s.mint.appends.filter fun a => a.domain == d && a.handle == h).foldl (fun c a => max c a.ceiling)
    (((s.ctrRec? d h).map (·.ceiling)).getD 0)

/-- A dual append: from the start of step 1 of R218 until the end of step 3. -/
def Mint.dual (m : Mint) : Bool := m.compaction.any fun c => c.step ≤ 5

/-- Issue the oldest append when none is on its way: first to the active copy's log (R216, R218). -/
def State.pumpAppends (s : State) : State :=
  match s.mint.appends with
  | [] => s
  | a :: as =>
    match a.waiting with
    | some _ => s
    | none =>
      let m := s.mint
      let rec32 := jRecord (if a.spent then 3 else 2) a.domain a.handle a.ceiling (m.seq + 1)
      let s := s.jWrite (copyTarget m.activeB) (jLogBase + 32 * m.logUsed) rec32
      s.setMint fun m => { m with logUsed := m.logUsed + 1, seq := m.seq + 1,
                                  appends := { a with waiting := some (if m.dual then 2 else 1) } :: as }

/-- Start a compaction (R218): from now on appends go to both logs. -/
def State.startCompaction (s : State) : State :=
  if s.mint.compaction.isSome || s.mint.generation == 0xFFFFFFFF then s
  else s.setMint fun m => { m with
    compaction := some { step := 0, removed := (m.records.filter (·.removal)).map fun r => (r.domain, r.handle),
                         newUsed := 0, table := [] },
    appends := m.appends.map fun a => { a with waiting := a.waiting.map (· + 1) } }

/-- The log is full and its generation is the last one: no compaction can make room (R496). -/
def Mint.stuck (m : Mint) : Bool := decide (131072 ≤ m.logUsed) && m.generation == 0xFFFFFFFF

/-- The journal event of a log that stays full: PARSLEY posts it when the log has filled, at the end of a recovery that finds it full, and at each reservation that it refuses (R496). -/
def State.stuckEvent (s : State) : State := if s.mint.stuck then s.event 0 0x07 0 1 [] else s

/-- A reservation can be taken: journal enabled and present, not refusing, lanes in service, room in the log (R213, R218, R220, R460, R462). -/
def State.canReserve (s : State) : Bool :=
  s.jnlEn && !s.mint.lost && !s.mint.refusing && s.kbUp
  && s.mint.logUsed + (s.mint.appends.filter (·.waiting.isNone)).length < 131072

/-- Reserve the next block of 2^24 for (d, h): an append, or the record is marked spent (R212, R214); a refusal is noted in the slot's counter. -/
def State.reserve (s : State) (d h : Nat) : State :=
  if !s.canReserve then
    s.stuckEvent.setSlot d h fun x => { x with counter := x.counter.map fun c => { c with asked := false, refused := true } }
  else
    let top := s.reservedTo d h + 2 ^ 24
    if top > 0xFFFFFFFFFF000000 then
      let s := s.setCtrRec d h fun r => { r with spent := true }
      (s.setMint fun m => { m with appends := m.appends ++ [
        { domain := d, handle := h, ceiling := s.reservedTo d h, spent := true, waiting := none }] }).pumpAppends
    else
      let s := s.setSlot d h fun x => { x with counter := x.counter.map fun c => { c with asked := true, refused := false } }
      (s.setMint fun m => { m with appends := m.appends ++ [
        { domain := d, handle := h, ceiling := top, spent := false, waiting := none }] }).pumpAppends

/-- Counter state of a slot at a ceiling, nothing confirmed yet. -/
def freshCounter (ceiling : Nat) : IvCounter := { next := ceiling, limit := ceiling, asked := false, refused := false, fresh := true }

/-- A slot is loaded for a pair that has a counter record: its counter starts at the ceiling and a block is reserved (R213). -/
def State.mintOnLoad (s : State) (d h : Nat) : State :=
  match s.ctrRec? d h with
  | none => s
  | some r =>
    if r.spent then s
    else (s.setSlot d h fun x => { x with counter := some (freshCounter (s.reservedTo d h)) }).reserve d h

/-- What a draw gives. -/
inductive Draw where
  | value (iv : Bytes)
  | wait
  | fail (st : Status)
  deriving DecidableEq, Repr

/-- A draw can be served at all (R220, R397, R486). -/
def State.drawsOpen (s : State) : Bool := s.jnlEn && !s.mint.lost && s.lovage.ivsOffered && !s.kbClosed

/-- The 96-bit value of R209. -/
def State.ivOf (s : State) (d ctr : Nat) : Bytes :=
  beBytes 4 ((s.lovage.instanceId.getD 0) * 512 + d) ++ beBytes 8 ctr

/-- Draw from a counter in hand (R210, R212, R213). -/
def State.drawFrom (s : State) (d h : Nat) (c : IvCounter) : State × Draw :=
  if c.next < c.limit then
    let s' := s.setSlot d h fun x => { x with counter := some { c with next := c.next + 1 } }
    let s' := if !c.asked && c.limit - (c.next + 1) ≤ 2 ^ 23 then s'.reserve d h else s'
    (s', .value (s.ivOf d c.next))
  else if c.fresh && c.asked then (s, .wait)
  else if c.asked then (s, .fail .resourceBusy)
  else
    let s' := s.reserve d h
    (s', if c.fresh && s.canReserve then .wait else .fail .resourceBusy)

/-- A draw for the key would take the last free counter record (R215, R330). -/
def State.counterLast (s : State) (d h : Nat) : Bool := s.drawsOpen && (s.ctrRec? d h).isNone && s.mint.records.length + 1 == 131072

/-- A counter record for the key (d, h) (R213); one that is made again after its removal is to be removed again (R203). -/
def State.newRecord (s : State) (d h ceiling : Nat) (removal : Bool) : State :=
  s.setMint fun m => { m with records := m.records ++ [
    { domain := d, handle := h, ceiling := ceiling, spent := false, removal := removal, pos := none, newPos := none, unread := false }] }

/-- One IV draw for the key (d, h) (R210 to R215). A revoked slot that a job still holds goes on with its own counter when a compaction has removed the record: no value is drawn twice (R114, R203). A draw waits for a record that is being read again (Table 12.2). -/
def State.draw (s : State) (d h : Nat) : State × Draw :=
  if !s.drawsOpen then (s, .fail .resourceBusy)
  else match s.ctrRec? d h with
  | some r =>
    if r.unread then (s, .wait)
    else if r.spent then (s, .fail .keyExhausted)
    else match (s.slot? d h).bind (·.counter) with
      | some c => s.drawFrom d h c
      | none =>
        let s := s.setSlot d h fun x => { x with counter := some (freshCounter (s.reservedTo d h)) }
        s.drawFrom d h (freshCounter (s.reservedTo d h))
  | none =>
    if s.mint.records.length ≥ 131072 then
      let s := if s.mint.records.any (·.removal) then s.startCompaction else s
      (s.event 0 0x07 0 1 [], .fail .resourceBusy)
    else match (s.slot? d h).bind (·.counter) with
      | some c => (s.newRecord d h c.limit true).drawFrom d h c
      | none => ((s.newRecord d h 0 false).setSlot d h fun x => { x with counter := some (freshCounter 0) }).drawFrom d h (freshCounter 0)

/-- An append's last write has returned: its block is confirmed (R212). -/
def State.confirmAppend (s : State) (a : Append) : State :=
  let s := s.setMint fun m => { m with appends := m.appends.drop 1 }
  let building := s.mint.compaction.filter (·.step ≤ 5)
  let s := s.setCtrRec a.domain a.handle fun r => { r with
    pos := some (jLogBase + 32 * (s.mint.logUsed - 1)), newPos := (building.map fun c => jLogBase + 32 * (c.newUsed - 1)).or r.newPos }
  let s := if a.spent then s else
    let s := s.setCtrRec a.domain a.handle fun r => { r with ceiling := max r.ceiling a.ceiling }
    s.setSlot a.domain a.handle fun x => { x with counter := x.counter.map fun c =>
      if a.ceiling > c.limit then { c with limit := a.ceiling, asked := false, refused := false, fresh := false } else c }
  let s := if s.mint.logUsed ≥ 114688 then s.startCompaction else s
  s.stuckEvent.pumpAppends

/-- The oldest append goes to the log of the copy that a compaction builds (R218). -/
def State.appendToNew (s : State) : State :=
  match s.mint.appends with
  | [] => s
  | a :: as =>
    let m := s.mint
    let used := (m.compaction.map (·.newUsed)).getD 0
    let s := s.jWrite (copyTarget (!m.activeB)) (jLogBase + 32 * used)
      (jRecord (if a.spent then 3 else 2) a.domain a.handle a.ceiling (used + 1))
    s.setMint fun m => { m with appends := { a with waiting := some 1 } :: as,
                                compaction := m.compaction.map fun c => { c with newUsed := c.newUsed + 1 } }

/-- A log write has returned: the next write of the append, or its confirmation (R216, R218). The second log takes nothing before its copy is erased (notes/assumptions/105). -/
def State.appendReturned (s : State) : State :=
  match s.mint.appends with
  | [] => s
  | a :: as =>
    match a.waiting with
    | some 2 =>
      if s.mint.compaction.any fun c => c.step ≤ 1 then
        s.setMint fun m => { m with appends := { a with waiting := some 3 } :: as }
      else s.appendToNew
    | some _ => s.confirmAppend a
    | none => s

/-- The request writes a log record. -/
def KbReq.isAppend (r : KbReq) : Bool :=
  match r.kind with
  | .jnlWrite t off _ => t != .map && off ≥ jLogBase
  | _ => false

/-- A journal write of the compaction or of the recovery is outstanding. -/
def State.jBusy (s : State) : Bool := s.keyBus.reqs.any fun r => r.dest == .mint && !r.isAppend

/-- A table's record as a counter record; pos is its byte offset. -/
def recordAt (b : Bytes) (pos : Nat) : CtrRec :=
  { domain := fieldLe b 2 2, handle := fieldLe b 4 4, ceiling := fieldLe b 8 8, spent := byteAt b 0 == 3, removal := false,
    pos := some pos, newPos := none, unread := false }

/-- Table records as counter records. -/
def tableRecords (table : Bytes) : List CtrRec := (chunks 32 table).zipIdx.map fun x => recordAt x.1 (4096 + 32 * x.2)

/-! ## Compaction -/

/-- The table that step 2 of R218 writes: every record but those marked for removal. -/
def State.compactTable (s : State) (removed : List (Nat × Nat)) : Bytes :=
  (s.mint.records.filter fun r => !removed.contains (r.domain, r.handle)).flatMap fun r =>
    jRecord (if r.spent then 3 else 1) r.domain r.handle r.ceiling 0

/-- Write a table as 32-byte records. -/
def State.writeTable (s : State) (t : JTarget) (table : Bytes) : State :=
  (chunks 32 table).zipIdx.foldl (fun s (b : Bytes × Nat) => s.jWrite t (4096 + 32 * b.2) b.1) s

/-- The next part of R218 once every write of the part before has returned: 1 erase Y; 2 its header, building; 3 the table; 4 and 5 its header, complete; 6 retire X; 7 erase X; 8 erase the map; 9 write it; then the end. -/
def State.compactNext (s : State) (c : Compaction) : State :=
  let m := s.mint
  let y := copyTarget (!m.activeB)
  let inst := s.lovage.instanceId.getD 0
  let gen := m.generation.toNat
  let n := c.table.length / 32
  let hdr := jHeader (gen + 1) 0x3F inst n (crc32c c.table).toNat
  let put (s : State) (f : Compaction → Compaction) : State := s.setMint fun m => { m with compaction := m.compaction.map f }
  match c.step with
  | 0 =>
    let s := s.setMint fun m => { m with records := m.records.map fun r => { r with newPos := none } }
    (put s fun c => { c with step := 1 }).kbRaise (.jnlErase y) 0 0 .mint none 0
  | 1 =>
    let s := (put s fun c => { c with step := 2 }).jWrite y 0
      (leBytes 4 0x00060001 ++ leBytes 4 (gen + 1) ++ [0x7F] ++ Machine.zeros 3 ++ leBytes 4 inst ++ List.replicate 8 0xFF
        ++ Machine.zeros 8)
    if m.appends.any (·.waiting == some 3) then s.appendToNew else s
  | 2 =>
    let table := s.compactTable c.removed
    (put s fun c => { c with step := 3, table := table }).writeTable y table
  | 3 => (put s fun c => { c with step := 4 }).jWrite y 32 (hdr.drop 32)
  | 4 => (put s fun c => { c with step := 5 }).jWrite y 0 (hdr.take 32)
  | 5 =>
    let x := copyTarget m.activeB
    let listed := tableRecords c.table
    let inTable (r : CtrRec) : Option Nat := (listed.find? fun x => x.domain == r.domain && x.handle == r.handle).bind (·.pos)
    let s := s.setMint fun m => { m with
      activeB := !m.activeB, generation := m.generation + 1, header := hdr.take 32, logUsed := c.newUsed, seq := c.newUsed,
      records := (m.records.filter fun r => !c.removed.contains (r.domain, r.handle)).map fun r => { r with pos := r.newPos.or (inTable r) },
      compaction := m.compaction.map fun c => { c with step := 6 } }
    s.jWrite x 0 (putAt (padTo 32 m.header) 8 [0x1F])
  | 6 => (put s fun c => { c with step := 7 }).kbRaise (.jnlErase y) 0 0 .mint none 0
  | 7 => (put s fun c => { c with step := 8 }).kbRaise (.jnlErase .map) 0 0 .mint none 0
  | 8 => (put s fun c => { c with step := 9 }).jWrite .map 0 (jMap m.activeB gen)
  | _ => s.setMint fun m => { m with compaction := none }

/-! ## Recovery -/

/-- A header that a valid copy can have (R217): state complete, hdr_crc, and this device's instance. -/
def headerOk (inst : Option Nat) (h : Bytes) : Bool :=
  h.length == 64 && byteAt h 8 == 0x3F
  && fieldLe h 60 4 == (crc32c (putAt (h.take 60) 8 [0xFF])).toNat && some (fieldLe h 12 3 % 2 ^ 23) == inst

/-- The copy to try next: of the headers that can be valid, the higher generation (R219). -/
def Mint.candidate (m : Mint) (inst : Option Nat) : Option Bool :=
  let a := m.headA.filter (headerOk inst)
  let b := m.headB.filter (headerOk inst)
  match a, b with
  | some x, some y => some (decide (fieldLe y 4 4 > fieldLe x 4 4))
  | some _, none => some false
  | none, some _ => some true
  | none, none => none

/-- The header of a copy. -/
def Mint.head (m : Mint) (b : Bool) : Bytes := (if b then m.headB else m.headA).getD []

/-- Bytes of a copy read so far, from the table on. -/
def Mint.readBytes (m : Mint) (b : Bool) (from' : Nat) : Bytes :=
  (m.buf.filter fun x => x.1 == b && x.2.1 ≥ from').flatMap fun x => x.2.2

/-- Read the next bytes of a copy. -/
def State.jRead (s : State) (t : JTarget) (off len : Nat) : State := s.kbRaise (.jnlRead t off len) 0 0 .mint none 0

/-- A counter record whose word was uncorrectable has been read again: its ceiling, or the one of an append since, is the counter's, and the slot's counter resumes there (Table 12.2, R213). Bytes that are no record of that key leave it unread (DESIGN CHOICE, notes/assumptions/136). -/
def State.reread (s : State) (t : JTarget) (off : Nat) (data : Bytes) : State :=
  let x := recordAt data off
  let good := fieldLe data 28 4 == (crc32c (data.take 28)).toNat
  match s.mint.records.find? fun r => r.unread && r.pos == some off && r.domain == x.domain && r.handle == x.handle with
  | some r =>
    if good && t == copyTarget s.mint.activeB then
      let s := s.setCtrRec r.domain r.handle fun r => { r with ceiling := max r.ceiling x.ceiling, spent := r.spent || x.spent, unread := false }
      if (s.slot? r.domain r.handle).isSome then s.mintOnLoad r.domain r.handle else s
    else s
  | none => s

/-- Recovery ends: step 8 of Table 14.4 has ended. A log that was recovered with seven eighths of its positions used is compacted (R218). -/
def State.recoveryDone (s : State) : State :=
  let s := s.setMint fun m => { m with recovery := .done, headA := none, headB := none, mapBytes := none, buf := [], scan := [] }
  let s := if s.mint.logUsed ≥ 114688 then s.startCompaction.stuckEvent else s
  { s with mode := { s.mode with steps := { s.mode.steps with s8 := true } } }

/-- Bytes of a copy: header area, table and log. -/
def jCopySize : Nat := jLogBase + 131072 * 32

/-- How many bytes at the front of a copy are known to be erased; none when one is programmed (R219). -/
def Mint.erasedTo (m : Mint) (b : Bool) : Option Nat :=
  if allFF (m.head b) then ((m.scan.find? (·.1 == b)).map (·.2)).getD (some 64) else none

/-- Read on in a copy whose first n bytes are erased. -/
def State.scanOn (s : State) (b : Bool) (n : Nat) : State :=
  (s.setMint fun m => { m with recovery := .scanning }).jRead (copyTarget b) n (min 4096 (jCopySize - n))

/-- Bytes of a copy that is being looked through for programmed bytes. -/
def Mint.scanned (m : Mint) (b : Bool) (off : Nat) (data : Bytes) : Mint :=
  { m with scan := assocSet m.scan b (if allFF data then some (off + data.length) else none) }

/-- Finish step 5 of R218: erase and write the map, when it does not name the active copy at its generation (R219). -/
def State.recoverMap (s : State) : State :=
  let m := s.mint
  if m.mapBytes == some (jMap m.activeB m.generation.toNat) then s.recoveryDone
  else (s.setMint fun m => { m with recovery := .erasing }).kbRaise (.jnlErase .map) 0 0 .mint none 0

/-- Finish steps 4 and 5 of R218: erase the other copy when it is not wholly erased, and see to the map (R219). -/
def State.recoverTidy (s : State) : State :=
  let other := !s.mint.activeB
  match s.mint.erasedTo other with
  | none => (s.setMint fun m => { m with recovery := .erasing }).kbRaise (.jnlErase (copyTarget other)) 0 0 .mint none 0
  | some n => if n < jCopySize then s.scanOn other n else s.recoverMap

/-- Apply the log from position i on to the records, skipping torn positions, up to the first empty one (R219). -/
def applyLog : Nat → List Bytes → List CtrRec → List CtrRec
  | _, [], rs => rs
  | i, b :: bs, rs =>
    if allFF b then rs
    else if fieldLe b 28 4 != (crc32c (b.take 28)).toNat then applyLog (i + 1) bs rs
    else
      let x := recordAt b (jLogBase + 32 * i)
      let same (r : CtrRec) : Bool := r.domain == x.domain && r.handle == x.handle
      let up (r : CtrRec) : CtrRec := { r with ceiling := x.ceiling, spent := r.spent || x.spent, pos := x.pos }
      applyLog (i + 1) bs (if rs.any same then rs.map fun r => if same r then up r else r else rs ++ [x])

/-- Positions of a log up to the first empty one after which all is empty: those not wholly 0xFF at its front. -/
def logPositions (log : List Bytes) : Nat := (log.takeWhile fun b => !allFF b).length

/-- The journal is lost (R219, R220). -/
def State.journalLost (s : State) : State :=
  ((s.setMint fun m => { m with lost := true }).event 0 0x07 0 2 []).recoveryDone

/-- The state is one whose start-up passes through Provisioning for an instance slot that is not confirmed: the only pass in which MINT formats a journal (R403). -/
def Lovage.formats (l : Lovage) : Bool :=
  (l.life == .provisioned || l.life == .secured || l.life == .develop) && l.instSlot.isSome && !l.instConfirmed

/-- No valid copy: wait for the format in Provisioning when both copies are wholly erased under an unconfirmed instance slot, else the journal is lost (R219, R220, R403, R431). -/
def State.recoverNone (s : State) : State :=
  let m := s.mint
  match m.erasedTo false, m.erasedTo true with
  | some a, some b =>
    if !s.lovage.formats then s.journalLost
    else if a < jCopySize then s.scanOn false a
    else if b < jCopySize then s.scanOn true b
    else { s with mode := { s.mode with formatWait := true } }
  | _, _ => s.journalLost

/-- The next move of a recovery after the bytes read so far (R217, R219). The next append has the highest valid seq plus one: whether a torn append keeps its seq, the spec does not say (DESIGN CHOICE, notes/assumptions/130). -/
def State.recoverNext (s : State) : State :=
  let m := s.mint
  if m.headA.isNone || m.headB.isNone || m.mapBytes.isNone then s
  else match m.candidate s.lovage.instanceId with
  | none => s.recoverNone
  | some b =>
    let h := m.head b
    let need := 32 * fieldLe h 16 4
    let table := (m.readBytes b 4096).take need
    if table.length < need then
      (s.setMint fun m => { m with recovery := .reading }).jRead (copyTarget b) (4096 + table.length)
        (min 4096 (need - table.length))
    else if (crc32c table).toNat != fieldLe h 20 4 then
      let s := s.setMint fun m => if b then { m with headB := some [0], buf := [] } else { m with headA := some [0], buf := [] }
      match s.mint.candidate s.lovage.instanceId with
      | none => s.recoverNone
      | some b2 => (s.setMint fun m => { m with recovery := .reading }).jRead (copyTarget b2) 4096
          (min 4096 (max 16 (32 * fieldLe (s.mint.head b2) 16 4)))
    else
      let log := chunks 32 (m.readBytes b jLogBase)
      if logPositions log == log.length && log.length < 131072 then
        (s.setMint fun m => { m with recovery := .reading }).jRead (copyTarget b) (jLogBase + 32 * log.length) 4096
      else
        let rs := applyLog 0 log (tableRecords table)
        let s := s.setMint fun m => { m with
          records := rs, activeB := b, generation := BitVec.ofNat 32 (fieldLe h 4 4), header := h.take 32, logUsed := logPositions log,
          seq := (log.take (logPositions log)).foldl (fun n r =>
            if fieldLe r 28 4 == (crc32c (r.take 28)).toNat then max n (fieldLe r 16 4) else n) 0 }
        s.recoverTidy

/-- Bytes of a journal read have arrived for the recovery. -/
def State.recoverBytes (s : State) (t : JTarget) (off : Nat) (data : Bytes) : State :=
  let s := s.setMint fun m =>
    if m.recovery == .scanning then m.scanned (t == .copyB) off data
    else match t with
    | .map => { m with mapBytes := some data }
    | .copyA => if off = 0 then { m with headA := some data } else { m with buf := m.buf ++ [(false, off, data)] }
    | .copyB => if off = 0 then { m with headB := some data } else { m with buf := m.buf ++ [(true, off, data)] }
  s.recoverNext

/-- Start the recovery: read both headers and the map (R219); without a journal, or with the key bus closed, there is nothing to do (R397, R486, Table 13.9). -/
def State.recoverStart (s : State) : State :=
  if !s.jnlEn || s.kbClosed then s.recoveryDone
  else
    let s := s.setMint fun m => { m with recovery := .headers, records := [], appends := [], compaction := none, lost := false,
                                         headA := none, headB := none, mapBytes := none, buf := [], scan := [] }
    ((s.jRead .copyA 0 64).jRead .copyB 0 64).jRead .map 0 64

/-- Format a blank journal: copy A of generation 1 with an empty table, then the map (R219). -/
def State.formatJournal (s : State) : State :=
  let head := jHeader 1 0x3F (s.lovage.instanceId.getD 0) 0 (crc32c []).toNat
  let s := s.setMint fun m => { m with records := [], activeB := false, generation := 1, header := head.take 32, logUsed := 0,
                                       seq := 0, lost := false, recovery := .erasing, mapBytes := none }
  let s := s.jWrite .copyA 0 head
  { s.kbRaise (.jnlErase .map) 0 0 .mint none 0 with mode := { s.mode with formatWait := false } }

/-- An erase of the recovery has returned: the map comes after the other copy, and is written after its erase. -/
def State.recoverErased (s : State) (t : JTarget) : State :=
  let map' := jMap s.mint.activeB s.mint.generation.toNat
  match t with
  | .map => s.jWrite .map 0 map'
  | _ => s.recoverMap

end Sys2Proof.Machine
end

