-- ==== Sys2Proof/Machine/PkForm.lean ====
section
/-! DEFINITION. The form of a public-key job: parameter block (Table 8.1, R251, R252), curve identifiers (Table 8.3, R254), operand and result lengths (Table 8.2, R253, R261), durations (Table 8.4, R255, R256, R266), and type 0x3 records (Table 8.5, R257, R258). -/

namespace Sys2Proof.Machine

/-! ## Parameter block -/

def ppCurve (b : Bytes) : Nat := (byteAt b 0).toNat
def ppPad (b : Bytes) : Nat := (byteAt b 1).toNat
def ppHash (b : Bytes) : Nat := (byteAt b 2).toNat
def ppDet (b : Bytes) : Bool := (byteAt b 3).getLsbD 0
def ppPh (b : Bytes) : Bool := (byteAt b 3).getLsbD 1
def ppExtMu (b : Bytes) : Bool := (byteAt b 3).getLsbD 2
def ppCtx (b : Bytes) : Nat := fieldLe b 4 2
def ppSalt (b : Bytes) : Nat := fieldLe b 6 2
def ppE (b : Bytes) : Nat := fieldLe b 8 4
def ppLabel (b : Bytes) : Nat := fieldLe b 12 2
def ppMod (b : Bytes) : Nat := fieldLe b 14 2

/-- Sub-operations of Table 8.2. -/
def pkSubs : List Nat :=
  [0x01, 0x02, 0x10, 0x11, 0x12, 0x13, 0x20, 0x21, 0x24, 0x30, 0x31, 0x32, 0x38, 0x39, 0x3A, 0x40]

/-- Curve of the prime family, built in or loaded. -/
def isPrimeCurve (c : Nat) : Bool := (1 ≤ c && c ≤ 3) || (0x40 ≤ c && c ≤ 0x7F)

/-- The curve field is valid for the sub-operation (Table 8.3); RSA and curve load take 0. -/
def curveOk (sub c : Nat) : Bool :=
  match sub with
  | 0x01 | 0x02 | 0x40 => c == 0
  | 0x10 | 0x11 | 0x12 => isPrimeCurve c
  | 0x13 => isPrimeCurve c || c == 0x08 || c == 0x09 || c == 0x0A
  | 0x20 | 0x21 => c == 0x08 || c == 0x09
  | 0x24 => c == 0x0A
  | 0x30 | 0x31 | 0x32 => 0x21 ≤ c && c ≤ 0x23
  | _ => 0x31 ≤ c && c ≤ 0x33

/-- RSA signature padding needs a hash; OAEP uses one too. -/
def padHashed (p : Nat) : Bool := 1 ≤ p && p ≤ 3

/-- A modulus length that Duern takes (Table 8.1, R256). -/
def modBitsOk (m : Nat) : Bool := m % 16 == 0 && 2048 ≤ m && m ≤ 8192

/-- Fields of Table 8.1 in range, and zero where the sub-operation does not use them (R252). -/
def ppFieldsOk (sub : Nat) (b : Bytes) : Bool :=
  let rsa := sub == 0x01 || sub == 0x02
  let eddsa := sub == 0x20 || sub == 0x21
  let mldsa := sub == 0x39 || sub == 0x3A
  let hLen := digestLen (ppHash b) 0
  (if rsa then ppPad b ≤ 3 else ppPad b == 0)
  && (if rsa && padHashed (ppPad b) then digestOk (ppHash b) && !isShake (ppHash b) else ppHash b == 0)
  && (!ppDet b || sub == 0x10 || sub == 0x39)
  && (!ppPh b || eddsa || mldsa) && (!ppExtMu b || mldsa) && !(ppPh b && ppExtMu b)
  && bits (byteAt b 3).toNat 7 3 == 0
  && (if eddsa || mldsa then ppCtx b ≤ 255 else ppCtx b == 0)
  && !(ppCurve b == 0x08 && eddsa && !ppPh b && ppCtx b != 0)
  && (if rsa && ppPad b == 1 then
        sub == 0x01 || decide (ppSalt b + hLen + 2 ≤ ppMod b / 8)
      else ppSalt b == 0)
  && (if sub == 0x02 then ppE b % 2 == 1 && 3 ≤ ppE b else ppE b == 0)
  && (if rsa && ppPad b == 3 then ppLabel b ≤ 255 else ppLabel b == 0)
  && (if sub == 0x02 then modBitsOk (ppMod b) else ppMod b == 0)
  && allZero (sub' b)
where
  /-- Reserved bytes 16 to 79. -/
  sub' (b : Bytes) : Bytes := Machine.sub b 16 64

/-! ## Lengths -/

/-- The loaded curve of an entry. -/
def State.curve? (s : State) (c : Nat) : Option Curve := s.basil.curves.lookup c

/-- Field length f of a prime curve; none for an empty entry (R252). -/
def State.curveF (s : State) (c : Nat) : Option Nat :=
  match c with
  | 1 => some 32
  | 2 => some 48
  | 3 => some 66
  | _ => (s.curve? c).map fun x => ceilDiv x.pbits 8

/-- Lengths of ek, dk, ciphertext of ML-KEM (FIPS 203). -/
def kemLens (c : Nat) : Nat × Nat × Nat :=
  match c with
  | 0x21 => (800, 1632, 768)
  | 0x22 => (1184, 2400, 1088)
  | _ => (1568, 3168, 1568)

/-- Lengths of pk, sk, signature of ML-DSA (FIPS 204). -/
def dsaLens (c : Nat) : Nat × Nat × Nat :=
  match c with
  | 0x31 => (1312, 2560, 2420)
  | 0x32 => (1952, 4032, 3309)
  | _ => (2592, 4896, 4627)

/-- M with its context string: at most 4,096 bytes of M, or a 64-byte hash with ph, or mu with ext_mu (R252, Table 8.2). -/
def msgLenOk (b : Bytes) (n : Nat) : Bool :=
  if ppExtMu b then n == 64
  else if ppPh b then n == 64 + ppCtx b
  else ppCtx b ≤ n && n ≤ 4096 + ppCtx b

/-- L agrees with the operand block of Table 8.2; f is the prime curve's field length. What needs the modulus of an RSA private key is judged with its record. -/
def operandOk (sub : Nat) (b : Bytes) (f l : Nat) : Bool :=
  let k := ppMod b / 8
  let hLen := digestLen (ppHash b) 0
  match sub with
  | 0x01 => !(ppPad b == 1 || ppPad b == 2) || l == hLen
  | 0x02 => match ppPad b with
    | 0 => l == 2 * k
    | 3 => k + ppLabel b ≤ l && l - k - ppLabel b + 2 * hLen + 2 ≤ k
    | _ => l == 2 * k + hLen
  | 0x10 => 1 ≤ l && l ≤ 64
  | 0x11 => 4 * f + 1 ≤ l && l ≤ 4 * f + 64
  | 0x12 => l == 2 * f
  | 0x20 => msgLenOk b l
  | 0x21 =>
    let n := if ppCurve b == 0x08 then 96 else 171
    n ≤ l && msgLenOk b (l - n)
  | 0x24 => l == 32
  | 0x31 => l == (kemLens (ppCurve b)).1
  | 0x32 => l == (kemLens (ppCurve b)).2.2
  | 0x39 => msgLenOk b l
  | 0x3A =>
    let n := (dsaLens (ppCurve b)).1 + (dsaLens (ppCurve b)).2.2
    n ≤ l && msgLenOk b (l - n)
  | 0x40 => 8 < l && l ≤ 440
  | _ => l == 0

/-- Lengths and pad of 0x01 that need the modulus length k in bytes (R252, check 4 of R194). -/
def rsaPrivateOk (b : Bytes) (k l : Nat) : Bool :=
  let hLen := digestLen (ppHash b) 0
  match ppPad b with
  | 0 => l == k
  | 3 => l == k + ppLabel b
  | p => l == hLen && (p != 1 || ppSalt b + hLen + 2 ≤ k)

/-- Length of a wrapped body (R261). -/
def wrappedLen (n : Nat) : Nat := 8 + 8 * ceilDiv n 8

/-- Body length of Table 8.5; f and k are the curve's and the modulus's lengths. -/
def bodyLen (alg f k : Nat) : Nat :=
  match alg with
  | 0xF0 => 7 * k / 2 + 4
  | 0x08 => 64
  | 0x09 => 114
  | 0x0A => 64
  | 0x21 | 0x22 | 0x23 => (kemLens alg).2.1
  | 0x31 | 0x32 | 0x33 => (dsaLens alg).2.1
  | _ => 3 * f

/-- Length of the public key of a generation. -/
def publicLen (c f : Nat) : Nat :=
  match c with
  | 0x08 => 32
  | 0x09 => 57
  | 0x0A => 32
  | 0x21 | 0x22 | 0x23 => (kemLens c).1
  | 0x31 | 0x32 | 0x33 => (dsaLens c).1
  | _ => 2 * f

/-- Length of the result block of Table 8.2. -/
def resultLen (sub : Nat) (b : Bytes) (f k : Nat) : Nat :=
  match sub with
  | 0x01 => k
  | 0x02 => if ppPad b == 0 || ppPad b == 3 then k else 0
  | 0x10 => 2 * f
  | 0x13 | 0x30 | 0x38 => publicLen (ppCurve b) f + wrappedLen (bodyLen (ppCurve b) f k)
  | 0x20 => if ppCurve b == 0x08 then 64 else 114
  | 0x31 => (kemLens (ppCurve b)).2.2
  | 0x39 => (dsaLens (ppCurve b)).2.2
  | _ => 0

/-- Table 8.2 names a result. -/
def hasResult (sub : Nat) (b : Bytes) : Bool :=
  sub == 0x01 || (sub == 0x02 && (ppPad b == 0 || ppPad b == 3)) || [0x10, 0x13, 0x20, 0x30, 0x31, 0x38, 0x39].contains sub

/-- Step 5 of a 0x60 for its parameter block (R252, R273): the failing status. The empty curve entry comes before what needs its f. -/
def State.pkParam (s : State) (sub : Nat) (b : Bytes) (l dst : Nat) : Option Status :=
  let c := ppCurve b
  if !curveOk sub c || !ppFieldsOk sub b || hasResult sub b != (dst != 0) then some .malformed
  else if c ≥ 0x40 && (s.curve? c).isNone then some .pkeParamInvalid
  else if !operandOk sub b ((s.curveF c).getD 0) l then some .malformed
  else none

/-! ## Durations -/

/-- 0, 1, 2 for EC-256, EC-384, EC-576. -/
def State.ecClass (s : State) (c : Nat) : Nat :=
  match c with
  | 1 => 0
  | 2 => 1
  | 3 => 2
  | _ => let p := ((s.curve? c).map (·.pbits)).getD 0
    if p ≤ 256 then 0 else if p ≤ 384 then 1 else 2

/-- 0 to 3 for RSA-2048, 3072, 4096, 8192 (R256). -/
def rsaClass (modBits : Nat) : Nat :=
  if modBits ≤ 2048 then 0 else if modBits ≤ 3072 then 1 else if modBits ≤ 4096 then 2 else 3

/-- Duration in ticks (Table 8.4); k is the RSA modulus length in bytes. -/
def State.pkTicks (s : State) (sub : Nat) (b : Bytes) (k : Nat) : Nat :=
  let c := ppCurve b
  let ec (l : List Nat) := nth l (s.ecClass c) 0
  let rsa (l : List Nat) := nth l (rsaClass (8 * k)) 0
  match sub with
  | 0x01 => rsa [6875, 23125, 46875, 375000]
  | 0x02 => rsa [250, 550, 950, 3700]
  | 0x10 => ec [562, 1250, 2800]
  | 0x11 => ec [700, 1550, 3500]
  | 0x12 => ec [500, 1100, 2500]
  | 0x13 => match c with
    | 0x08 => 320
    | 0x09 => 820
    | 0x0A => 370
    | _ => ec [520, 1125, 2540]
  | 0x20 => if c == 0x08 then 400 else 1000
  | 0x21 => if c == 0x08 then 560 else 1300
  | 0x24 => 350
  | 0x30 => nth [60, 90, 125] (c - 0x21) 0
  | 0x31 => nth [70, 100, 135] (c - 0x21) 0
  | 0x32 => nth [95, 137, 185] (c - 0x21) 0
  | 0x38 => nth [110, 180, 260] (c - 0x31) 0
  | 0x39 => nth [800, 1125, 1500] (c - 0x31) 0
  | 0x3A => nth [130, 200, 300] (c - 0x31) 0
  | _ => 12500

/-- Candidates of a budget of ML-DSA signing, and the ticks of one (R266). -/
def dsaBudget (c : Nat) : Nat × Nat :=
  match c with
  | 0x31 => (128, 5)
  | 0x32 => (136, 7)
  | _ => (112, 11)

/-- The sub-operation draws from its sequencer's DRBG (R265). -/
def drawsRandom (sub : Nat) (b : Bytes) : Bool :=
  [0x01, 0x10, 0x12, 0x13, 0x20, 0x24, 0x30, 0x31, 0x38, 0x39, 0x40].contains sub || (sub == 0x02 && ppPad b == 3)

/-! ## Keys -/

/-- Sub-operations whose key field names a type 0x3 record (Table 8.2). -/
def pkRecSub (sub : Nat) : Bool := [0x01, 0x10, 0x12, 0x20, 0x24, 0x32, 0x39].contains sub

/-- Sub-operations whose key field names an AES KEK. -/
def pkKekSub (sub : Nat) : Bool := sub == 0x13 || sub == 0x30 || sub == 0x38

/-- Sub-operations whose key2 field names a type 0x2 target (R260). -/
def pkTargetSub (sub : Nat) : Bool := [0x12, 0x24, 0x31, 0x32].contains sub

/-- Policy bits that Table 8.2 asks of a type 0x3 record: mac_gen is bit 2, dec bit 1. -/
def pkPolicyOk (sub : Nat) (b : Bytes) (p : BitVec 16) : Bool :=
  match sub with
  | 0x01 => match ppPad b with
    | 0 => p.getLsbD 1 && p.getLsbD 2
    | 3 => p.getLsbD 1
    | _ => p.getLsbD 2
  | 0x12 | 0x24 | 0x32 => p.getLsbD 1
  | _ => p.getLsbD 2

/-- alg of a type 0x3 record that the sub-operation takes. -/
def pkAlgOk (sub alg : Nat) : Bool :=
  match sub with
  | 0x01 => alg == 0xF0
  | 0x10 | 0x12 => isPrimeCurve alg
  | 0x20 => alg == 0x08 || alg == 0x09
  | 0x24 => alg == 0x0A
  | 0x32 => 0x21 ≤ alg && alg ≤ 0x23
  | _ => 0x31 ≤ alg && alg ≤ 0x33

/-- A type 0x3 record and body pass R258 and, for RSA, R256: the modulus has mod_bits bits. -/
def State.pkRecordOk (s : State) (sub : Nat) (b rec' : Bytes) : Bool :=
  let r := parseRec rec'
  let alg := r.alg
  let bl := fieldLe rec' 64 2
  let mb := fieldLe rec' 66 2
  let k := mb / 8
  r.typ == 3 && r.klen == 0 && r.hdigest == 0 && r.newer == 0 && r.older == 0 && r.clean && r.notBefore < r.notAfter
  && allZero (Machine.sub rec' 68 60)
  && (alg == 0xF0 || isPrimeCurve alg || alg == 0x08 || alg == 0x09 || alg == 0x0A || (0x21 ≤ alg && alg ≤ 0x23)
      || (0x31 ≤ alg && alg ≤ 0x33))
  && bl == bodyLen alg ((s.curveF alg).getD 0) k && rec'.length == 128 + bl
  && (if alg == 0xF0 then modBitsOk mb && (byteAt rec' 128).getLsbD 7 else mb == 0)
  && pkAlgOk sub alg && (ppCurve b == 0 || alg == ppCurve b)

/-- Modulus length in bytes that the operation runs with: the record's for 0x01, mod_bits for 0x02 (R252). -/
def rsaK (sub : Nat) (b rec' : Bytes) : Nat := if sub == 0x01 then fieldLe rec' 66 2 / 8 else ppMod b / 8

end Sys2Proof.Machine
end

