-- ==== Sys2Proof/Machine/Jobs.lean ====
section
/-! DEFINITION. A job's life in FENNEL: ring positions and marks (R74 to R81), output writes, the end of a job and its completion in ring order (R19, R20, R103 to R105, R143 to R150), validation in the order of Table 4.12, key checks (R194), step 8, and staging (R50, R51, R160, R161, R210, R259). -/

namespace Sys2Proof.Machine

/-! ## Rings -/

/-- Address of the entry of a count (R75, R78). -/
def Queue.addr (x : Queue) (c : BitVec 17) : Nat := x.base + c.toNat % 2 ^ x.n * x.gen.size

/-- Phase of a count (R78). -/
def Queue.phaseOf (x : Queue) (c : BitVec 17) : Bool := c.toNat / 2 ^ x.n % 2 == 0

/-- Outstanding entries (R79). -/
def Queue.outstanding (x : Queue) : Nat := (x.tail - x.head).toNat

/-- Free entries (R79). -/
def Queue.free (x : Queue) : Nat := 2 ^ x.n - x.outstanding

/-- A count is covered (R79). -/
def Queue.covered (x : Queue) (c : BitVec 17) : Bool := decide ((c - x.head).toNat < x.outstanding)

/-- Ownership states of an entry (Table 3.2). -/
inductive Mark where
  | fresh | completed | stale
  deriving DecidableEq, Repr

/-- The state of an entry read for a count (R81). -/
def Queue.judge (x : Queue) (c : BitVec 17) (e : Bytes) : Mark :=
  if ePhase e != x.phaseOf c then .stale else if byteAt e 0 == 0xFF then .fresh else .completed

/-- The copy that FENNEL holds for a count. -/
def Queue.copy? (x : Queue) (c : BitVec 17) : Option EntryCopy := x.copies.find? (·.count == c)

/-- The queue is idle (Table 3.5). -/
def Queue.idle (x : Queue) : Bool := x.head == x.tail && x.copies.isEmpty

/-- Counts in ring order, those of one aligned 128-byte beat together (R86, Table 3.1). -/
def Queue.beats (x : Queue) : List (BitVec 17) → List (List (BitVec 17))
  | [] => []
  | c :: cs => match x.beats cs with
    | (d :: ds) :: bs => if x.addr c / 128 = x.addr d / 128 then (c :: d :: ds) :: bs else [c] :: (d :: ds) :: bs
    | bs => [c] :: bs

/-- Read the beat in which the entries of some counts lie, in the metadata share (R86); again after poison (R375). -/
def State.readBeat (s : State) (x : Queue) (cs : List (BitVec 17)) (prefetch again : Bool) : State :=
  s.issue .read .metadata x.domain (x.addr (cs.headD 0) / 128 * 128) 128 [] fun _ => .entry x.num cs prefetch again

/-- Read the entries of some counts, each beat once (R86, R97, R98). -/
def State.readEntries (s : State) (x : Queue) (cs : List (BitVec 17)) (prefetch : Bool) : State :=
  (x.beats cs).foldl (fun s b => s.readBeat x b prefetch false) s

/-- A read of the entry is on its way. -/
def State.entryAsked (s : State) (q : Nat) (c : BitVec 17) (covered : Bool) : Bool :=
  s.txns.any fun t => !t.dead && match t.purpose with
    | .entry q' cs p _ => q' == q && cs.contains c && (!covered || !p)
    | _ => false

/-- Entries of a queue whose reads are on their way. -/
def State.entryReads (s : State) (q : Nat) : Nat :=
  (s.txns.map fun t => match t.purpose with
    | .entry q' cs _ _ => if q' == q && !t.dead then cs.length else 0
    | _ => 0).sum

/-- Copies that a queue has room for: 64 less the copies held, those on their way, and the places kept for stalled entries (R97, R98, notes/assumptions/35). -/
def State.entryRoom (s : State) (x : Queue) : Nat :=
  64 - (x.copies.length + s.entryReads x.num + (x.stale.filter fun c => !s.entryAsked x.num c true).length)

/-- Counts a, a + 1, ... in number n. -/
def countsFrom (a : BitVec 17) (n : Nat) : List (BitVec 17) := (List.range n).map fun i => a + BitVec.ofNat 17 i

/-- Covered counts that FENNEL has still to read, as many as the queue has room for (R97, R98, notes/assumptions/35). -/
def State.toFetch (s : State) (x : Queue) : List (BitVec 17) :=
  if s.linkOff x.domain || s.resetting x.domain then []
  else
    ((countsFrom x.validated (min 128 (x.tail - x.validated).toNat)).filter fun c =>
      (x.copy? c).isNone && !x.stale.contains c && !s.entryAsked x.num c true).take (s.entryRoom x)

/-- Read the covered entries of a queue for which no copy is held (R97). -/
def State.fetchQueue (s : State) (q : Nat) : State :=
  match s.queue? q with
  | some x => s.readEntries x (s.toFetch x) false
  | none => s

/-- Ring position of a job counted from its queue's head. -/
def State.ringPos (s : State) (j : Job) : Nat := ((s.queue? j.queue).map fun q => (j.count - q.head).toNat).getD 0

/-! ## Output writes -/

/-- Write bytes off on of a job's destination, for a slot position (R52); mk gives the purpose from the offset in the destination. -/
def State.writeDstAt (pos : Nat) (s : State) (j : Job) (cls : TClass) (off : Nat) (data : Bytes) (mk : Nat → Purpose) : State :=
  (gather (j.dstFrags (off + data.length)) off data.length 0).foldl (fun s (x : Nat × Nat × Nat) =>
    s.issueAt pos .write cls j.domain x.1 x.2.1 (sub data x.2.2 x.2.1) fun o => mk (off + x.2.2 + o)) s

/-- Write bytes off on of a job's destination, for the slot position of its last slice (R52). -/
def State.writeDst (s : State) (j : Job) (cls : TClass) (off : Nat) (data : Bytes) (mk : Nat → Purpose) : State :=
  s.writeDstAt j.lastPos j cls off data mk

/-- A write of the job's output, zeros or results has no response yet, one that was cut after it had been sent among them; or an output buffer of a lane holds some still (R19, R169, Table 15.8). -/
def State.writesOut (s : State) (q : Nat) (c : BitVec 17) : Bool :=
  (s.txns.any fun t => t.op == .write && (!t.dead || t.tag.isSome) && match t.purpose with
    | .output q' c' _ _ | .zero q' c' _ | .result q' c' => q' == q && c' == c
    | _ => false)
  || s.thyme.outs.any fun o => o.queue == q && o.count == c

/-! ## The end of a job -/

/-- Cut the pieces of a destination, each an address, a length and an offset, into the ranges that one zero-fill slot writes: at most 4,096 bytes in at most 32 beats (R170); off, len and beats are the range in hand. -/
def zeroCut : Nat → List (Nat × Nat × Nat) → Nat → Nat → Nat → List (Nat × Nat)
  | 0, _, off, len, _ => if len = 0 then [] else [(off, len)]
  | _, [], off, len, _ => if len = 0 then [] else [(off, len)]
  | fuel + 1, (a, n, o) :: ps, off, len, beats =>
    let m := min n (min (4096 - len) ((32 - beats) * 128 - a % 128))
    if n = 0 then zeroCut fuel ps off len beats
    else if m = 0 then (off, len) :: zeroCut fuel ((a, n, o) :: ps) o 0 0
    else
      let off := if len = 0 then o else off
      if m = n then zeroCut fuel ps off (len + m) (beats + beatsOf a m)
      else (off, len + m) :: zeroCut fuel ((a + m, n - m, o + m) :: ps) (o + m) 0 0

/-- The ranges of zero fill over the first bytes of a job's destination (R170, notes/assumptions/90). -/
def Job.zeroPieces (j : Job) (upto : Nat) : List (Nat × Nat) :=
  let ps := gather (j.dstFrags upto) 0 upto 0
  zeroCut (2 * (upto / 128 + ps.length) + 4) ps 0 0 0

/-- The completion record of a job, with the completion bytes that Table 4.9 places in the entry (R131): one write carries them. Its tick and deferred flag are those of the write's own tick: State.sentData (R145, R150). -/
def State.recordOf (s : State) (j : Job) (st : Status) : Bytes :=
  if j.queue = 0 then j.adminRecord st (s.deferred j.domain) s.thyme.tick else j.record st (s.deferred j.domain) s.thyme.tick

/-- Issue the completion writes of a queue in ring order from count c on (R20, R105, R145). -/
def State.issueFrom (q : Nat) : Nat → BitVec 17 → State → State
  | 0, _, s => s
  | fuel + 1, c, s =>
    match s.queue? q, s.job? q c with
    | some x, some j =>
      if j.issued then State.issueFrom q fuel (c + 1) s
      else if j.phase == .ended then
        let st := j.status.getD .ok
        let r := s.recordOf j st
        let s := s.issue .write .metadata j.domain (x.addr c) r.length r fun _ => .completion q c
        let s := (s.setJob q c fun j => { j with phase := .completing }).dropCtxs q c
        State.issueFrom q fuel (c + 1) s
      else s
    | _, _ => s

/-- Issue every completion of a queue that can be issued. -/
def State.issueCompletions (s : State) (q : Nat) : State :=
  match s.queue? q with
  | none => s
  | some x => State.issueFrom q (s.fennel.jobs.filter (·.queue == q)).length x.head s

/-- A read of the Deferred Error log with clear takes effect (R356, R358): the entries that it wrote leave the log, and a domain without entries is pending no longer. -/
def State.clearLog (s : State) (j : Job) : State :=
  if !(j.queue == 0 && eOp j.entry == 0x02 && eSub j.entry == 1 && j.status == some .ok && (byteAt j.entry 36).getLsbD 0) then s
  else
    let d := fieldLe j.entry 24 2
    let keep (e : DefErr) : Bool := !(e.domain == d && j.deliveredIdx.contains e.load.toNat)
    let log := s.admin.defLog.filter keep
    let s := { s with admin := { s.admin with defLog := log, defLost := if log.isEmpty then 0 else s.admin.defLost } }
    s.setDomain d fun x => if log.any (·.domain == d) then x else { x with deferred := false }

/-- A job whose outputs and zeros have all returned has ended; its completion is issued in its turn (R19). -/
def State.settle (s : State) (q : Nat) (c : BitVec 17) : State :=
  match s.job? q c with
  | none => s
  | some j =>
    if j.phase == .writing && j.zeros.isEmpty && !s.writesOut q c && !(j.slices.any fun x => x.state == .delivered) then
      ((s.clearLog j).setJob q c fun j => { j with phase := .ended, slices := [], data := [] }).issueCompletions q
    else s

/-- s without the output that a job's slices have left in lanes, but for the zeros of a failed comparison: it is discarded (R153). -/
def State.dropOuts (s : State) (q : Nat) (c : BitVec 17) : State :=
  { s with thyme := { s.thyme with outs := s.thyme.outs.filter fun o => !(o.queue == q && o.count == c) || o.zeroed } }

/-- s without the issues of a job (R21): their results are discarded. -/
def State.dropIssues (s : State) (q : Nat) (c : BitVec 17) : State :=
  { s with thyme := { s.thyme with issues := s.thyme.issues.filter fun i => !(i.queue == q && i.count == c) } }

/-- End a job with a status, unless it has ended: its reads and issues are dropped, zero fill of the destination up to a bound is asked for (R149, R170), and the links after it are broken when it did not end OK (R139). -/
def State.endJobZ (s : State) (q : Nat) (c : BitVec 17) (st : Status) (zeroTo : Nat) : State :=
  match (s.job? q c).filter (·.status.isNone) with
  | none => s
  | some j =>
    let s := s.killTxns fun t => t.op == .read && t.purpose.job? == some (q, c)
    let s := s.dropIssues q c
    let s := if st == .ok then s else s.dropOuts q c
    let left (x : Slice) : Bool := x.state == .writing || (st == .ok && x.state == .delivered)
    let s := s.setJob q c fun j => { j with status := some st, phase := .writing, hasRecord := false,
                                            slices := j.slices.filter left, zeros := j.zeroPieces zeroTo }
    let s := if st != .ok && q != 0 && eChain j.entry then s.setQueue q fun x => { x with chainBroken := true } else s
    s.settle q c

/-- End a job with a status; an authenticated decrypt that has written output is zeroed whole (R149). -/
def State.endJob (s : State) (q : Nat) (c : BitVec 17) (st : Status) : State :=
  match s.job? q c with
  | none => s
  | some j =>
    let zero := isAuthDec (eOp j.entry) (eSub j.entry) && (st == .authFail || (st != .ok && j.wroteOutput)) && q != 0
    s.endJobZ q c st (if zero then eLen j.entry else 0)

/-! ## Keys (R194) -/

/-- The second handle of a 0x60 is used (Table 8.2), and the first: as a type 0x3 record or as a KEK. -/
def usesKey60 (sub : Nat) : Bool := pkRecSub sub || pkKekSub sub

/-- Key fields in use: key and key2. -/
def keyFields (op sub : Nat) : Bool × Bool :=
  if op == 0x60 then (usesKey60 sub, pkTargetSub sub) else (usesKey op, usesKey2 op)

/-- Check 1 of R194: key-less fields and the namespace. -/
def State.keyCheck1 (s : State) (j : Job) : Bool :=
  let (k1, k2) := keyFields (eOp j.entry) (eSub j.entry)
  let h2 := if j.gen == .a then 0 else eKey2 j.entry
  let ok (used : Bool) (h : Nat) := if used then (s.domain? j.domain).any fun x => inWindow x h else h == 0
  ok k1 (eKey j.entry) && ok k2 h2

/-- The entry of the job names a handle, in a key field or as a member of the pair that it names (R355). -/
def Job.names (j : Job) (h : Nat) : Bool :=
  let used := keyFields (eOp j.entry) (eSub j.entry)
  j.keys.any (fun k => k.handle == h) || (used.1 && eKey j.entry == h) || (used.2 && j.gen != .a && eKey2 j.entry == h)

/-- The job needs the material of the key2 slot: a wrap, or a MAC; targets need none. -/
def needs2 (op : Nat) : Bool := op == 0x24 || op == 0x50

/-- Keys that a job looks up in BAY after check 1; a type 0x3 record takes no slot. -/
def Job.firstKeys (j : Job) : List JobKey :=
  let op := eOp j.entry
  let (k1, k2) := keyFields op (eSub j.entry)
  (if k1 && !(op == 0x60 && pkRecSub (eSub j.entry)) then
     [{ role := .key, second := false, handle := eKey j.entry, failed := none }] else [])
  ++ (if k2 then [{ role := .key2, second := true, handle := eKey2 j.entry, failed := none }] else [])

/-- Where the key checks of a job stand. -/
inductive KeyStep where
  | wait
  | fail (st : Status)
  | ok
  deriving DecidableEq, Repr

/-- Check 2 of R194 over a list of keys: every one is looked up; the first failure counts. -/
def State.checkKeys (d : Nat) (op : Nat) : List JobKey → State → KeyStep → State × KeyStep
  | [], s, r => (s, r)
  | k :: ks, s, r =>
    match k.failed with
    | some st => State.checkKeys d op ks s (match r with
        | .fail _ => r
        | _ => .fail st)
    | none =>
      let (s, c) := s.checkSlot d k.handle (!k.second || needs2 op)
      State.checkKeys d op ks s (match r, c with
        | .fail _, _ => r
        | _, .fail st => .fail st
        | _, .wait => .wait
        | _, .ready _ => r)

/-- Rotation pairs among the loaded keys become the pair record and its two members (R204). -/
def State.expandPairs (s : State) (d : Nat) (ks : List JobKey) : List JobKey :=
  ks.flatMap fun k =>
    match s.recOf d k.handle with
    | some r =>
      if r.typ == 1 && (k.role == .key || k.role == .key2) then
        [{ k with role := .pair }, { k with role := .newer, handle := r.newer }, { k with role := .older, handle := r.older }]
      else [k]
    | none => [k]

/-- A pair member that the job runs: the newer one, and the older one of a decrypt or verify (R204). -/
def runsMember (op sub : Nat) (r : KeyRole) : Bool := r != .older || runsBoth op sub

/-- Class and bits of a public-key job's KEK and target (Table 8.2, R258, R260). -/
def pkKeyOk (k : JobKey) (r : KeyRec) : Bool :=
  if k.second then r.typ == 2 else (r.typ == 0 || r.typ == 2) && isAes r.alg && r.policy.getLsbD 4

/-- Check 3 of R194 for one key of a job. -/
def State.keyCheck3 (s : State) (j : Job) (k : JobKey) : Bool :=
  let op := eOp j.entry
  let sub := eSub j.entry
  match s.recOf j.domain k.handle with
  | none => false
  | some r =>
    if (k.role == .newer || k.role == .older) && r.typ != 0 then false
    else if op == 0x60 then pkKeyOk k r && !r.policy.getLsbD 9
    else if !runsMember op sub k.role then true
    else (if k.second then key2Ok op sub r
          else keyClassOk op sub r && r.policy.getLsbD (keyBit op sub) && (k.role != .pair || pairAllowed op))
      && restrictOk op sub (eHwIv j.entry) r

/-- Members of a pair are of the pair's class (R204). -/
def State.pairClass (s : State) (j : Job) : Bool :=
  j.keys.all fun k => k.role != .pair || match s.recOf j.domain k.handle with
    | some p => j.keys.all fun m => m.second != k.second || (s.recOf j.domain m.handle).any fun r => r.alg == p.alg
    | none => true

/-- The key that a field runs under: the key itself, or the newer member of a pair. -/
def Job.mainKey (j : Job) (second : Bool) : Option Nat :=
  (j.keys.find? fun k => k.second == second && (k.role == .key || k.role == .key2 || k.role == .newer)).map (·.handle)

/-- The older member of a pair that the job runs. -/
def Job.olderKey (j : Job) (second : Bool) : Option Nat :=
  if runsBoth (eOp j.entry) (eSub j.entry) then
    (j.keys.find? fun k => k.second == second && k.role == .older).map (·.handle) else none

/-- Length of the key of a field. -/
def State.keyLen (s : State) (j : Job) (second : Bool) : Nat :=
  ((j.mainKey second).bind fun h => s.recOf j.domain h).map (·.klen) |>.getD 0

/-- The passes of a job under the keys that it named. -/
def State.jobPasses (s : State) (j : Job) : List Pass :=
  passesOf j.entry (s.keyLen j false) (s.keyLen j true) (j.olderKey false).isSome (j.olderKey true).isSome

/-- Wrapped length of a key of klen bytes (R207). -/
def wrapLen (sub klen : Nat) : Nat := if sub == 1 then 8 + klen else wrappedLen klen

/-- AES-KW cannot wrap the key (R207). -/
def State.wrapDenied (s : State) (j : Job) : Bool :=
  let n := s.keyLen j true
  eOp j.entry == 0x24 && eSub j.entry == 1 && (n % 8 != 0 || n == 8)

/-- Slices of a job at the sizes of the keys that it named: a digest job under a rotation pair is counted at the pair's size, whichever members it runs (R159, R225). -/
def State.sliceTotal (s : State) (j : Job) : Nat :=
  let pair (second : Bool) := j.keys.any fun k => k.second == second && k.role == .pair
  let e := j.entry
  if eOp e == 0x41 then sliceCount (eLen e) (dillSize (eSub e) (pair false))
  else countSlices (passesOf e (s.keyLen j false) (s.keyLen j true) (j.olderKey false).isSome (pair true))

/-- Check 4 of R194: slice count, and the table sum of a wrapped key (R135, R159, R225). -/
def State.keyCheck4 (s : State) (j : Job) : Bool :=
  s.sliceTotal j ≤ 2 ^ 21
  && (eOp j.entry != 0x24 || match j.dstTable with
      | none => true
      | some t => fragSum t == wrapLen (eSub j.entry) (s.keyLen j true))

/-- The target slot of an unwrap must be pinned (R208). -/
def State.targetUnpinned (s : State) (j : Job) : Bool :=
  (eOp j.entry == 0x25 || eOp j.entry == 0x60) && j.keys.any fun k => k.second &&
    (s.slot? j.domain k.handle).any fun x => !x.pinned && (x.record.any fun r => r.typ == 2)

/-! ## Step 8 -/

/-- The statement key exists (R282, R397). -/
def State.attested (s : State) : Bool := s.lovage.attKey.isSome

/-- The svn of a bank passes step 4 of Table 8.11 against the count in OTP (R278). -/
def State.svnOk (s : State) (b : Bank) : Bool := b.sigKind == 0 || s.lovage.antiRollback ≤ b.svn

/-- A bank is being reloaded (R281, R379). -/
def State.reloading (s : State) : Bool := s.basil.verify.any (·.admin.isNone)

/-- The ACTIVE bank is being reloaded (R379). -/
def State.activeReloads (s : State) : Bool := s.basil.verify.any fun v => v.admin.isNone && v.active

/-- Some bank is ACTIVE, or the ACTIVE one reloads (R274, R379). -/
def State.bankActive (s : State) : Bool := s.basil.bankA.state == .active || s.basil.bankB.state == .active || s.activeReloads

/-- The bank that an operation's first step runs from (R279); while the ACTIVE one reloads, a STANDBY bank that passes step 4 (R379). -/
def State.runBank (s : State) : Option Bool :=
  if s.basil.bankA.state == .active then some false
  else if s.basil.bankB.state == .active then some true
  else if !s.activeReloads then none
  else if s.basil.bankA.state == .standby && s.svnOk s.basil.bankA then some false
  else if s.basil.bankB.state == .standby && s.svnOk s.basil.bankB then some true
  else none

/-- A sealed domain has no share of a unit that the job needs (R54). -/
def State.noShare (s : State) (j : Job) : Bool :=
  match s.planOf j.domain with
  | none => false
  | some p => p.cls == .sealed &&
    ((p.chive == 0 && j.passes.any fun x => x.unit == .chive) || (p.dill == 0 && j.passes.any fun x => x.unit == .dill)
     || (p.basil == 0 && (eOp j.entry == 0x60 || eOp j.entry == 0x70)))

/-- The curve entry that a public-key job names: in its parameter block, or in the curve block of a load. -/
def Job.curveEntry (j : Job) : Option Nat :=
  if eSub j.entry == 0x40 then (parseCurve (sub j.image 0 (eLen j.entry))).map (·.1) else j.aux.map ppCurve

/-- A job that is staged or running names a curve entry (R259, R273). -/
def State.curveInUse (s : State) (e : Nat) : Bool :=
  s.fennel.jobs.any fun j => j.phase == .basil && eOp j.entry == 0x60 && j.hasRecord && j.curveEntry == some e

/-- The job reached the last free object of a pool in the tick before: at the boundary it is served in its turn (R330). -/
def State.lastTurn (s : State) (j : Job) : Bool := j.asked.any (· < s.thyme.tick)

/-- The job has reached the last free object of a pool: it goes at the end of the tick, to the lower queue number (R330, notes/assumptions/110). -/
def State.askLast (s : State) (q : Nat) (c : BitVec 17) : State :=
  s.setJob q c fun j => { j with asked := j.asked.or (some s.thyme.tick) }

/-- Free on-die contexts for a domain (R233). -/
def State.ctxLeft (s : State) (d : Nat) : Nat := if s.isSealed d then s.ctxGuarantee d - s.onDieOf d else s.sharedCtxRoom - s.sharedOnDie

/-- Take the contexts that a job still needs (R232, R233), the last free one in its turn (R330). -/
def State.takeCtxs (s : State) (j : Job) : State × CtxGrant :=
  let has (older : Bool) := s.dill.ctxs.any fun x => x.queue == j.queue && x.count == j.count && x.older == older
  let n := j.ctxNeed
  let need := (if n ≥ 1 && !has false then 1 else 0) + (if n ≥ 2 && !has true then 1 else 0)
  if need ≥ 1 && s.ctxFree j.domain && decide (s.ctxLeft j.domain ≤ need) && !s.lastTurn j then (s.askLast j.queue j.count, .wait)
  else
    let (s, g) := if n ≥ 1 && !has false then s.takeCtx j false else (s, .taken)
    if g == .taken && n ≥ 2 && !has true then s.takeCtx j true else (s, g)

/-! ## Staging -/

/-- Slots of a domain in four consecutive frame ticks: R51 does not say in which four, and the model takes those with the most (DESIGN CHOICE, notes/assumptions/119). -/
def State.slots4 (s : State) (d : Nat) (u : LaneKind) : Nat :=
  ((List.range 16).map fun f =>
    (s.thyme.slotMap.filter fun x => x.domain == d && x.unit == u && (x.frame + 16 - f) % 16 < 4).length).foldl max 0

/-- Staging partition of a sealed domain (R51): one for all its jobs; a domain without CHIVE slots has its DILL slots (notes/assumptions/29). -/
def State.partition (s : State) (d : Nat) : Nat := if s.slots4 d .chive = 0 then s.slots4 d .dill else s.slots4 d .chive

/-- Slices of every sealed partition. -/
def State.sealedPool (s : State) : Nat := (s.thyme.compiled.map fun p => if p.2.cls == .sealed then s.partition p.1 else 0).sum

/-- A job's slices run on CHIVE first of all. -/
def Job.leadUnit (j : Job) : LaneKind := if j.passes.any fun p => p.unit == .chive then .chive else .dill

/-- Slices of a job in the staging pool; the buffer of a 0x50 serves both engines, until its CHIVE slice has been written back (R168). -/
def Job.poolCount (j : Job) : Nat :=
  (j.slices.filter fun x => match passAt j.passes 0 x.index with
    | some (p, k, base) =>
      if eOp j.entry == 0x50 then
        p.unit == .dill || !(j.slices.any fun y => (passAt j.passes 0 y.index).any fun (p', k', _) => p'.unit == .dill && k' == k) && k + base == x.index
      else p.reads
    | none => false).length

/-- Slices that the jobs p accepts have staged. -/
def State.stagedBy (s : State) (p : Job → Bool) : Nat := ((s.fennel.jobs.filter p).map Job.poolCount).sum

/-- The pool has room for one more slice of the job (R51): of its 256 slices, and of a sealed domain's partition or of what the partitions leave. -/
def State.poolRoom (s : State) (j : Job) : Bool :=
  decide (s.stagedBy (fun _ => true) < 256)
  && if s.isSealed j.domain then decide (s.stagedBy (·.domain == j.domain) < s.partition j.domain)
    else decide (s.stagedBy (fun x => !s.isSealed x.domain) < 256 - s.sealedPool)

/-- Job state records held. -/
def State.recordsOf (s : State) (p : Job → Bool) : Nat := (s.fennel.jobs.filter fun j => j.hasRecord && j.leadUnit == .chive && p j).length

/-- Job state records that the domain of a job may hold, and those of them that are taken (R161). -/
def State.recordPool (s : State) (j : Job) : Nat × Nat :=
  if s.isSealed j.domain then (s.partition j.domain, s.recordsOf (·.domain == j.domain))
  else (1024 - s.sealedPool, s.recordsOf fun x => !s.isSealed x.domain)

/-- The job has a job state record, needs none, or can take one (R160, R161). -/
def State.recordRoom (s : State) (j : Job) : Bool :=
  j.hasRecord || j.leadUnit == .dill || decide ((s.recordPool j).2 < (s.recordPool j).1)

/-- The job would take the last free record of its pool (R330). -/
def State.recordLast (s : State) (j : Job) : Bool :=
  !j.hasRecord && j.leadUnit == .chive && decide ((s.recordPool j).2 + 1 = (s.recordPool j).1)

/-- The last free record goes, at the end of the tick in which it is asked for, to the lower queue number (R330): State.retryAsked serves in that order. -/
def State.recordTurn (s : State) (j : Job) : Bool := !s.recordLast j || s.lastTurn j

/-- Slice indices that the next staging takes: both engines' slices of a 0x50. -/
def Job.stageIdx (j : Job) : List Nat :=
  if eOp j.entry == 0x50 then
    match j.passes with
    | [p, r] => ([(p, j.nextSlice), (r, p.count + j.nextSlice)].filter fun x => j.nextSlice < x.1.count && x.1.first ≤ j.nextSlice).map (·.2)
    | _ => []
  else if j.nextSlice < passSlices j.passes then [j.nextSlice] else []

/-- Every slice of the passes before a slice's pass has delivered. -/
def Job.earlierDone (j : Job) (i : Nat) : Bool :=
  match passAt j.passes 0 i with
  | some (_, _, base) => (List.range base).all fun k => j.deliveredIdx.contains k
  | none => false

/-- Source bytes [from, to) of slice i's staging buffer (R136, R165; a Gen A prefix and tag with the first and last slice). -/
def Job.bufRange (j : Job) (i : Nat) : Nat × Nat :=
  match passAt j.passes 0 i with
  | none => (0, 0)
  | some (p, k, _) =>
    let (x, y) := p.range k
    let h := srcHead j.gen j.entry
    let lo := if eOp j.entry == 0x1D && k > 0 then x - 16 else x
    (if k = 0 && p.start = 0 then 0 else h + lo,
     if k + 1 = p.count then h + y + srcTail j.gen j.entry else h + y)

/-- Source bytes [from, to) that staging slice i reads. -/
def Job.sourceRange (j : Job) (i : Nat) : Nat × Nat :=
  if (passAt j.passes 0 i).any fun p => p.1.reads then j.bufRange i else (0, 0)

/-- The lowest position of a unit that the slot map gives a domain: the slot position of its reads (R52, notes/assumptions/91). -/
def State.lowPos (s : State) (d : Nat) (u : LaneKind) : Nat :=
  ((s.thyme.slotMap.filter fun x => x.domain == d && x.unit == u).map (·.pos)).foldl min 64

/-- Read source bytes of a job for a slice (R52). -/
def State.readSource (s : State) (j : Job) (i : Nat) (r : Nat × Nat) : State :=
  (gather j.srcFrags r.1 (r.2 - r.1) 0).foldl (fun s (x : Nat × Nat × Nat) =>
    s.issueAt (s.lowPos j.domain j.leadUnit) .read (s.payloadClass j.domain) j.domain x.1 x.2.1 []
      fun o => .payload j.queue j.count i (r.1 + x.2.2 + o)) s

/-- The earliest tick in which a slice staged now is eligible (R17, R50). -/
def State.eligibleFrom (s : State) (d asked : Nat) : Nat :=
  if s.isSealed d then max (asked + 3) (s.thyme.tick + 1) else s.thyme.tick + 1

/-- The job draws its IV from MINT once, for the key that it runs under (R204, R210). -/
def State.drawIv (s : State) (q : Nat) (c : BitVec 17) : State :=
  match s.job? q c with
  | none => s
  | some j =>
    if !eHwIv j.entry || j.iv.isSome then s
    else match j.mainKey false with
      | none => s
      | some h =>
        if s.counterLast j.domain h && !s.lastTurn j then (s.askLast q c).setJob q c fun j => { j with phase := .ivWait }
        else
        let (s, r) := s.draw j.domain h
        match r with
        | .value v => s.setJob q c fun j => { j with iv := some v, phase := .slices, asked := none }
        | .wait => s.setJob q c fun j => { j with phase := .ivWait }
        | .fail st => s.endJob q c st

/-- Destination bytes of the CHIVE slice beside DILL slice i of an encrypting 0x50, once it has delivered: the ciphertext that the DILL slice runs over (R181). -/
def Job.cipherSpan (j : Job) (i : Nat) : Option (Nat × Nat) :=
  match j.passes with
  | [a, b] =>
    if eOp j.entry == 0x50 && a.unit == .chive && a.count ≤ i && j.deliveredIdx.contains (i - a.count) then
      let (x, y) := msgRange (eAad j.entry) (b.range (i - a.count))
      some (if comboCbc (eSub j.entry) then (x / 16 * 16, y / 16 * 16) else (x, y))
    else none
  | _ => none

/-- What the staging buffer of slice i holds once it is staged: its range of the source; of a DILL slice its payload (R50, R180). -/
def Job.staged (j : Job) (i : Nat) : Bytes :=
  let r := j.bufRange i
  if j.onDill i then
    match passAt j.passes 0 i with
    | some (p, k, _) =>
      let h := srcHead j.gen j.entry + (p.range k).1
      match j.cipherSpan i with
      | some (a, b) => sub j.image h (eAad j.entry - (p.range k).1) ++ sub j.image (srcHead j.gen j.entry + eAad j.entry + a) (b - a)
      | none => sub j.image h ((p.range k).2 - (p.range k).1)
    | none => []
  else sub j.image r.1 (r.2 - r.1)

/-- The slices of a job whose reads have all arrived are staged, and the first of them draws the IV. -/
def State.sliceStaged (s : State) (q : Nat) (c : BitVec 17) (i : Nat) : State :=
  match s.job? q c with
  | none => s
  | some j =>
    let mates := if eOp j.entry == 0x50 then
        match j.passes with
        | [p, _] => [i % p.count, p.count + i % p.count]
        | _ => [i]
      else [i]
    let s := s.setJob q c fun j => { j with
      stagedTick := if j.slices.all fun x => x.state == .reading then s.thyme.tick else j.stagedTick,
      slices := j.slices.map fun x => if mates.contains x.index && x.state == .reading then
        { x with state := .staged, eligible := s.eligibleFrom j.domain x.asked, buf := j.staged x.index } else x }
    s.drawIv q c

/-- A slice that is being read. -/
def newSlice (i tick : Nat) : Slice :=
  { index := i, state := .reading, asked := tick, eligible := tick + 1, fails := 0, retry := false, pos := 0, votes := [],
    buf := [], inputs := none, out := [], fault := none }

/-- Stage the next slice of a job when the pool and the records have room (R51, R160, R161). -/
def State.stageNext (s : State) (q : Nat) (c : BitVec 17) : Option State :=
  match s.job? q c with
  | none => none
  | some j =>
    let idx := j.stageIdx
    let ready := (j.phase == .slices || j.phase == .ivWait) && !idx.isEmpty
      && (eOp j.entry == 0x50 || j.earlierDone j.nextSlice) && s.recordRoom j && s.recordTurn j
      && (s.poolRoom j || idx.all fun i => (passAt j.passes 0 i).all fun p => !p.1.reads)
    if !ready then none
    else
      let i := (idx.find? fun i => (passAt j.passes 0 i).any fun p => p.1.unit == .dill).getD (idx.getLastD 0)
      let r := j.sourceRange i
      let s := s.setJob q c fun j => { j with
        slices := j.slices ++ idx.map fun i => newSlice i s.thyme.tick, nextSlice := j.nextSlice + 1,
        hasRecord := j.hasRecord || j.leadUnit == .chive,
        jrec := if j.hasRecord then j.jrec else .fresh }
      some (if r.2 ≤ r.1 then s.sliceStaged q c i else s.readSource j i r)

/-- Stage slices of one job while there is room. -/
def State.stageJob (q : Nat) (c : BitVec 17) : Nat → State → State
  | 0, s => s
  | fuel + 1, s => match s.stageNext q c with
    | some s' => State.stageJob q c fuel s'
    | none => s

/-- A job that found the last free record in this tick takes its turn for it (R330). -/
def State.askRecord (s : State) (q : Nat) (c : BitVec 17) : State :=
  match s.job? q c with
  | some j => if (j.phase == .slices || j.phase == .ivWait) && !j.stageIdx.isEmpty && s.recordLast j then s.askLast q c else s
  | none => s

/-- Order in which jobs stage: sealed domains in their own partitions, shared ones in the borrowing order of R53, and one domain's jobs in that of R39 (R51, R259). -/
def State.stageKey (s : State) (j : Job) : List Nat :=
  (if s.isSealed j.domain then [0, 0] else [1, (8388608 - assocD (s.credits j.leadUnit) j.domain 0).toNat])
    ++ [j.domain, if j.express then 0 else 1, j.queue, s.ringPos j]

/-- The jobs in the order in which they stage. -/
def State.stageOrder (s : State) : List (Nat × BitVec 17) := (sortKey s.stageKey s.fennel.jobs).map fun j => (j.queue, j.count)

/-! ## Public-key staging (R259) -/

/-- Sequencers that a domain may use: its held positions, and for a shared domain the unheld ones (R55). -/
def State.usable (s : State) (d : Nat) : List Nat :=
  (List.range 14).filter fun p =>
    (nth s.thyme.basilOf p none == some d) || (!s.isSealed d && nth s.thyme.basilOf p none == none)

/-- Public-key jobs of a domain that hold a staging buffer and do not run yet. -/
def State.basilStaged (s : State) (d : Nat) : Nat :=
  (s.fennel.jobs.filter fun j => j.domain == d && j.phase == .basil && j.hasRecord && j.firstTick.isNone).length

/-- The operand block has arrived, and the record with its use index when the key is a type 0x3 record (R17, R259). -/
def State.basilReady (s : State) (j : Job) : Bool :=
  j.phase == .basil && j.hasRecord && j.firstTick.isNone
  && !(s.txns.any fun t => !t.dead && t.op == .read && t.purpose.job? == some (j.queue, j.count))
  && (!(eOp j.entry == 0x60 && pkRecSub (eSub j.entry)) || (j.pk.isSome && j.pkUse.isSome))

/-- Stage a public-key job: operand block, and KEY_LOAD with one use for a type 0x3 record (R259). -/
def State.stageBasil (s : State) (q : Nat) (c : BitVec 17) : State :=
  match s.job? q c with
  | none => s
  | some j =>
    if j.phase != .basil || j.hasRecord || s.basilStaged j.domain ≥ (s.usable j.domain).length then s
    else
      let s := s.setJob q c fun j => { j with hasRecord := true, stagedTick := s.thyme.tick + 1 }
      let s := if eOp j.entry == 0x60 && eSub j.entry != 0x40 && eLen j.entry > 0 then s.readSource j 0 (0, eLen j.entry) else s
      if eOp j.entry == 0x60 && pkRecSub (eSub j.entry) then
        if !s.kbUp then s.endJob q c .keyDenied
        else (s.kbRaise .keyLoad j.domain (eKey j.entry) (.job q c) none 0).kbRaise (.useReserve 1) j.domain (eKey j.entry)
          (.job q c) none 0
      else s

/-- Stage everything that can be staged. -/
def State.stageAll (s : State) : State :=
  s.stageOrder.foldl (fun s qc => ((State.stageJob qc.1 qc.2 257 s).askRecord qc.1 qc.2).stageBasil qc.1 qc.2) s

/-! ## Validation -/

/-- A new job at the aux phase. -/
def newJob (x : Queue) (c : BitVec 17) (entry : Bytes) (express : Bool) (tick : Nat) : Job :=
  { queue := x.num, count := c, domain := x.domain, gen := x.gen, entry := entry, express := express, phase := .aux,
    aux := none, srcTable := none, dstTable := none, tableBuf := [], tableChecks := [], tablePort := none, tableAgain := false, data := [], slices := [], passes := [], nextSlice := 0,
    deliveredIdx := [], lastPos := 0, hasRecord := false, jrec := .fresh, made := [], madeOld := [], keys := [], found := false, charged := false, asked := none, iv := none, firstTick := none, stagedTick := tick,
    pk := none, pkUse := none, outTag := [], detail := 0, bytesDone := 0, acked := [], wroteOutput := false,
    status := none, retried := false, shadowed := false, pairBoth := false, pairOld := false, deferredFlag := false, time := none,
    zeros := [], result0 := 0, result1 := 0, adminDetail := 0xFFFF, resetMark := false }

/-- After the keys: step 8, then the job's own unit (R54, R232, R274, R273, R397). -/
def State.enterRun (s : State) (q : Nat) (c : BitVec 17) : State :=
  match s.job? q c with
  | none => s
  | some j =>
    let op := eOp j.entry
    let s := s.setJob q c fun j => { j with passes := s.jobPasses j, asked := none }
    match s.job? q c with
    | none => s
    | some j =>
      if s.noShare j then s.endJob q c .resourceBusy
      else if op == 0x60 && eSub j.entry == 0x40 && j.curveEntry.any s.curveInUse then s.endJob q c .resourceBusy
      else if (op == 0x60 || op == 0x70) && !s.bankActive then s.endJob q c .unsupported
      else if op == 0x70 && !s.attested then s.endJob q c .unsupported
      else if op == 0x60 || op == 0x70 then s.setJob q c fun j => { j with phase := .basil }
      else if op == 0x7F then s.setJob q c fun j => { j with phase := .command }
      else if op == 0x71 then
        (s.setJob q c fun j => { j with phase := .command, stagedTick := s.thyme.tick }).readSource j 0 (0, eLen j.entry)
      else
        let (s, g) := s.takeCtxs j
        match g with
        | .taken => s.setJob q c fun j => { j with phase := .slices, asked := none }
        | .wait => s.setJob q c fun j => { j with phase := .ctxWait }
        | .busy => s.endJob q c .resourceBusy

/-- Slots that the keys of a job have still to take. -/
def State.misses (s : State) (j : Job) : Nat := ((j.keys.map (·.handle)).eraseDups.filter fun h => (s.slot? j.domain h).isNone).length

/-- Slots that the jobs which ask for the last free one in this tick have to take. -/
def State.slotsAsked (s : State) : Nat :=
  ((s.fennel.jobs.filter fun j => j.asked == some s.thyme.tick && (j.phase == .keys || j.phase == .command)).map s.misses).sum

/-- The job would take the last free key slot, beside the jobs that ask for it already, and it is not its turn yet (R202, R330). -/
def State.slotLast (s : State) (j : Job) : Bool :=
  !s.lastTurn j && decide (0 < s.misses j) && decide (s.freeSlots ≤ s.misses j + s.slotsAsked) && (s.candidates j.domain).1

/-- Check 2 of R194 over a job's keys, and a second look over the members of a pair that it has found: where it stands, and the keys. -/
def State.lookAll (s : State) (j : Job) : State × KeyStep × List JobKey :=
  let a := State.checkKeys j.domain (eOp j.entry) j.keys s .ok
  let ks := a.1.expandPairs j.domain j.keys
  if ks.length > j.keys.length && a.2 == .ok then
    let s := a.1.setJob j.queue j.count fun j => { j with keys := ks }
    if ks.any fun k => (k.role == .newer || k.role == .older) && !((s.domain? j.domain).any fun x => inWindow x k.handle)
    then (s, .fail .keyDenied, ks)
    else if s.slotLast { j with keys := ks } then (s.askLast j.queue j.count, .wait, ks)
    else
      let b := State.checkKeys j.domain (eOp j.entry) ks s .ok
      (b.1, b.2, ks)
  else (a.1, a.2, ks)

/-- Checks 2 to 4 of R194 for a job that waits for its keys. -/
def State.keyProgress (s : State) (q : Nat) (c : BitVec 17) : State :=
  match s.job? q c with
  | none => s
  | some j =>
    if j.phase != .keys then s
    else if s.slotLast j then s.askLast q c
    else
      let x := s.lookAll j
      let s := x.1
      match x.2.1 with
      | .wait => s
      | .fail st => (s.setJob q c fun j => { j with keys := [] }).endJob q c st
      | .ok =>
        let j := { j with keys := x.2.2 }
        if s.targetUnpinned j then s.endJob q c .keyCacheFull
        else if !(j.keys.all fun k => s.keyCheck3 j k) || !s.pairClass j || s.wrapDenied j then s.endJob q c .keyDenied
        else if !s.keyCheck4 j then s.endJob q c .malformed
        else s.enterRun q c

/-- A job that waits for a context looks again (R233). -/
def State.retryCtx (s : State) (j : Job) : State :=
  if j.phase != .ctxWait then s
  else
    let (s, g) := s.takeCtxs j
    match g with
    | .taken => s.setJob j.queue j.count fun j => { j with phase := .slices, asked := none }
    | .wait => s
    | .busy => s.endJob j.queue j.count .resourceBusy

/-- Every job that waits for a context looks again, the lower queue first (R233). -/
def State.retryCtxs (s : State) : State :=
  (sortKey (fun j : Job => [j.queue, s.ringPos j]) (s.fennel.jobs.filter (·.phase == .ctxWait))).foldl State.retryCtx s

/-- A job whose turn for the last free object of a pool has come looks again: a key slot, for a Q1 job too (R202), a context, a counter record or a job state record (R330). -/
def State.takeLast (s : State) (j : Job) : State :=
  match j.phase with
  | .keys => s.keyProgress j.queue j.count
  | .command => (State.checkKeys j.domain (eOp j.entry) j.keys s .ok).1
  | .ctxWait => s.retryCtx j
  | .ivWait | .slices => State.stageJob j.queue j.count 257 (s.drawIv j.queue j.count)
  | _ => s

/-- Jobs that have waited for the turn of a last free object look again, the lower queue number first (R202, R330); the others look on as if they had not asked. -/
def State.retryAsked (s : State) : State :=
  let m := s.thyme.tick
  let s := (sortKey (fun j : Job => [j.queue, s.ringPos j]) (s.fennel.jobs.filter s.lastTurn)).foldl State.takeLast s
  let now (j : Job) : Job := { j with asked := j.asked.filter fun t => decide (m ≤ t) }
  { s with fennel := { s.fennel with jobs := s.fennel.jobs.map now } }

/-- Step 7: check 1, then BAY. -/
def State.enterKeys (s : State) (q : Nat) (c : BitVec 17) : State :=
  match s.job? q c with
  | none => s
  | some j =>
    if !s.keyCheck1 j then s.endJob q c .keyDenied
    else (s.setJob q c fun j => { j with phase := .keys, keys := j.firstKeys }).keyProgress q c

/-- Read the next beat of a fragment table, up to the next multiple of 128 (notes/assumptions/30). -/
def State.readTable (s : State) (j : Job) (dst : Bool) : State :=
  let a := (if dst then eDst j.entry else eSrc j.entry) + j.tableBuf.length
  s.issue .read .metadata j.domain a (128 - a % 128) [] fun _ => .table j.queue j.count dst

/-- Step 6: the source table, then the destination table, then the keys (R135); the curve block of a 0x40, which its checks at validation need, is read before the keys (R273). A buffer that takes no byte has no table read. -/
def State.enterFrags (s : State) (q : Nat) (c : BitVec 17) : State :=
  match s.job? q c with
  | none => s
  | some j =>
    let s := s.setJob q c fun j => { j with phase := .frags, tableBuf := [], tableChecks := [], tablePort := none, tableAgain := false }
    let j := { j with tableBuf := [] }
    let needDst := match dstLen j.gen j.entry with
      | some n => n != 0
      | none => if eOp j.entry == 0x60 then (j.aux.any fun b => hasResult (eSub j.entry) b) else eDst j.entry != 0
    if eSrcInd j.entry && j.srcTable.isNone && srcLen j.gen j.entry != 0 then s.readTable j false
    else if eDstInd j.entry && j.dstTable.isNone && needDst then s.readTable j true
    else if eOp j.entry == 0x60 && eSub j.entry == 0x40 then s.readSource j 0 (0, eLen j.entry)
    else s.enterKeys q c

/-- The curve block of a 0x40 has arrived, still at validation: its header and length, then the keys (Table 8.7, R273). -/
def State.curveBlock (s : State) (j : Job) : State :=
  if (parseCurve (sub j.image 0 (eLen j.entry))).isSome then s.enterKeys j.queue j.count else s.endJob j.queue j.count .malformed

/-- Length that step 6 can check for a destination table: Table 4.8's, or the result block's unless it follows an RSA private key (R135, R252). -/
def State.tableLen (s : State) (j : Job) : Option Nat :=
  if eOp j.entry == 0x60 then
    let b := j.aux.getD []
    if eSub j.entry == 0x01 then none else some (resultLen (eSub j.entry) b ((s.curveF (ppCurve b)).getD 0) (ppMod b / 8))
  else dstLen j.gen j.entry

/-- Bytes of the destination of a job that an alarm ends (R415), as far as they follow from what has been read: an RSA private result is as long as its operand, and the plaintext of a 0x04 or the response of a 0x05 is written only once it is formed (notes/assumptions/44). -/
def State.abortLen (s : State) (j : Job) : Nat :=
  match j.dstTable with
  | some t => fragSum t
  | none =>
    if j.queue = 0 || eDst j.entry = 0 then 0
    else if eOp j.entry == 0x24 then
      let n := s.keyLen j true
      if n = 0 then 0 else wrapLen (eSub j.entry) n
    else if eOp j.entry == 0x60 then
      match j.aux with
      | none => 0
      | some _ => (s.tableLen j).getD (eLen j.entry)
    else (dstLen j.gen j.entry).getD 0

/-- Zeros over the whole destination of a job that an alarm ends, and then its completion (R415). -/
def State.abortOut (s : State) (q : Nat) (c : BitVec 17) : State :=
  match s.job? q c with
  | none => s
  | some j =>
    let s := s.setJob q c fun j => { j with phase := .writing }
    (s.writeDst j (s.payloadClass j.domain) 0 (Sys2Proof.Machine.zeros (s.abortLen j)) fun o => .zero q c o).settle q c

/-- Bytes of the destination table of a job that an alarm ends have arrived. -/
def State.abortTable (s : State) (j : Job) (data : Bytes) : State :=
  let buf := j.tableBuf ++ data
  let s := s.setJob j.queue j.count fun j => { j with tableBuf := buf }
  match parseTable (chunks 16 buf) [] with
  | .bad => (s.setJob j.queue j.count fun j => { j with phase := .writing }).settle j.queue j.count
  | .more => s.readTable { j with tableBuf := buf } true
  | .whole t => (s.setJob j.queue j.count fun j => { j with dstTable := some t }).abortOut j.queue j.count

/-- A table read so far fails its flit check at validation: it is read again from its first byte through another active port, and a second failure ends the job (Table 12.1). -/
def State.tableUnsound (s : State) (j : Job) (dst : Bool) : State :=
  if j.tableAgain then s.endJob j.queue j.count .flitCheckFail
  else
    let s := s.setJob j.queue j.count fun j => { j with tableBuf := [], tableChecks := [], tableAgain := true }
    (s.readTable { j with tableBuf := [] } dst).lastTxn fun t => { t with avoid := j.tablePort }

/-- Bytes of a fragment table have arrived through a port (R135): they join those that have passed their flit checks (R373). -/
def State.tableBytes (s : State) (q : Nat) (c : BitVec 17) (dst : Bool) (data : Bytes) (port : Nat) : State :=
  match s.job? q c with
  | none => s
  | some j =>
    if j.status == some .tamperAbort then s.abortTable j data
    else if j.tableChecks != flitChecks j.tableBuf then s.tableUnsound j dst
    else
    let buf := j.tableBuf ++ data
    let s := s.setJob q c fun j => { j with
      tableBuf := buf, tableChecks := flitChecks buf, tablePort := some (j.tablePort.getD port) }
    match parseTable (chunks 16 buf) [] with
    | .bad => s.endJob q c .malformed
    | .more => s.readTable { j with tableBuf := buf } dst
    | .whole t =>
      let want := if dst then s.tableLen j else some (srcLen j.gen j.entry)
      if want.any fun n => n != fragSum t then s.endJob q c .malformed
      else
        let s := s.setJob q c fun j => if dst then { j with dstTable := some t } else { j with srcTable := some t }
        s.enterFrags q c

/-- The aux or parameter block has arrived: the rest of step 5 (R120, R163, R252, R273). -/
def State.auxBytes (s : State) (q : Nat) (c : BitVec 17) (data : Bytes) : State :=
  match s.job? q c with
  | none => s
  | some j =>
    let s := s.setJob q c fun j => { j with aux := some data }
    let e := j.entry
    if eOp e == 0x60 then
      match s.pkParam (eSub e) data (eLen e) (eDst e) with
      | some st => s.endJob q c st
      | none => s.enterFrags q c
    else if !auxOk j.gen e data then s.endJob q c .malformed
    else s.enterFrags q c

/-- Bytes of the aux block that Duern reads: 16 of a 0x70, else all 80 (R120). -/
def auxLen (e : Bytes) : Nat := if eOp e == 0x70 then 16 else 80

/-- Steps 3 to 5 of a data-queue or Q1 entry, then its reads. -/
def State.startJob (s : State) (x : Queue) (c : BitVec 17) (link : Nat) : State :=
  match s.job? x.num c with
  | none => s
  | some j =>
    let e := j.entry
    match structCheck x.num x.domain x.gen e link with
    | some st => s.endJob x.num c st
    | none =>
      if eOp e == 0x60 && !pkSubs.contains (eSub e) then s.endJob x.num c .malformed
      else if needsAux x.gen e then
        s.issue .read .metadata x.domain (eAux e) (auxLen e) [] fun _ => .aux x.num c
      else s.enterFrags x.num c

/-- A job of the queue is still in steps 5 to 8 (R101: in count order). -/
def State.validating (s : State) (q : Nat) : Bool :=
  s.fennel.jobs.any fun j => j.queue == q && (j.phase == .aux || j.phase == .frags || j.phase == .keys || j.phase == .ctxWait)

/-- FENNEL validates entries now: not in Alarm; in Drain only what was accepted before it (R72, R433). An entry whose aux block, tables or keys are still awaited at the boundary after the entry to Drain counts as validated before it: its checks end in Drain and its slices are issued (DESIGN CHOICE, notes/assumptions/122). -/
def State.validates (s : State) : Bool :=
  match s.mode.mode with
  | .service | .degraded | .quiesce => true
  | .drain => s.thyme.tick == s.mode.drainTick
  | _ => false

/-- Fields of the interrupt settings in params (Table 11.4): offset and bits. -/
def queueFields : List (Nat × Nat) := [(32, 10), (34, 2), (35, 5), (36, 16), (38, 8), (39, 1), (40, 16)]

/-- Fields of the event queue settings at an offset (Table 11.8). -/
def eventFields (o : Nat) : List (Nat × Nat) := [(o, 52), (o + 8, 16), (o + 10, 2), (o + 12, 16), (o + 14, 8), (o + 15, 8)]

/-- Listed fields of the params of a command (Tables 11.4 and 11.5, R357). -/
def adminFields (op sub : Nat) : List (Nat × Nat) :=
  match op with
  | 0x02 => [(32, 32), (36, 1)]
  | 0x03 | 0x04 => match sub with
    | 1 => queueFields
    | 2 => eventFields 32
    | _ => [(32, 8), (34, 10), (36, 17), (40, 52), (48, 5)]
  | 0x08 => queueFields ++ [(48, 52)]
  | 0x09 => [(32, 10)]
  | 0x0C | 0x0D => [(32, 128), (48, 24), (51, 5), (52, 17), (56, 52), (64, 16)] ++ eventFields 72
  | 0x10 => [(32, 16)]
  | 0x11 => [(32, 24), (36, 24)]
  | _ => []

/-- Bits of byte i of an entry that a field covers. -/
def fieldMask (i : Nat) (f : Nat × Nat) : Nat := if f.1 ≤ i then 2 ^ min 8 (f.2 - 8 * (i - f.1)) - 1 else 0

/-- The first byte of params with a reserved bit set (R10). -/
def adminReserved (e : Bytes) : Option Nat :=
  ((List.range 96).map (· + 32)).find? fun i =>
    let m := (adminFields (eOp e) (eSub e)).foldl (fun m f => m ||| fieldMask i f) 0
    (byteAt e i).toNat &&& m != (byteAt e i).toNat

/-- The subop names an option of the command (Table 11.3). -/
def adminSubOk (op sub : Nat) : Bool :=
  match op with
  | 0x05 | 0x0E => sub ≤ 1
  | 0x06 => sub ≤ 3
  | 0x10 => 1 ≤ sub && sub ≤ 9
  | 0x11 => sub ≤ 2
  | 0x02 | 0x03 | 0x04 => true
  | _ => sub == 0

/-- The subop is a log page or a feature (Tables 11.5 and 11.6), where the command names one. -/
def adminNameOk (op sub : Nat) : Bool :=
  if op == 0x02 then 1 ≤ sub && sub ≤ 4 else if op == 0x03 || op == 0x04 then 1 ≤ sub && sub ≤ 3 else true

/-- The command has a data buffer (Table 11.3). -/
def adminBuffer (op sub : Nat) : Bool := op == 0x01 || op == 0x02 || op == 0x03 || op == 0x05 || (op == 0x11 && sub != 0)

/-- Size of a log page (Table 11.6). -/
def pageSize (sub : Nat) : Nat :=
  match sub with
  | 1 => 8208
  | 2 => 21568
  | 3 => 8192
  | _ => 1040

/-- The data buffer length that the command allows (R349, R360); a package's is judged with the package, a log page's with the page's other parameters. -/
def adminLenOk (e : Bytes) : Bool :=
  let l := eLen e
  match eOp e with
  | 0x01 => l == 4096
  | 0x03 => l == 32
  | 0x02 | 0x05 => true
  | _ => if adminBuffer (eOp e) (eSub e) then l != 0 else l == 0

/-- Commands that name no domain (Table 11.3), log pages of the device among them (Table 11.6). -/
def adminNoTarget (op sub : Nat) : Bool :=
  op == 0x01 || op == 0x05 || op == 0x06 || op == 0x10 || (op == 0x02 && (sub == 2 || sub == 4))

/-- Command codes of Table 11.3. -/
def adminKnown (op : Nat) : Bool := [0x01, 0x02, 0x03, 0x04, 0x05, 0x06, 0x08, 0x09, 0x0C, 0x0D, 0x0E, 0x10, 0x11].contains op

/-- Step 3 of Table 4.12 for an admin entry: the offset of the first field with a reserved bit set (Tables 4.1 and 11.1); the parameters of a command that is not known have none. -/
def adminStep3 (e : Bytes) : Option Nat :=
  if bits (byteAt e 1).toNat 6 0 != 0 then some 1
  else if bits (byteAt e 7).toNat 7 4 != 0 then some 7
  else if byteAt e 15 != 0 then some 12
  else if fieldLe e 16 8 ≥ 2 ^ 52 then some 16
  else if fieldLe e 24 4 ≥ 512 then some 24
  else if fieldLe e 28 4 != 0 then some 28
  else if adminKnown (eOp e) && adminNameOk (eOp e) (eSub e) then adminReserved e
  else none

/-- Commands that need an existing target domain (Table 11.3). -/
def adminOnDomain (op sub : Nat) : Bool :=
  (op == 0x02 && sub == 3) || op == 0x03 || op == 0x04 || op == 0x08 || op == 0x09 || op == 0x0D || op == 0x0E || op == 0x11

/-- The checks of a command's own parameters that need the entry's bytes only (R357, Tables 11.3 and 11.5). -/
def adminParams (e : Bytes) : Option (Status × Nat) :=
  let op := eOp e
  let sub := eSub e
  if op == 0x02 && !(16 ≤ eLen e && fieldLe e 32 4 + eLen e ≤ pageSize sub) then some (.malformed, 8)
  else if op == 0x02 && fieldLe e 32 4 % 16 != 0 then some (.malformed, 32)
  else if op == 0x04 && sub == 3 && !([1, 2, 3, 4].contains (byteAt e 32).toNat) then some (.malformed, 32)
  else if op == 0x02 && sub != 1 && byteAt e 36 != 0 then some (.malformed, 36)
  else if op == 0x11 && sub == 0 && fieldLe e 36 3 != 0 then some (.malformed, 36)
  else none

/-- Checks of an admin entry at its validation: those of Table 4.12, then its target, known or not, then its own parameters (R344, Tables 11.1 and 11.3 to 11.7, R341, R351): the status and the offset of the field that failed. -/
def adminCheck (known : Bool) (e : Bytes) : Option (Status × Nat) :=
  let op := eOp e
  let sub := eSub e
  match adminStep3 e with
  | some i => some (.malformed, i)
  | none =>
    if !adminKnown op then some (.unsupported, 4)
    else if !adminNameOk op sub then some (.unsupported, 5)
    else if !adminSubOk op sub then some (.malformed, 5)
    else if eMac e != 0 then some (.malformed, 6)
    else if byteAt e 7 != 0 then some (.malformed, 7)
    else if !adminLenOk e then some (.malformed, 8)
    else if eKey e != 0 then some (.malformed, 12)
    else if fieldLe e 16 8 % 16 != 0 || (fieldLe e 16 8 != 0) != adminBuffer op sub then some (.malformed, 16)
    else if adminNoTarget op sub && fieldLe e 24 2 != 0 then some (.malformed, 24)
    else if adminOnDomain op sub && !known then some (.malformed, 24)
    else adminParams e

/-- A held copy fails its flit check at validation, for the first time: the entry is read again through another active port (Table 12.1). -/
def State.copyUnsound (s : State) (x : Queue) (e : EntryCopy) : State :=
  let keep (k : EntryCopy) : Bool := k.count != e.count
  let s := s.setQueue x.num fun y => { y with copies := y.copies.filter keep, unsound := y.unsound ++ [e.count] }
  (s.readBeat x [e.count] false false).lastTxn fun t => { t with avoid := e.port }

/-- A copy fails the check that it is held with (R372, R373). -/
def EntryCopy.fails (e : EntryCopy) : Bool := e.bad.isNone && e.checks != flitChecks e.bytes

/-- Status with which a validated copy ends its count without being run: its own, or FLIT_CHECK_FAIL after the second failure of its check (Table 12.1). -/
def EntryCopy.ends (e : EntryCopy) : Option Status := if e.fails then some .flitCheckFail else e.bad

/-- Validate the next count of a queue, when it can be (R101, R138, R343). -/
def State.validateOne (s : State) (q : Nat) : Option State :=
  match s.queue? q with
  | none => none
  | some x =>
    let c := x.validated
    match x.copy? c with
    | none => none
    | some e =>
      let linked := x.chainLen != 0
      if !s.validates || s.linkOff x.domain || !x.covered c || s.validating q || s.resetting x.domain
          || (q == 0 && s.fennel.jobs.any fun j => j.queue == 0)
          || (linked && s.fennel.jobs.any fun j => j.queue == q && j.count == c - 1) then none
      else if e.fails && !x.unsound.contains c then some (s.copyUnsound x e)
      else
        let chain := q != 0 && eChain e.bytes
        let s := s.setQueue q fun x => { x with
          validated := c + 1, copies := x.copies.filter (fun k => !(k.count == c)), unsound := x.unsound.filter (· != c),
          chainLen := if chain then x.chainLen + 1 else 0, chainBroken := chain && x.chainBroken }
        let s := s.addJob (newJob x c e.bytes (e.express && payloadLen e.bytes ≤ 2048) s.thyme.tick)
        some (
          match e.ends with
          | some st => s.endJob q c st
          | none =>
              if x.chainBroken && linked then s.endJob q c .chainBroken
              else if q == 0 then
                match adminCheck (s.domain? (fieldLe e.bytes 24 2)).isSome e.bytes with
                | some (st, off) => (s.setJob 0 c fun j => { j with adminDetail := BitVec.ofNat 16 off }).endJob 0 c st
                | none => s.setJob 0 c fun j => { j with phase := .command }
              else s.startJob x c (x.chainLen + 1))

/-- Validate what a queue's order allows; at most every held copy. -/
def State.pumpQueue (q : Nat) : Nat → State → State
  | 0, s => s
  | fuel + 1, s => match s.validateOne q with
    | some s' => State.pumpQueue q fuel s'
    | none => s

/-- Validate on every queue, the lower number first (R202, R233). -/
def State.pumpAll (s : State) : State :=
  s.fennel.queues.foldl (fun s x => State.pumpQueue x.num x.copies.length s) s

/-- Entry reads of every queue, while FENNEL validates. -/
def State.fetchAll (s : State) : State := if s.validates then s.fennel.queues.foldl (fun s x => s.fetchQueue x.num) s else s

/-- Suspended contexts of jobs with staged DILL slices come back (R236). -/
def State.restoreAll (s : State) : State :=
  s.fennel.jobs.foldl (fun s j =>
    if j.usesDill && j.phase == .slices && j.slices.any (fun x => x.state == .staged) then s.startRestore j.queue j.count else s) s

/-- FENNEL validates, fetches and stages, and contexts come back. -/
def State.fennelFlow (s : State) : State := if s.repeats .fennel then s else s.pumpAll.fetchAll.stageAll.restoreAll

/-- BAY and MINT send their requests. -/
def State.keyFlow (s : State) : State := if s.repeats .bay || s.repeats .mint then s else s.kbSend

/-- The units go as far as they can: revoked slots that nothing holds any more are zeroed (R203), and then validation, entry reads, staging, restores, and requests to the ports and the key bus. -/
def State.flow (s : State) : State := s.sweepRevoked.fennelFlow.sendAll.keyFlow

/-- The counts of a queue that jobs hold: covered, and validated already. -/
def Queue.inFlight (x : Queue) : List (BitVec 17) := countsFrom x.head (x.validated - x.head).toNat

/-- A queue's state is rebuilt (R378): held copies are discarded, one interrupt is requested, and the covered entries are read again from the head upward. -/
def State.rebuildQueue (s : State) (q : Nat) : State :=
  match s.queue? q with
  | none => s
  | some x =>
    let s := s.setQueue q fun y => { y with
      copies := [], stale := [], recheck := x.inFlight, unsound := [], pendingInt := 0, firstPending := none, urgentDue := false, lastInt := some s.thyme.tick }
    let s := s.irq x.domain x.vector
    (if s.linkOff x.domain || s.resetting x.domain then s else s.readEntries x x.inFlight false).fetchQueue q

end Sys2Proof.Machine
end

