-- ==== Sys2Proof/Machine/Crypt.lean ====
section
/-! DEFINITION. What a lane computes over a slice (R151, R160 to R166, R180, R181, R207, R208, R224, R227 to R230): ciphers by position, the streams that a job state record carries, shares of a final fold, wraps, data units and protection information (R133, R174 to R177), digests over a context (R232), and the two-key rule (Table 6.7). Where each slice's output lies. -/

namespace Sys2Proof.Machine

/-- Nonce of a CCM job, from the IV field. -/
def Job.ccmNonce (j : Job) : Bytes := j.ivField.take (eSub j.entry)

/-- Nonce of a SIV job. -/
def Job.sivNonce (j : Job) : Bytes := j.ivField.take (eSub j.entry)

/-- The V under which a SIV job's CTR runs: the input tag of a decrypt, pass 1's V of an encrypt (R166). -/
def Job.sivV (j : Job) : Bytes := if eOp j.entry == 0x21 then padTo 16 j.tagIn else j.jrec.first

/-- Counter blocks of a job's AES keystream (R163, R164, R166). -/
def Job.counter (j : Job) : Nat → Bytes :=
  match eOp j.entry with
  | 0x10 | 0x11 => fun i => inc32 (gcmJ0 j.ivField) (i + 1)
  | 0x14 | 0x15 => fun i => ccmCtr j.ccmNonce (i + 1)
  | 0x20 | 0x21 => add128 (sivQ j.sivV)
  | _ => add128 j.ivField

/-- Message bytes at offset m through the keystream of a job under a key (R163). -/
def Job.crypt (j : Job) (key : Bytes) (m : Nat) (b : Bytes) : Bytes :=
  match eOp j.entry with
  | 0x30 | 0x31 =>
    xorB b ((((List.range (ceilDiv (m % 64 + b.length) 64)).flatMap fun i =>
      chachaBlock key (j.ivField.take 12) (m / 64 + i + 1)).drop (m % 64)).take b.length)
  | 0x20 | 0x21 => xorB b (streamAt (sivCtrKey key) j.counter m b.length)
  | _ => xorB b (streamAt key j.counter m b.length)

/-- Blocks of the authenticated string of a final fold (R162). -/
def Job.authBlocks (j : Job) : Nat := ceilDiv (authLen j.entry) 16 + ceilDiv (textLen j.entry) 16 + 1

/-- A GCM slice's fold: its share, and the tag from the last slice (R162). a and c are associated data at position x and ciphertext at message offset m. -/
def Job.gcmFold (j : Job) (key : Bytes) (st : Stream) (x m : Nat) (a c : Bytes) (last : Bool) : Stream × Bytes :=
  let h := blockBits (aesEnc key (Machine.zeros 16))
  let n := j.authBlocks
  let lens := beBytes 8 (8 * authLen j.entry) ++ beBytes 8 (8 * textLen j.entry)
  let sum := BitVec.ofNat 128 st.acc ^^^ ghashShare h n x a ^^^ ghashShare h n (16 * ceilDiv (authLen j.entry) 16 + m) c
  if last then
    let sum := sum ^^^ ghashShare h n (16 * (n - 1)) lens
    ({ st with acc := sum.toNat }, xorB (bitsBlock sum) (aesEnc key (gcmJ0 j.ivField)))
  else ({ st with acc := sum.toNat }, [])

/-- A ChaCha20-Poly1305 slice's fold (R162, R163). -/
def Job.polyFold (j : Job) (key : Bytes) (st : Stream) (x m : Nat) (a c : Bytes) (last : Bool) : Stream × Bytes :=
  let otk := (chachaBlock key (j.ivField.take 12) 0).take 32
  let r := leNat (otk.take 16) &&& 0x0ffffffc0ffffffc0ffffffc0fffffff
  let n := j.authBlocks
  let base := 16 * ceilDiv (authLen j.entry) 16
  let sum := st.acc + polyShare r n x (authLen j.entry) a + polyShare r n (base + m) (base + textLen j.entry) c
  if last then
    let lens := leBytes 8 (authLen j.entry) ++ leBytes 8 (textLen j.entry)
    let sum := (sum + polyShare r n (16 * (n - 1)) (16 * n) lens) % polyP
    ({ st with acc := sum }, leBytes 16 (sum + leNat (otk.drop 16)))
  else ({ st with acc := sum % polyP }, [])

/-- B0 and the length encoding of the associated data of a CCM job (R164, SP 800-38C). -/
def Job.ccmStart (j : Job) : Bytes :=
  let nonce := j.ccmNonce
  let a := authLen j.entry
  let q := 15 - nonce.length
  BitVec.ofNat 8 ((if a = 0 then 0 else 64) + 8 * ((macLen j.entry - 2) / 2) + (q - 1)) :: nonce ++ beBytes q (textLen j.entry)
    ++ (if a = 0 then [] else if a < 65280 then beBytes 2 a else beBytes 2 0xFFFE ++ beBytes 4 a)

/-- The slice [x, y) of the payload holds the end of the associated data. -/
def Job.endsAad (j : Job) (x y : Nat) : Bool := decide (x = 0 ∨ x < authLen j.entry) && decide (authLen j.entry ≤ y)

/-- A CCM slice's CBC-MAC (R164). -/
def Job.ccmChain (j : Job) (key : Bytes) (st : Stream) (x y : Nat) (a p : Bytes) (last : Bool) : Stream × Bytes :=
  let st := if x = 0 then cbcAbsorb key { st with chain := Machine.zeros 16, part := [] } j.ccmStart else st
  let st := cbcAbsorb key st a
  let st := if j.endsAad x y then cbcPad key st else st
  let st := cbcAbsorb key st p
  if last then
    let st := cbcPad key st
    (st, xorB st.chain (aesEnc key (ccmCtr j.ccmNonce 0)))
  else (st, [])

/-- A slice of S2V: associated data, nonce and plaintext p at message offset m, as RFC 5297 chains them (R166). -/
def Job.sivChain (j : Job) (key : Bytes) (st : Stream) (x y m : Nat) (a p : Bytes) (last : Bool) : Stream × Bytes :=
  let k := sivMacKey key
  let l := textLen j.entry
  let st := if x = 0 then { st with chain := Machine.zeros 16, part := [], comps := cmac k (Machine.zeros 16) } else st
  let st := if a.isEmpty then st else if authLen j.entry ≤ y then sivComp st (cmacLast k st a) else cbcAbsorb k st a
  let st := if j.endsAad x y && !j.sivNonce.isEmpty then sivComp st (cmac k j.sivNonce) else st
  if l < 16 then
    let st := { st with part := st.part ++ (if j.endsAad x y || authLen j.entry ≤ x then p else []) }
    if last then (st, cmac k (xorB (cmacDbl st.comps) (padTo 16 (st.part ++ [0x80])))) else (st, [])
  else
    let z := p.zipIdx.map fun (b, i) => if l - 16 ≤ m + i then b ^^^ byteAt st.comps (m + i - (l - 16)) else b
    if last then (st, cmacLast k st z) else (cbcAbsorb k st z, [])

/-- A slice of CBC encryption: the carried block is completed, and whole blocks leave (R164). -/
def Job.cbcChain (j : Job) (key : Bytes) (st : Stream) (m : Nat) (b : Bytes) : Stream × Bytes :=
  let st := if m = 0 then { st with chain := j.ivField, part := [] } else st
  let d := st.part ++ b
  let n := d.length / 16 * 16
  let out := cbcEncBlocks key st.chain (chunks 16 (d.take n))
  ({ st with chain := out.getLastD st.chain, part := d.drop n }, out.flatten)

/-- One stream of an operation over payload bytes [x, y): the stream after it, its output, and the tag or V from the last slice of the pass. -/
def Job.streamStep (j : Job) (key : Bytes) (st : Stream) (x y : Nat) (pay : Bytes) (last : Bool) : Stream × Bytes × Bytes :=
  let cut := authLen j.entry - x
  let a := pay.take cut
  let b := pay.drop cut
  let m := x - authLen j.entry
  match eOp j.entry with
  | 0x10 =>
    let c := j.crypt key m b
    let r := j.gcmFold key st x m a c last
    (r.1, c, r.2)
  | 0x11 =>
    let r := j.gcmFold key st x m a b last
    (r.1, j.crypt key m b, r.2)
  | 0x12 =>
    let r := j.gcmFold key st x m a b last
    (r.1, [], r.2)
  | 0x14 =>
    let r := j.ccmChain key st x y a b last
    (r.1, j.crypt key m b, r.2)
  | 0x15 =>
    let p := j.crypt key m b
    let r := j.ccmChain key st x y a p last
    (r.1, p, r.2)
  | 0x20 =>
    let r := j.sivChain key st x y m a b last
    (r.1, [], r.2)
  | 0x21 =>
    let p := j.crypt key m b
    let r := j.sivChain key st x y m a p last
    (r.1, p, r.2)
  | 0x22 =>
    let st := if x = 0 then { st with chain := Machine.zeros 16, part := [] } else st
    if last then (st, [], cmacLast key st b) else (cbcAbsorb key st b, [], [])
  | 0x30 =>
    let c := j.crypt key m b
    let r := j.polyFold key st x m a c last
    (r.1, c, r.2)
  | 0x31 =>
    let r := j.polyFold key st x m a b last
    (r.1, j.crypt key m b, r.2)
  | 0x1C =>
    let r := j.cbcChain key st m b
    (r.1, r.2, [])
  | 0x50 => if comboCbc (eSub j.entry) then
      let r := j.cbcChain key st m b
      (r.1, r.2, [])
    else (st, j.crypt key m b, [])
  | _ => (st, j.crypt key m b, [])

/-! ## XTS and protection information -/

/-- Source bytes of a data unit with its protection information. -/
def xtsInSize (e : Bytes) : Nat := duBytes e + if ePiIn e then piBytes e else 0

/-- Destination bytes of a data unit with its protection information. -/
def xtsOutSize (e : Bytes) : Nat := duBytes e + if ePiOut e then piBytes e else 0

/-- Expected reference tag of data unit k (R133). -/
def refTag (e : Bytes) (k : Nat) : Nat :=
  if ePiFmt e = 1 then (eRefTag e + k) % 2 ^ 32 else (eRefHi e * 2 ^ 32 + eRefTag e + k) % 2 ^ 48

/-- Guard of a plaintext data unit. -/
def guardOf (e plain : Bytes) : Bytes :=
  if ePiFmt e = 1 then beBytes 2 (crcT10 plain).toNat else beBytes 8 (crcNvme64 plain).toNat

/-- Guard, application tag and reference tag of stored protection information. -/
def piSplit (e pi : Bytes) : Bytes × Nat × Nat :=
  if ePiFmt e = 1 then (pi.take 2, beNat (sub pi 2 2), beNat (sub pi 4 4))
  else (pi.take 8, beNat (sub pi 8 2), beNat (sub pi 10 6))

/-- The first check of R177 that data unit k fails: 1 guard, 2 application tag, 3 reference tag. -/
def piFails (g : Gen) (e plain pi : Bytes) (k : Nat) : Option Nat :=
  let (gd, app, rf) := piSplit e pi
  let mask := eAppMask g e
  if app = 0xFFFF then none
  else if eChkGuard e && gd != guardOf e plain then some 1
  else if eChkApp e && app &&& mask != eAppTag e &&& mask then some 2
  else if eChkRef e && rf != refTag e k then some 3
  else none

/-- Data unit k of an XTS job from its bytes: its output with protection information, and the check that fails (R175 to R177). -/
def Job.xtsOut (j : Job) (key : Bytes) (k : Nat) (unit : Bytes) : Bytes × Option Nat :=
  let e := j.entry
  let enc := eOp e == 0x18
  let data := unit.take (duBytes e)
  let pi := unit.drop (duBytes e)
  let out := xtsUnit enc key (eDun e + k) data
  let plain := if enc then data else out
  let made := guardOf e plain ++ beBytes 2 (eAppTag e) ++ (if ePiFmt e = 1 then beBytes 4 (refTag e k) else beBytes 6 (refTag e k))
  (out ++ (if ePiOut e then (if ePiIn e then pi else made) else []),
   if ePiIn e then piFails j.gen e plain pi k else none)

/-- Data units of an XTS job. -/
def xtsCount (e : Bytes) : Nat := eLen e / duBytes e

/-- Data units [from, to) of slice k (R174). -/
def xtsRange (e : Bytes) (k : Nat) : Nat × Nat :=
  let n := if eDuSize e = 1 then 1 else 8
  (min (k * n) (xtsCount e), min ((k + 1) * n) (xtsCount e))

/-! ## Slices' outputs -/

/-- Destination bytes [from, to) that slice i writes; a CBC chain writes whole blocks (R164, R180). -/
def Job.outSpan (j : Job) (i : Nat) : Nat × Nat :=
  match passAt j.passes 0 i with
  | none => (0, 0)
  | some (p, k, _) =>
    if !p.writes then (0, 0)
    else match eOp j.entry with
      | 0x18 | 0x19 =>
        let (a, b) := xtsRange j.entry k
        (a * xtsOutSize j.entry, b * xtsOutSize j.entry)
      | 0x24 | 0x40 | 0x41 => (0, 0)
      | op =>
        let (a, b) := msgRange (if hasAad op then eAad j.entry else 0) (p.range k)
        if isCbc op (eSub j.entry) then (a / 16 * 16, b / 16 * 16) else (a, b)

/-! ## Keys in use -/

/-- Material of a member under which the job runs: the older key after a selection of it (Table 6.7). -/
def State.keyFor (s : State) (j : Job) (second older : Bool) : Bytes :=
  ((if older then j.olderKey second else j.mainKey second).map fun h => s.matOf j.domain h).getD []

/-- A member counts for the two-key rule: present and past R195 (R205). -/
def Job.memberLives (j : Job) (second older : Bool) : Bool :=
  j.keys.any fun k => k.second == second && k.failed.isNone
    && (if older then k.role == .older else k.role == .newer || k.role == .key || k.role == .key2)

/-- Outcome of the two-key rule: verified, flags pair_both and pair_old (Table 6.7). -/
structure Chosen where
  ok : Bool
  both : Bool
  old : Bool
  deriving DecidableEq, Repr

/-- The two-key rule over the members' verdicts. -/
def twoKey (newer older : Bool) : Chosen :=
  { ok := newer || older, both := newer && older, old := !newer && older }

/-- The comparison of a decrypt or verify: what the last slice made, under the key or under both members of a pair, against the input tag (R169, R172, R173, R229, R230). -/
def Job.verdict (j : Job) : Chosen :=
  let second := eOp j.entry == 0x50
  let n := macLen j.entry
  let good (older : Bool) := j.memberLives second older && (if older then j.madeOld else j.made).take n == j.tagIn
  twoKey (good false) ((j.olderKey second).isSome && good true)

/-- The job judges the members of a pair before its second pass: a decrypt under a pair, and a 0x50 verify under one (R173, R230). -/
def Job.selects (j : Job) : Bool := isAuthDec (eOp j.entry) (eSub j.entry) && ((j.olderKey false).isSome || j.dillPair)

/-- The slice's write-back waits for the operation's own comparison: the last slice of an authenticated decrypt (R169), but for one that has selected its key before. -/
def Job.holdsLast (j : Job) (i : Nat) : Bool :=
  isAuthDec (eOp j.entry) (eSub j.entry) && !j.selects && i + 1 == passSlices j.passes

/-- The pass comes after a first pass. -/
def Job.secondPass (j : Job) (i : Nat) : Bool :=
  eOp j.entry != 0x50 && match j.passes with
    | p :: _ :: _ => p.count ≤ i
    | _ => false

/-- The key registers that a lane loads from BAY for slice i (R153, R173, R207, R222): the key, or in a second pass the selected member; the older member of a pair; the key that a wrap wraps. -/
def State.laneKeys (s : State) (j : Job) (i : Nat) : List Bytes :=
  let dill := (passAt j.passes 0 i).any (·.1.unit == .dill)
  let second := dill && eOp j.entry == 0x50
  if j.secondPass i then [s.keyFor j false j.pairOld, [], []]
  else [s.keyFor j second false, (if dill || eOp j.entry != 0x50 then s.keyFor j second true else []),
        if eOp j.entry == 0x24 then (s.keyFor j true false).take (s.keyLen j true) else []]

/-- Source bytes of the payload of slice i in its staging buffer. -/
def Job.slicePay (j : Job) (i : Nat) (buf : Bytes) : Bytes :=
  match passAt j.passes 0 i with
  | none => []
  | some (p, k, _) =>
    let (x, y) := p.range k
    sub buf (srcHead j.gen j.entry + x - (j.bufRange i).1) (y - x)

/-- What a CHIVE slice delivers: its output, the record after it, what the pass made under each member, and the failing check of R177. -/
structure Delivered where
  out : Bytes
  jrec : JobRec
  made : Bytes
  madeOld : Bytes
  fault : Option (Nat × Nat)
  deriving DecidableEq, Repr

/-- An XTS slice: its data units in order, up to the first whose check fails (R174 to R178). -/
def Job.runXts (j : Job) (key : Bytes) (k : Nat) (pay : Bytes) : Bytes × Option (Nat × Nat) :=
  let (a, b) := xtsRange j.entry k
  let n := xtsInSize j.entry
  (List.range (b - a)).foldl (fun acc i =>
    match acc.2 with
    | some _ => acc
    | none =>
      let r := j.xtsOut key (a + i) (sub pay (i * n) n)
      match r.2 with
      | some f => (acc.1, some (a + i, f))
      | none => (acc.1 ++ r.1, none)) ([], none)

/-- A wrap or unwrap slice of one stream (R207, R208). -/
def Job.runWrap (j : Job) (key m : Bytes) (st : Stream) (k : Nat) : Stream :=
  let start := if k = 0 then m else st.chain
  { st with chain := if eOp j.entry == 0x24 then kwSlice key start k else kwUnslice key start k }

/-- CBC decryption of a message part from offset m on: prior holds the ciphertext before it (R165, R180). -/
def Job.cbcOpen (j : Job) (key : Bytes) (m : Nat) (prior b : Bytes) : Bytes :=
  let carried := prior.drop (prior.length - m % 16)
  let c := if m < 16 then j.ivField else sub prior (prior.length - m % 16 - 16) 16
  let d := carried ++ b
  (cbcDecBlocks key c (chunks 16 (d.take (d.length / 16 * 16)))).flatten

/-- A lane runs slice i of a job from its staging buffer, under its key registers and the job's record (R151, R160, R183). -/
def Job.runChive (j : Job) (keys : List Bytes) (i : Nat) (buf : Bytes) : Delivered :=
  match passAt j.passes 0 i with
  | none => { out := [], jrec := j.jrec, made := [], madeOld := [], fault := none }
  | some (p, k, _) =>
    let pay := j.slicePay i buf
    let key := nth keys 0 []
    let old := nth keys 1 []
    let (x, y) := p.range k
    let last := k + 1 == p.count
    let r := { j.jrec with delivered := j.jrec.delivered + 1 }
    let plain (out : Bytes) : Delivered := { out := out, jrec := r, made := j.made, madeOld := j.madeOld, fault := none }
    match eOp j.entry with
    | 0x18 | 0x19 =>
      let z := j.runXts key k pay
      { plain z.1 with fault := z.2 }
    | 0x24 | 0x25 =>
      let m := if eOp j.entry == 0x24 then kwStart (eSub j.entry) (nth keys 2 []) else pay
      let a := j.runWrap key m r.newer k
      let b := if old.isEmpty then r.older else j.runWrap old m r.older k
      { plain [] with jrec := { r with newer := a, older := b },
                      made := if last then a.chain else j.made, madeOld := if last && !old.isEmpty then b.chain else j.madeOld }
    | 0x1D =>
      let h := (j.bufRange i).1
      plain (j.cbcOpen key x (sub buf 0 (srcHead j.gen j.entry + x - h)) pay)
    | op =>
      if j.secondPass i then plain (j.crypt key (x - authLen j.entry) (pay.drop (authLen j.entry - x)))
      else if op == 0x50 && comboCbc (eSub j.entry) && bit (eSub j.entry) 7 then
        let m := x - eAad j.entry
        plain (j.cbcOpen key m (sub j.msg (m - 31) (min m 31)) (pay.drop (eAad j.entry - x)))
      else
        let a := j.streamStep key r.newer x y pay last
        let b := if old.isEmpty then (r.older, [], []) else j.streamStep old r.older x y pay last
        { out := a.2.1, jrec := { r with newer := a.1, older := b.1, first := if last && op == 0x20 then a.2.2 else r.first },
          made := if last && op != 0x50 then a.2.2 else j.made, madeOld := if last && op != 0x50 then b.2.2 else j.madeOld,
          fault := none }

/-! ## Digests over a context -/

/-- State of a digest stream: running state, outer HMAC state, carried partial block and byte count (R232). -/
structure DigestRun where
  state : Bytes
  outer : Bytes
  carry : Bytes
  absorbed : Nat
  deriving DecidableEq, Repr

/-- The start of a stream: a keyed one takes the inner and outer states that BAY holds (R227). -/
def DigestRun.start (sel : Nat) (key : Option Bytes) : DigestRun :=
  match key with
  | some k => { state := digestState sel (hmacBlock sel k 0x36), outer := digestState sel (hmacBlock sel k 0x5C), carry := [], absorbed := 0 }
  | none => { state := digestIv sel, outer := [], carry := [], absorbed := 0 }

/-- A slice's bytes are absorbed. -/
def DigestRun.absorb (d : DigestRun) (sel : Nat) (b : Bytes) : DigestRun :=
  let m := d.carry ++ b
  let n := m.length / digestBlock sel * digestBlock sel
  { d with state := digestUpdate sel d.state (m.take n), carry := m.drop n, absorbed := d.absorbed + b.length }

/-- The digest, or the MAC when the stream is keyed (R227). -/
def DigestRun.finish (d : DigestRun) (sel out : Nat) (keyed : Bool) : Bytes :=
  if keyed then
    let inner := digestEnd sel out d.state d.carry (digestBlock sel + d.absorbed)
    digestEnd sel out d.outer inner (digestBlock sel + inner.length)
  else digestEnd sel out d.state d.carry d.absorbed

/-- The job is keyed on DILL. -/
def Job.dillKeyed (j : Job) : Bool := eOp j.entry != 0x40

/-- The state of a job's digest stream before its next slice: its context's, or a new one. -/
def State.dillRun (s : State) (j : Job) (older : Bool) (key : Bytes) : DigestRun :=
  match s.dill.ctxs.find? fun x => x.queue == j.queue && x.count == j.count && x.older == older && x.next != 0 with
  | some x => { state := x.state, outer := x.outer, carry := x.carry, absorbed := x.absorbed }
  | none => DigestRun.start j.dillSel (if j.dillKeyed then some key else none)

/-- A DILL slice delivers: its streams go back to their contexts, and the last slice gives the digest or MAC (R225, R230, R232). -/
def State.dillDeliver (s : State) (j : Job) (keys : List Bytes) (i : Nat) (buf : Bytes) : State :=
  match passAt j.passes 0 i with
  | none => s
  | some (p, k, _) =>
    let one (s : State) (older : Bool) (key : Bytes) : State :=
      let d := (s.dillRun j older key).absorb j.dillSel buf
      let s := s.setCtx j.queue j.count older fun x => { x with
        state := d.state, outer := d.outer, carry := d.carry, absorbed := d.absorbed, next := k + 1 }
      if k + 1 == p.count then
        let t := d.finish j.dillSel (eMac j.entry) j.dillKeyed
        s.setJob j.queue j.count fun j => if older then { j with madeOld := t } else { j with made := t }
      else s
    let s := one s false (nth keys 0 [])
    if (nth keys 1 []).isEmpty then s else one s true (nth keys 1 [])

end Sys2Proof.Machine
end

