-- ==== Sys2Proof/Machine/Edwards.lean ====
section
/-! DEFINITION. Ed25519, Ed448 and X25519 (R253, Table 8.6), by RFC 8032 and RFC 7748, which the spec names (PRESUMED, notes/assumptions/2). -/

namespace Sys2Proof.Machine

/-- An Edwards curve a x² + y² = 1 + d x² y² over GF(p), with group order l, base point, encoding length and cofactor. -/
structure EdCurve where
  p : Nat
  a : Nat
  d : Nat
  l : Nat
  bx : Nat
  bY : Nat
  len : Nat
  cof : Nat
  deriving DecidableEq, Repr

/-- edwards25519. -/
def ed25519 : EdCurve :=
  { p := 2 ^ 255 - 19, a := 2 ^ 255 - 20, d := 0x52036cee2b6ffe738cc740797779e89800700a4d4141d8ab75eb4dca135978a3,
    l := 2 ^ 252 + 27742317777372353535851937790883648493,
    bx := 0x216936d3cd6e53fec0a4e231fdd6dc5c692cc7609525a7b2c9562d608f25d51a,
    bY := 0x6666666666666666666666666666666666666666666666666666666666666658, len := 32, cof := 8 }

/-- edwards448. -/
def ed448 : EdCurve :=
  { p := 2 ^ 448 - 2 ^ 224 - 1, a := 1, d := 2 ^ 448 - 2 ^ 224 - 1 - 39081,
    l := 2 ^ 446 - 13818066809895115352007386748515426880336692474882178609894547503885,
    bx := 224580040295924300187604334099896036246789641632564134246125461686950415467406032909029192869357953282578032075146446173674602635247710,
    bY := 298819210078481492676017930443930673437544040154080242095928241372331506189835876003536878655418784733982303233503462500531545062832660,
    len := 57, cof := 4 }

/-- Projective point. -/
abbrev EdPoint := Nat × Nat × Nat

/-- Sum of two points: the formula is complete on both curves. -/
def edAdd (c : EdCurve) (s t : EdPoint) : EdPoint :=
  let p := c.p
  let (x1, y1, z1) := s
  let (x2, y2, z2) := t
  let a := z1 * z2 % p
  let b := a * a % p
  let cc := x1 * x2 % p
  let dd := y1 * y2 % p
  let e := c.d * cc % p * dd % p
  let f := subMod b e p
  let g := (b + e) % p
  let m := subMod ((x1 + y1) * (x2 + y2)) (cc + dd) p
  (a * f % p * m % p, a * g % p * subMod dd (c.a * cc) p % p, f * g % p)

/-- Double-and-add over the bits of k; fuel bounds them. -/
def edMulF (c : EdCurve) : Nat → Nat → EdPoint → EdPoint → EdPoint
  | 0, _, _, acc => acc
  | fuel + 1, k, q, acc => edMulF c fuel (k / 2) (edAdd c q q) (if k % 2 = 1 then edAdd c acc q else acc)

/-- k times a point. -/
def edMul (c : EdCurve) (k : Nat) (q : EdPoint) : EdPoint := edMulF c (bitLen k) k q (0, 1, 1)

/-- The base point. -/
def EdCurve.base (c : EdCurve) : EdPoint := (c.bx, c.bY, 1)

/-- The same affine point. -/
def edEq (c : EdCurve) (s t : EdPoint) : Bool :=
  s.1 * t.2.2 % c.p == t.1 * s.2.2 % c.p && s.2.1 * t.2.2 % c.p == t.2.1 * s.2.2 % c.p

/-- Encoding of RFC 8032: y, with the low bit of x at the top. -/
def edEncode (c : EdCurve) (q : EdPoint) : Bytes :=
  let i := invMod q.2.2 c.p
  leBytes c.len (q.2.1 * i % c.p + (q.1 * i % c.p % 2) * 2 ^ (8 * c.len - 1))

/-- A square root modulo p, if there is one. -/
def edSqrt (p v : Nat) : Option Nat :=
  if p % 4 = 3 then
    let x := powMod v ((p + 1) / 4) p
    if x * x % p == v then some x else none
  else
    let x := powMod v ((p + 3) / 8) p
    if x * x % p == v then some x
    else
      let y := x * powMod 2 ((p - 1) / 4) p % p
      if y * y % p == v then some y else none

/-- Decoding: none for y of p or more, and for an encoding with no point. -/
def edDecode (c : EdCurve) (b : Bytes) : Option EdPoint :=
  let n := leNat b
  let sign := n / 2 ^ (8 * c.len - 1)
  let y := n % 2 ^ (8 * c.len - 1)
  if y ≥ c.p then none
  else
    let yy := y * y % c.p
    let x2 := subMod yy 1 c.p * invMod (subMod (c.d * yy) c.a c.p) c.p % c.p
    match edSqrt c.p x2 with
    | none => none
    | some x =>
      if x = 0 && sign = 1 then none
      else some (if x % 2 = sign then x else c.p - x, y, 1)

/-- The domain string: dom2 with ph, none for plain Ed25519, dom4 for Ed448. -/
def edDom (is448 ph : Bool) (ctx : Bytes) : Bytes :=
  let tail := leBytes 1 (if ph then 1 else 0) ++ leBytes 1 ctx.length ++ ctx
  if is448 then [0x53, 0x69, 0x67, 0x45, 0x64, 0x34, 0x34, 0x38] ++ tail
  else if ph then
    [0x53, 0x69, 0x67, 0x45, 0x64, 0x32, 0x35, 0x35, 0x31, 0x39, 0x20, 0x6e, 0x6f, 0x20, 0x45, 0x64, 0x32, 0x35, 0x35, 0x31,
     0x39, 0x20, 0x63, 0x6f, 0x6c, 0x6c, 0x69, 0x73, 0x69, 0x6f, 0x6e, 0x73] ++ tail
  else []

/-- The hash of the scheme: SHA-512, or 114 bytes of SHAKE256. -/
def edHash (is448 : Bool) (m : Bytes) : Bytes := if is448 then keccak 136 0x1F 114 m else sha512 m

def edCurve (is448 : Bool) : EdCurve := if is448 then ed448 else ed25519

/-- Clamped scalar and first half for the nonce of a seed. -/
def edSecret (is448 : Bool) (seed : Bytes) : Nat × Bytes :=
  let h := edHash is448 seed
  if is448 then
    let s := leNat (h.take 56)
    ((s / 4 * 4) % 2 ^ 447 + 2 ^ 447, h.drop 57)
  else
    let s := leNat (h.take 32)
    ((s / 8 * 8) % 2 ^ 254 + 2 ^ 254, h.drop 32)

/-- Public key of a seed. -/
def edPublic (is448 : Bool) (seed : Bytes) : Bytes :=
  let c := edCurve is448
  edEncode c (edMul c (edSecret is448 seed).1 c.base)

/-- EdDSA signature. -/
def edSign (is448 ph : Bool) (seed ctx m : Bytes) : Bytes :=
  let c := edCurve is448
  let (s, pre) := edSecret is448 seed
  let a := edEncode c (edMul c s c.base)
  let dom := edDom is448 ph ctx
  let r := leNat (edHash is448 (dom ++ pre ++ m)) % c.l
  let rb := edEncode c (edMul c r c.base)
  let k := leNat (edHash is448 (dom ++ rb ++ a ++ m)) % c.l
  rb ++ leBytes c.len ((r + k * s) % c.l)

/-- EdDSA verification with the cofactored equation of R269. -/
def edVerify (is448 ph : Bool) (a sig ctx m : Bytes) : Bool :=
  let c := edCurve is448
  let rb := sig.take c.len
  let s := leNat (sig.drop c.len)
  match edDecode c a, edDecode c rb with
  | some qa, some qr =>
    let k := leNat (edHash is448 (edDom is448 ph ctx ++ rb ++ a ++ m)) % c.l
    s < c.l && edEq c (edMul c (c.cof * s) c.base) (edAdd c (edMul c c.cof qr) (edMul c (c.cof * k) qa))
  | _, _ => false

/-! ## X25519 -/

/-- One step of the ladder of RFC 7748 over the state (x2, z2, x3, z3). -/
def x25519Step (p x1 : Nat) (b : Bool) (st : Nat × Nat × Nat × Nat) : Nat × Nat × Nat × Nat :=
  let (x2, z2, x3, z3) := if b then (st.2.2.1, st.2.2.2, st.1, st.2.1) else st
  let a := x2 + z2
  let aa := a * a % p
  let bb' := subMod x2 z2 p
  let bb := bb' * bb' % p
  let e := subMod aa bb p
  let da := subMod x3 z3 p * a % p
  let cb := (x3 + z3) * bb' % p
  let s := (da + cb) % p
  let d := subMod da cb p
  let r : Nat × Nat × Nat × Nat := (aa * bb % p, e * ((aa + 121665 * e) % p) % p, s * s % p, x1 * (d * d % p) % p)
  if b then (r.2.2.1, r.2.2.2, r.1, r.2.1) else r

/-- X25519 of RFC 7748: the scalar is clamped and bit 255 of u cleared. -/
def x25519 (k u : Bytes) : Bytes :=
  let p := 2 ^ 255 - 19
  let n := leNat k
  let n := (n / 8 * 8) % 2 ^ 254 + 2 ^ 254
  let x1 := leNat u % 2 ^ 255 % p
  let st := (List.range 255).reverse.foldl (fun st i => x25519Step p x1 (n / 2 ^ i % 2 == 1) st) (1, 0, x1, 1)
  leBytes 32 (st.1 * invMod st.2.1 p % p)

/-- The base u = 9. -/
def x25519Base : Bytes := 9 :: Machine.zeros 31

end Sys2Proof.Machine
end

