-- ==== Sys2Proof/Machine/Lattice.lean ====
section
/-! DEFINITION. ML-KEM and ML-DSA (R253, R260, R266, Table 8.6), by FIPS 203 and FIPS 204, which the spec names (PRESUMED, notes/assumptions/2). Polynomials are lists of 256 coefficients below the modulus. -/

namespace Sys2Proof.Machine

/-! ## Polynomials -/

/-- The value of a polynomial at x. -/
def evalPoly (q x : Nat) (f : List Nat) : Nat := f.foldr (fun a v => (a + x * v) % q) 0

/-- The lowest n bits of i in reverse order. -/
def bitRev (n i : Nat) : Nat := (List.range n).foldl (fun v k => 2 * v + i / 2 ^ k % 2) 0

/-- Sums of a over the powers that p holds, and over the n - 1 powers that follow, each root of g one more time. -/
def rootSums (q : Nat) : Nat → List Nat → List Nat → List Nat → List Nat
  | 0, _, _, _ => []
  | n + 1, a, g, p =>
    (List.zipWith (· * ·) a p).foldl (· + ·) 0 % q :: rootSums q n a g (List.zipWith (fun x y => x * y % q) p g)

/-- The polynomial of n coefficients with given values at the roots whose inverses g holds; m is the inverse of n. -/
def interpolate (q m n : Nat) (g a : List Nat) : List Nat :=
  (rootSums q n a g (List.replicate n 1)).map fun x => x * m % q

def polyAdd (q : Nat) (f g : List Nat) : List Nat := List.zipWith (fun a b => (a + b) % q) f g
def polySub (q : Nat) (f g : List Nat) : List Nat := List.zipWith (fun a b => (a + q - b) % q) f g
def polyZero : List Nat := List.replicate 256 0

/-- Coefficients of w bits, packed with the lowest first. -/
def packBits (w : Nat) (f : List Nat) : Bytes := leBytes (ceilDiv (w * f.length) 8) (f.foldr (fun a v => a % 2 ^ w + 2 ^ w * v) 0)

/-- The n fields of w bits of a string. -/
def unpackBits (w n : Nat) (b : Bytes) : List Nat :=
  let v := leNat b
  (List.range n).map fun i => (v >>> (w * i)) % 2 ^ w

/-- The i-th of n pieces of a list, m elements each. -/
def piece {α : Type} (m i : Nat) (l : List α) : List α := (l.drop (m * i)).take m

/-! ## ML-KEM (FIPS 203) -/

def kemQ : Nat := 3329

/-- Parameters k, η1, du and dv of a set (η2 is 2). -/
def kemParams (set : Nat) : Nat × Nat × Nat × Nat :=
  match set with
  | 0x21 => (2, 3, 10, 4)
  | 0x22 => (3, 2, 10, 4)
  | _ => (4, 2, 11, 5)

/-- The i-th factor of X^256 + 1 is X^2 less this number. -/
def kemGamma (i : Nat) : Nat := powMod 17 (2 * bitRev 7 i + 1) kemQ
def kemGammas : List Nat := (List.range 128).map kemGamma
def kemInverses : List Nat := kemGammas.map fun x => powMod x (kemQ - 2) kemQ

def evens (f : List Nat) : List Nat := (List.range 128).map fun i => nth f (2 * i) 0
def odds (f : List Nat) : List Nat := (List.range 128).map fun i => nth f (2 * i + 1) 0

/-- Two lists, an element of each in turn. -/
def interleave (a b : List Nat) : List Nat := (List.zipWith (fun x y => [x, y]) a b).flatten

def kemNtt (f : List Nat) : List Nat :=
  interleave (kemGammas.map fun g => evalPoly kemQ g (evens f)) (kemGammas.map fun g => evalPoly kemQ g (odds f))

def kemInv (f : List Nat) : List Nat :=
  interleave (interpolate kemQ 3303 128 kemInverses (evens f)) (interpolate kemQ 3303 128 kemInverses (odds f))

/-- The product in the transformed domain. -/
def kemMul (f g : List Nat) : List Nat :=
  let e := List.zipWith (fun (x : Nat × Nat) (y : Nat × Nat) => (x, y)) ((evens f).zip (odds f)) ((evens g).zip (odds g))
  (List.zipWith (fun (p : (Nat × Nat) × (Nat × Nat)) z =>
    [(p.1.1 * p.2.1 + p.1.2 * p.2.2 % kemQ * z) % kemQ, (p.1.1 * p.2.2 + p.1.2 * p.2.1) % kemQ]) e kemGammas).flatten

/-- The inner product of two vectors of transformed polynomials. -/
def kemDot (a b : List (List Nat)) : List Nat :=
  (List.zipWith kemMul a b).foldl (polyAdd kemQ) polyZero

/-- SampleNTT, within the 280 iterations of the standard's Appendix B. -/
def kemSample (seed : Bytes) : List Nat :=
  let cs := (chunks 3 (digest 0x21 840 seed)).flatMap fun t =>
    let v := leNat t
    [v % 4096, v / 4096]
  padNat ((cs.filter (· < kemQ)).take 256)
where
  padNat (l : List Nat) : List Nat := l ++ List.replicate (256 - l.length) 0

/-- A-hat, by rows. -/
def kemMatrix (k : Nat) (rho : Bytes) : List (List (List Nat)) :=
  (List.range k).map fun i => (List.range k).map fun j => kemSample (rho ++ leBytes 1 j ++ leBytes 1 i)

def transpose (m : List (List (List Nat))) : List (List (List Nat)) :=
  (List.range m.length).map fun i => m.map fun r => nth r i []

/-- SamplePolyCBD over PRF(s, n). -/
def kemNoise (eta : Nat) (s : Bytes) (n : Nat) : List Nat :=
  let v := leNat (digest 0x22 (64 * eta) (s ++ leBytes 1 n))
  let ones (i : Nat) : Nat := (List.range eta).foldl (fun x j => x + (v >>> (i + j)) % 2) 0
  (List.range 256).map fun i => (ones (2 * eta * i) + kemQ - ones (2 * eta * i + eta)) % kemQ

def kemNoises (eta k n : Nat) (s : Bytes) : List (List Nat) := (List.range k).map fun i => kemNoise eta s (n + i)

def compress (d x : Nat) : Nat := (x * 2 ^ (d + 1) + kemQ) / (2 * kemQ) % 2 ^ d
def decompress (d y : Nat) : Nat := (2 * kemQ * y + 2 ^ d) / 2 ^ (d + 1)

/-- The vector of k polynomials of w-bit coefficients in a string. -/
def kemVector (w k : Nat) (b : Bytes) : List (List Nat) := (List.range k).map fun i => unpackBits w 256 (piece (32 * w) i b)

/-- K-PKE.Encrypt. -/
def kemEncrypt (set : Nat) (ek m r : Bytes) : Bytes :=
  let (k, eta, du, dv) := kemParams set
  let t := (kemVector 12 k ek).map fun f => f.map (· % kemQ)
  let a := transpose (kemMatrix k (sub ek (384 * k) 32))
  let y := (kemNoises eta k 0 r).map kemNtt
  let u := List.zipWith (polyAdd kemQ) (a.map fun row => kemInv (kemDot row y)) (kemNoises 2 k k r)
  let mu := (unpackBits 1 256 m).map (decompress 1)
  let v := polyAdd kemQ (polyAdd kemQ (kemInv (kemDot t y)) (kemNoise 2 r (2 * k))) mu
  u.flatMap (fun f => packBits du (f.map (compress du))) ++ packBits dv (v.map (compress dv))

/-- K-PKE.Decrypt. -/
def kemDecrypt (set : Nat) (dk c : Bytes) : Bytes :=
  let (k, _, du, dv) := kemParams set
  let u := (kemVector du k c).map fun f => kemNtt (f.map (decompress du))
  let v := (unpackBits dv 256 (c.drop (32 * du * k))).map (decompress dv)
  let w := polySub kemQ v (kemInv (kemDot (kemVector 12 k dk) u))
  packBits 1 (w.map (compress 1))

/-- ML-KEM.KeyGen from the 32 bytes d and the 32 bytes z: ek and dk. -/
def mlKemKeyGen (set : Nat) (seed : Bytes) : Bytes × Bytes :=
  let (k, eta, _, _) := kemParams set
  let g := digest 0x14 0 (seed.take 32 ++ leBytes 1 k)
  let rho := g.take 32
  let s := (kemNoises eta k 0 (g.drop 32)).map kemNtt
  let e := (kemNoises eta k k (g.drop 32)).map kemNtt
  let t := List.zipWith (polyAdd kemQ) ((kemMatrix k rho).map fun row => kemDot row s) e
  let ek := t.flatMap (packBits 12) ++ rho
  (ek, s.flatMap (packBits 12) ++ ek ++ digest 0x12 0 ek ++ sub seed 32 32)

/-- ML-KEM.Encaps with the 32 bytes m: ciphertext and shared secret. -/
def mlKemEncaps (set : Nat) (ek m : Bytes) : Bytes × Bytes :=
  let g := digest 0x14 0 (m ++ digest 0x12 0 ek)
  (kemEncrypt set ek m (g.drop 32), g.take 32)

/-- ML-KEM.Decaps: the shared secret, or that of the implicit rejection (R260). -/
def mlKemDecaps (set : Nat) (dk c : Bytes) : Bytes :=
  let k := (kemParams set).1
  let ek := sub dk (384 * k) (384 * k + 32)
  let m := kemDecrypt set dk c
  let g := digest 0x14 0 (m ++ sub dk (768 * k + 32) 32)
  if kemEncrypt set ek m (g.drop 32) == c then g.take 32 else digest 0x22 32 (sub dk (768 * k + 64) 32 ++ c)

/-! ## ML-DSA (FIPS 204) -/

def dsaQ : Nat := 8380417

/-- A parameter set. -/
structure DsaParams where
  k : Nat
  l : Nat
  eta : Nat
  tau : Nat
  /-- Bytes of c-tilde: λ / 4. -/
  hash : Nat
  /-- γ1 is a power of 2. -/
  gamma1Log : Nat
  gamma2 : Nat
  omega : Nat

def dsaParams (set : Nat) : DsaParams :=
  match set with
  | 0x31 => { k := 4, l := 4, eta := 2, tau := 39, hash := 32, gamma1Log := 17, gamma2 := 95232, omega := 80 }
  | 0x32 => { k := 6, l := 5, eta := 4, tau := 49, hash := 48, gamma1Log := 19, gamma2 := 261888, omega := 55 }
  | _ => { k := 8, l := 7, eta := 2, tau := 60, hash := 64, gamma1Log := 19, gamma2 := 261888, omega := 75 }

def dsaH (n : Nat) (b : Bytes) : Bytes := digest 0x22 n b

def dsaRoots : List Nat := (List.range 256).map fun i => powMod 1753 (2 * bitRev 8 i + 1) dsaQ
def dsaInverses : List Nat := dsaRoots.map fun x => powMod x (dsaQ - 2) dsaQ

def dsaNtt (f : List Nat) : List Nat := dsaRoots.map fun x => evalPoly dsaQ x f
def dsaInv (f : List Nat) : List Nat := interpolate dsaQ 8347681 256 dsaInverses f
def dsaMul (f g : List Nat) : List Nat := List.zipWith (fun a b => a * b % dsaQ) f g
def dsaDot (a b : List (List Nat)) : List Nat := (List.zipWith dsaMul a b).foldl (polyAdd dsaQ) polyZero

/-- A coefficient as a residue of least absolute value. -/
def centred (a : Nat) : Int := if a ≤ dsaQ / 2 then a else (a : Int) - dsaQ

/-- The residue of an integer. -/
def residue (a : Int) : Nat := (a % dsaQ).toNat

/-- The infinity norm of a polynomial. -/
def norm (f : List Nat) : Nat := f.foldl (fun m a => max m (centred a).natAbs) 0

/-- BitPack of coefficients b - x in w bits. -/
def packFrom (w b : Nat) (f : List Nat) : Bytes := packBits w (f.map fun a => residue (b - centred a))
def unpackFrom (w b : Nat) (s : Bytes) : List Nat := (unpackBits w 256 s).map fun (a : Nat) => residue ((b : Int) - (a : Int))

/-- RejNTTPoly, within the iterations of the standard's Appendix C. -/
def dsaSample (seed : Bytes) : List Nat :=
  kemSample.padNat ((((chunks 3 (digest 0x21 894 seed)).map fun t => leNat t % 2 ^ 23).filter (· < dsaQ)).take 256)

/-- ExpandA, by rows. -/
def dsaMatrix (p : DsaParams) (rho : Bytes) : List (List (List Nat)) :=
  (List.range p.k).map fun r => (List.range p.l).map fun s => dsaSample (rho ++ leBytes 1 s ++ leBytes 1 r)

/-- RejBoundedPoly, within the iterations of Appendix C. -/
def dsaBounded (eta : Nat) (seed : Bytes) : List Nat :=
  let half := (dsaH 481 seed).flatMap fun b => [b.toNat % 16, b.toNat / 16]
  let take (x : Nat) : Option Nat :=
    if eta == 2 then (if x < 15 then some (residue (2 - (x % 5 : Nat))) else none)
    else if x < 9 then some (residue (4 - (x : Int))) else none
  kemSample.padNat ((half.filterMap take).take 256)

/-- ExpandMask. -/
def dsaMask (p : DsaParams) (seed : Bytes) (kappa : Nat) : List (List Nat) :=
  (List.range p.l).map fun r =>
    unpackFrom (p.gamma1Log + 1) (2 ^ p.gamma1Log) (dsaH (32 * (p.gamma1Log + 1)) (seed ++ leBytes 2 (kappa + r)))

/-- The bytes after the first one that is at most i, and that one. -/
def ballPick (i : Nat) : Bytes → Nat × Bytes
  | [] => (0, [])
  | b :: t => if b.toNat ≤ i then (b.toNat, t) else ballPick i t

/-- SampleInBall. -/
def sampleInBall (tau : Nat) (seed : Bytes) : List Nat :=
  let s := dsaH 221 seed
  let h := leNat (s.take 8)
  ((List.range tau).foldl (fun (x : List Nat × Bytes) n =>
    let i := 256 - tau + n
    let (j, rest) := ballPick i x.2
    ((x.1.set i (nth x.1 j 0)).set j (if bit h n then dsaQ - 1 else 1), rest)) (polyZero, s.drop 8)).1

/-- Decompose: high and low part of a coefficient. -/
def decompose (gamma2 r : Nat) : Nat × Int :=
  let m := r % (2 * gamma2)
  let r0 : Int := if m ≤ gamma2 then m else (m : Int) - 2 * gamma2
  if (r : Int) - r0 = dsaQ - 1 then (0, r0 - 1) else (((r : Int) - r0) / (2 * gamma2) |>.toNat, r0)

def highBits (p : DsaParams) (f : List Nat) : List Nat := f.map fun a => (decompose p.gamma2 a).1
def lowBits (p : DsaParams) (f : List Nat) : List Nat := f.map fun a => residue (decompose p.gamma2 a).2

/-- Power2Round: t1, and t0 as a residue. -/
def power2Round (a : Nat) : Nat × Nat :=
  let m := a % 8192
  let r0 : Int := if m ≤ 4096 then m else (m : Int) - 8192
  (((a : Int) - r0) / 8192 |>.toNat, residue r0)

def useHint (p : DsaParams) (h r : Nat) : Nat :=
  let m := (dsaQ - 1) / (2 * p.gamma2)
  let (r1, r0) := decompose p.gamma2 r
  if h == 0 then r1 else if 0 < r0 then (r1 + 1) % m else (r1 + m - 1) % m

/-- w1Encode. -/
def encodeW1 (p : DsaParams) (w : List (List Nat)) : Bytes := w.flatMap (packBits (if p.gamma2 == 95232 then 6 else 4))

def etaBits (p : DsaParams) : Nat := if p.eta == 2 then 3 else 4

/-- HintBitPack. -/
def packHint (p : DsaParams) (h : List (List Nat)) : Bytes :=
  let idx (f : List Nat) : List Nat := (List.range 256).filter fun i => nth f i 0 != 0
  let counts := (List.range p.k).map fun i => ((h.take (i + 1)).map fun f => (idx f).length).foldl (· + ·) 0
  padTo p.omega ((h.flatMap idx).map (BitVec.ofNat 8)) ++ counts.map (BitVec.ofNat 8)

/-- HintBitUnpack; none for a hint that is badly formed. -/
def unpackHint (p : DsaParams) (b : Bytes) : Option (List (List Nat)) :=
  let ends := (List.range p.k).map fun i => (byteAt b (p.omega + i)).toNat
  let starts := 0 :: ends
  let rising (l : List Nat) : Bool := (l.zip l.tail).all fun x => x.1 < x.2
  let part (x : Nat × Nat) : List Nat := (sub b x.1 (x.2 - x.1)).map (·.toNat)
  let spans := starts.zip ends
  if spans.all (fun x => x.1 ≤ x.2 && x.2 ≤ p.omega && rising (part x))
      && allZero (sub b (nth ends (p.k - 1) 0) (p.omega - nth ends (p.k - 1) 0)) then
    some (spans.map fun x => (part x).foldl (fun f j => f.set j 1) polyZero)
  else none

/-- t = A s1 + s2. -/
def dsaT (p : DsaParams) (rho : Bytes) (s1 s2 : List (List Nat)) : List (List Nat) :=
  let s1h := s1.map dsaNtt
  List.zipWith (polyAdd dsaQ) ((dsaMatrix p rho).map fun row => dsaInv (dsaDot row s1h)) s2

/-- pkEncode over t. -/
def dsaPk (rho : Bytes) (t : List (List Nat)) : Bytes := rho ++ t.flatMap fun f => packBits 10 (f.map fun a => (power2Round a).1)

/-- ML-DSA.KeyGen from the 32 bytes ξ: pk and sk. -/
def mlDsaKeyGen (set : Nat) (xi : Bytes) : Bytes × Bytes :=
  let p := dsaParams set
  let g := dsaH 128 (xi.take 32 ++ leBytes 1 p.k ++ leBytes 1 p.l)
  let rho := g.take 32
  let rho' := sub g 32 64
  let s1 := (List.range p.l).map fun r => dsaBounded p.eta (rho' ++ leBytes 2 r)
  let s2 := (List.range p.k).map fun r => dsaBounded p.eta (rho' ++ leBytes 2 (r + p.l))
  let t := dsaT p rho s1 s2
  let pk := dsaPk rho t
  (pk, rho ++ sub g 96 32 ++ dsaH 64 pk ++ (s1 ++ s2).flatMap (packFrom (etaBits p) p.eta)
    ++ t.flatMap fun f => packFrom 13 4096 (f.map fun a => (power2Round a).2))

/-- The n polynomials of w bits at an offset of a secret key. -/
def dsaVector (w b n off : Nat) (sk : Bytes) : List (List Nat) := (List.range n).map fun i => unpackFrom w b (sub sk (off + 32 * w * i) (32 * w))

/-- Vectors s1, s2 and t0 of a secret key. -/
def dsaSecrets (p : DsaParams) (sk : Bytes) : List (List Nat) × List (List Nat) × List (List Nat) :=
  let e := etaBits p
  (dsaVector e p.eta p.l 128 sk, dsaVector e p.eta p.k (128 + 32 * e * p.l) sk,
   dsaVector 13 4096 p.k (128 + 32 * e * (p.l + p.k)) sk)

/-- The tr check of a secret key: tr is the hash of the public key that the other fields give (Table 8.6). -/
def mlDsaSkOk (set : Nat) (sk : Bytes) : Bool :=
  let p := dsaParams set
  let (s1, s2, _) := dsaSecrets p sk
  dsaH 64 (dsaPk (sk.take 32) (dsaT p (sk.take 32) s1 s2)) == sub sk 64 64

/-- μ of a message: the 64 bytes behind a 2, or the hash of tr and M'. -/
def dsaMu (tr m : Bytes) : Bytes :=
  match m with
  | 2 :: mu => mu
  | _ => dsaH 64 (tr ++ m)

/-- Candidate number i of a signing (R266): sk, the message as dsaMu takes it and rnd to the signature, none when it is rejected. -/
def mlDsaCandidate (set : Nat) (sk m rnd : Bytes) (i : Nat) : Option Bytes :=
  let p := dsaParams set
  let (s1, s2, t0) := dsaSecrets p sk
  let mu := dsaMu (sub sk 64 64) m
  let y := dsaMask p (dsaH 64 (sub sk 32 32 ++ rnd ++ mu)) (i * p.l)
  let yh := y.map dsaNtt
  let w := (dsaMatrix p (sk.take 32)).map fun row => dsaInv (dsaDot row yh)
  let ct := dsaH p.hash (mu ++ encodeW1 p (w.map (highBits p)))
  let c := dsaNtt (sampleInBall p.tau ct)
  let times (f : List Nat) : List Nat := dsaInv (dsaMul c (dsaNtt f))
  let z := List.zipWith (polyAdd dsaQ) y (s1.map times)
  let v := List.zipWith (polySub dsaQ) w (s2.map times)
  let beta := p.tau * p.eta
  if z.any (fun f => 2 ^ p.gamma1Log - beta ≤ norm f) || v.any (fun f => p.gamma2 - beta ≤ norm (lowBits p f)) then none
  else
    let ct0 := t0.map times
    let differ (a b : Nat) : Nat := if (decompose p.gamma2 a).1 == (decompose p.gamma2 b).1 then 0 else 1
    let h := List.zipWith (fun a b => List.zipWith differ a (polyAdd dsaQ a b)) v ct0
    if ct0.any (fun f => p.gamma2 ≤ norm f) || p.omega < (h.map fun f => f.foldl (· + ·) 0).foldl (· + ·) 0 then none
    else some (ct ++ z.flatMap (packFrom (p.gamma1Log + 1) (2 ^ p.gamma1Log)) ++ packHint p h)

/-- ML-DSA.Verify: pk, the message as dsaMu takes it, and the signature. -/
def mlDsaVerify (set : Nat) (pk m sig : Bytes) : Bool :=
  let p := dsaParams set
  let w := p.gamma1Log + 1
  let ct := sig.take p.hash
  let z := dsaVector w (2 ^ p.gamma1Log) p.l p.hash sig
  match unpackHint p (sig.drop (p.hash + 32 * w * p.l)) with
  | none => false
  | some h =>
    let t1 := (List.range p.k).map fun i => unpackBits 10 256 (piece 320 i (pk.drop 32))
    let mu := dsaMu (dsaH 64 pk) m
    let c := dsaNtt (sampleInBall p.tau ct)
    let zh := z.map dsaNtt
    let az := (dsaMatrix p (pk.take 32)).map fun row => dsaDot row zh
    let ct1 := t1.map fun f => dsaMul c (dsaNtt (f.map (· * 8192)))
    let w' := List.zipWith (fun a b => dsaInv (polySub dsaQ a b)) az ct1
    let w1 := List.zipWith (fun f g => List.zipWith (useHint p) f g) h w'
    z.all (fun f => norm f < 2 ^ p.gamma1Log - p.tau * p.eta) && ct == dsaH p.hash (mu ++ encodeW1 p w1)

end Sys2Proof.Machine
end

