-- ==== Sys2Proof/Machine/Rsa.lean ====
section
/-! DEFINITION. RSA: the primitives, CRT with the check of R283, and the paddings of PKCS #1 v2.2, which the spec names (PRESUMED, notes/assumptions/2). -/

namespace Sys2Proof.Machine

/-- MGF1 under a digest selector. -/
def mgf1 (sel : Nat) (seed : Bytes) (n : Nat) : Bytes :=
  ((List.range (ceilDiv n (digestLen sel 0))).flatMap fun i => digest sel 0 (seed ++ beBytes 4 i)).take n

/-- Last arc of the digest's object identifier under 2.16.840.1.101.3.4.2. -/
def digestArc (sel : Nat) : Nat :=
  match sel with
  | 0x01 => 4
  | 0x02 => 1
  | 0x03 => 2
  | 0x04 => 3
  | 0x05 => 5
  | 0x06 => 6
  | 0x11 => 7
  | 0x12 => 8
  | 0x13 => 9
  | _ => 10

/-- EMSA-PKCS1-v1_5 over a hash value, k bytes. -/
def pkcs1Encode (sel k : Nat) (h : Bytes) : Bytes :=
  let t : Bytes := [0x30] ++ leBytes 1 (17 + h.length) ++ [0x30, 0x0D, 0x06, 0x09, 0x60, 0x86, 0x48, 0x01, 0x65, 0x03, 0x04, 0x02]
    ++ leBytes 1 (digestArc sel) ++ [0x05, 0x00, 0x04] ++ leBytes 1 h.length ++ h
  [0x00, 0x01] ++ List.replicate (k - t.length - 3) 0xFF ++ [0x00] ++ t

/-- EMSA-PSS of emBits bits over a hash value with a salt. -/
def pssEncode (sel emBits : Nat) (h salt : Bytes) : Bytes :=
  let em := ceilDiv emBits 8
  let hLen := digestLen sel 0
  let hh := digest sel 0 (Machine.zeros 8 ++ h ++ salt)
  let db := Machine.zeros (em - salt.length - hLen - 2) ++ [0x01] ++ salt
  let masked := xorB db (mgf1 sel hh (em - hLen - 1))
  let top := 8 * em - emBits
  (match masked with
    | [] => []
    | b :: bs => (b &&& (0xFF#8 >>> top)) :: bs) ++ hh ++ [0xBC]

/-- EMSA-PSS verification with a given salt length. -/
def pssVerify (sel emBits saltLen : Nat) (h em : Bytes) : Bool :=
  let hLen := digestLen sel 0
  let n := em.length
  let top := 8 * n - emBits
  let masked := em.take (n - hLen - 1)
  let hh := sub em (n - hLen - 1) hLen
  let db := xorB masked (mgf1 sel hh (n - hLen - 1))
  let db := match db with
    | [] => []
    | b :: bs => (b &&& (0xFF#8 >>> top)) :: bs
  let z := n - hLen - saltLen - 2
  decide (hLen + saltLen + 2 ≤ n) && byteAt em (n - 1) == 0xBC && (byteAt em 0 &&& ~~~(0xFF#8 >>> top)) == 0
  && allZero (db.take z) && byteAt db z == 0x01 && digest sel 0 (Machine.zeros 8 ++ h ++ db.drop (z + 1)) == hh

/-- EME-OAEP of a message with a label and a seed of hLen bytes. -/
def oaepEncode (sel k : Nat) (msg label seed : Bytes) : Bytes :=
  let hLen := digestLen sel 0
  let db := digest sel 0 label ++ Machine.zeros (k - msg.length - 2 * hLen - 2) ++ [0x01] ++ msg
  let mdb := xorB db (mgf1 sel seed (k - hLen - 1))
  [0x00] ++ xorB seed (mgf1 sel mdb hLen) ++ mdb

/-- EME-OAEP decoding; none on any error. -/
def oaepDecode (sel k : Nat) (em label : Bytes) : Option Bytes :=
  let hLen := digestLen sel 0
  let mseed := sub em 1 hLen
  let mdb := em.drop (hLen + 1)
  let seed := xorB mseed (mgf1 sel mdb hLen)
  let db := xorB mdb (mgf1 sel seed (k - hLen - 1))
  let rest := (db.drop hLen).dropWhile (· == 0)
  if byteAt em 0 == 0 && db.take hLen == digest sel 0 label && rest.head? == some 0x01 then some (rest.drop 1) else none

/-- The body of an RSA record (Table 8.5). -/
structure RsaKey where
  n : Nat
  e : Nat
  p : Nat
  q : Nat
  dp : Nat
  dq : Nat
  qinv : Nat
  deriving DecidableEq, Repr

/-- The body with a modulus of k bytes. -/
def parseRsa (k : Nat) (b : Bytes) : RsaKey :=
  let h := k / 2
  let at' (i : Nat) := beNat (sub b (k + 4 + i * h) h)
  { n := beNat (b.take k), e := beNat (sub b k 4), p := at' 0, q := at' 1, dp := at' 2, dq := at' 3, qinv := at' 4 }

/-- The private operation by CRT; none when the result raised to e is not the input (R283). -/
def rsaPrivate (r : RsaKey) (c : Nat) : Option Nat :=
  let m1 := powMod c r.dp r.p
  let m2 := powMod c r.dq r.q
  let m := m2 + subMod m1 m2 r.p * r.qinv % r.p * r.q
  if m < r.n && powMod m r.e r.n == c % r.n then some m else none

end Sys2Proof.Machine
end

