-- ==== Sys2Proof/Machine/Public.lean ====
section
/-! DEFINITION. What a sequencer computes (R253): every sub-operation of 0x60 over its parameter block, operand block, key record and random string, with the edge operands of Table 8.6 and R256, R260, R261, R266 to R273. -/

namespace Sys2Proof.Machine

/-- What an operation gives: its status, the result block it writes, the shared secret for the key2 slot (R260), and the curve to load (R273). A bad flag says that the check before release failed (R283). -/
structure PkOut where
  status : Status
  result : Bytes
  secret : Option Bytes
  curve : Option (Nat × Curve)
  bad : Bool
  deriving DecidableEq, Repr

/-- A result block. -/
def pkOk (r : Bytes) : PkOut := { status := .ok, result := r, secret := none, curve := none, bad := false }

/-- A status with no result. -/
def pkFail (st : Status) : PkOut := { status := st, result := [], secret := none, curve := none, bad := false }

/-- A shared secret. -/
def pkSecret (r k : Bytes) : PkOut := { status := .ok, result := r, secret := some k, curve := none, bad := false }

/-- Verified or not. -/
def pkVerdict (b : Bool) : PkOut := if b then pkOk [] else pkFail .authFail

/-- n bytes of the operation's one DRBG request, from byte i on (R264). -/
def drbgBytes (draw i n : Nat) : Bytes := (List.range n).map fun x => Config.freeByte (draw + i + x)

/-- Free values that one request is given. -/
def drbgSpan : Nat := 16384

/-- The prime curve that a curve field names. -/
def State.primeCurve (s : State) (c : Nat) : Option Curve :=
  match c with
  | 1 => some curveP256
  | 2 => some curveP384
  | 3 => some curveP521
  | _ => s.curve? c

/-- A public point of an operand block (Table 8.6, R270): none gives PKE_PARAM_INVALID. -/
def pointOk (c : Curve) (b : Bytes) : Option (Nat × Nat) :=
  let x := beNat (b.take c.f)
  let y := beNat (sub b c.f c.f)
  if (x = 0 && y = 0) || x ≥ c.p || y ≥ c.p || !onCurve c x y then none else some (x, y)

/-- ECDSA signature of a hash value: the first of two candidates (R268). -/
def ecdsaSign (cv : Nat) (c : Curve) (det : Bool) (d : Nat) (h : Bytes) (draw : Nat) : PkOut :=
  if d = 0 || d ≥ c.n then pkFail .pkeParamInvalid
  else
    let nonce (i : Nat) := if det then Config.detNonce cv d h i else scalarFrom c.n (drbgBytes draw (80 * i) (c.f + 8))
    match (ecdsaTry c d (ecHash c h) (nonce 0)).or (ecdsaTry c d (ecHash c h) (nonce 1)) with
    | some (r, s) => pkOk (beBytes c.f r ++ beBytes c.f s)
    | none => pkFail .aborted

/-- RSA private (R253, R262, Table 8.6). -/
def rsaPrivateRun (b o body : Bytes) (k draw : Nat) : PkOut :=
  let key := parseRsa k body
  let hash := ppHash b
  let x := match ppPad b with
    | 1 => beNat (pssEncode hash (8 * k - 1) o (drbgBytes draw 0 (ppSalt b)))
    | 2 => beNat (pkcs1Encode hash k o)
    | _ => beNat (o.take k)
  if x ≥ key.n then pkFail .pkeParamInvalid
  else match rsaPrivate key x with
    | none => { pkFail .aborted with bad := true }
    | some m =>
      if ppPad b == 3 then
        match oaepDecode hash k (beBytes k m) (o.drop k) with
        | some msg => pkOk (padTo k msg)
        | none => { pkFail .authFail with result := Machine.zeros k }
      else pkOk (beBytes k m)

/-- RSA public (R253, R256, Table 8.6). -/
def rsaPublicRun (b o : Bytes) (k draw : Nat) : PkOut :=
  let n := beNat (o.take k)
  let hash := ppHash b
  let hLen := digestLen hash 0
  let rest := o.drop k
  if !(byteAt o 0).getLsbD 7 then pkFail .pkeParamInvalid
  else match ppPad b with
    | 0 => if beNat rest ≥ n then pkFail .pkeParamInvalid else pkOk (beBytes k (powMod (beNat rest) (ppE b) n))
    | 3 =>
      let m := rest.take (rest.length - ppLabel b)
      let em := oaepEncode hash k m (rest.drop (rest.length - ppLabel b)) (drbgBytes draw 0 hLen)
      pkOk (beBytes k (powMod (beNat em) (ppE b) n))
    | p =>
      let sig := beNat (rest.take k)
      let h := rest.drop k
      let em := beBytes k (powMod sig (ppE b) n)
      pkVerdict (sig < n && if p == 1 then pssVerify hash (8 * k - 1) (ppSalt b) h em else em == pkcs1Encode hash k h)

/-- ECDH: the x-coordinate of the shared point. -/
def ecdhRun (c : Curve) (d : Nat) (o : Bytes) : PkOut :=
  if d = 0 || d ≥ c.n then pkFail .pkeParamInvalid
  else match pointOk c o with
    | none => pkFail .pkeParamInvalid
    | some q => match ecMul c d (some q) with
      | none => pkFail .pkeParamInvalid
      | some (x, _) => pkSecret [] (beBytes c.f x)

/-- ECDSA verification: the point first, then r and s. -/
def ecdsaVerifyRun (c : Curve) (o : Bytes) : PkOut :=
  match pointOk c o with
  | none => pkFail .pkeParamInvalid
  | some q => pkVerdict (ecdsaCheck c q (beNat (sub o (2 * c.f) c.f)) (beNat (sub o (3 * c.f) c.f)) (o.drop (4 * c.f)))

/-- Public key and body of a generation of 0x13 (Table 8.5). -/
def State.generate (s : State) (cv draw : Nat) : Bytes × Bytes :=
  match cv with
  | 0x08 =>
    let seed := drbgBytes draw 0 32
    (edPublic false seed, seed ++ edPublic false seed)
  | 0x09 =>
    let seed := drbgBytes draw 0 57
    (edPublic true seed, seed ++ edPublic true seed)
  | 0x0A =>
    let k := drbgBytes draw 0 32
    (x25519 k x25519Base, k ++ x25519 k x25519Base)
  | _ => match s.primeCurve cv with
    | none => ([], [])
    | some c =>
      let d := scalarFrom c.n (drbgBytes draw 0 (c.f + 8))
      let q := pointBytes c (ecMul c d c.g)
      (q, beBytes c.f d ++ q)

/-- ML-DSA message: M under its context, the hash of HashML-DSA with SHA-512, or μ behind a 2 (FIPS 204). -/
def dsaMessage (b m : Bytes) : Bytes :=
  let c := ppCtx b
  let ctx := m.drop (m.length - c)
  let body := m.take (m.length - c)
  if ppExtMu b then [2] ++ m
  else if ppPh b then [1] ++ leBytes 1 c ++ ctx ++ [0x06, 0x09, 0x60, 0x86, 0x48, 0x01, 0x65, 0x03, 0x04, 0x02, 0x03] ++ body
  else [0] ++ leBytes 1 c ++ ctx ++ body

/-- The first accepted candidate of a budget (R266). -/
def dsaBudgetRun (b sk o : Bytes) (draw budget : Nat) : Option Bytes :=
  let n := (dsaBudget (ppCurve b)).1
  let rnd := if ppDet b then Machine.zeros 32 else drbgBytes draw 0 32
  (List.range n).findSome? fun i => mlDsaCandidate (ppCurve b) sk (dsaMessage b o) rnd (n * budget + i)

/-- Coefficients of 12 bits, two in three bytes (FIPS 203). -/
def kemCoeffs (b : Bytes) : List Nat :=
  (chunks 3 b).flatMap fun t =>
    let v := leNat t
    [v % 4096, v / 4096]

/-- Every coefficient of an encapsulation key is below 3,329 (Table 8.6). -/
def ekOk (ek : Bytes) : Bool := (kemCoeffs (ek.take (ek.length - 32))).all (· < 3329)

/-- The embedded hash of a decapsulation key of FIPS 203: H(ek), then z, at its end (Table 8.6). -/
def dkOk (set : Nat) (dk : Bytes) : Bool :=
  let ekLen := (kemLens set).1
  let n := dk.length - 64 - ekLen
  digest 0x12 0 (sub dk n ekLen) == sub dk (n + ekLen) 32

/-- Curve load (R271 to R273): the checks of Table 8.8 with 64 bases. -/
def curveLoadRun (o : Bytes) (draw : Nat) : PkOut :=
  match parseCurve o with
  | none => pkFail .malformed
  | some (e, c) =>
    let bases := (List.range 64).map fun i => beNat (drbgBytes draw (80 * i) 80)
    if curveChecks c bases then { pkOk [] with curve := some (e, c) } else pkFail .pkeParamInvalid

/-- The operation of a 0x60 job, budgets counting the further budgets of R267; none while an ML-DSA budget has no candidate. -/
def State.pkRun (s : State) (j : Job) (draw budgets : Nat) : Option PkOut :=
  let b := j.aux.getD []
  let o := sub j.image 0 (eLen j.entry)
  let cv := ppCurve b
  let rec' := j.pk.getD []
  let body := rec'.drop 128
  let sub' := eSub j.entry
  let kek := ((j.mainKey false).map fun h => s.matOf j.domain h).getD []
  let k := rsaK sub' b rec'
  let alg := (parseRec rec').alg
  match sub' with
  | 0x01 => some (rsaPrivateRun b o body k draw)
  | 0x02 => some (rsaPublicRun b o k draw)
  | 0x10 => some (match s.primeCurve cv with
    | some c => ecdsaSign cv c (ppDet b) (beNat (body.take c.f)) o draw
    | none => pkFail .pkeParamInvalid)
  | 0x11 => some (match s.primeCurve cv with
    | some c => ecdsaVerifyRun c o
    | none => pkFail .pkeParamInvalid)
  | 0x12 => some (match s.primeCurve cv with
    | some c => ecdhRun c (beNat (body.take c.f)) o
    | none => pkFail .pkeParamInvalid)
  | 0x13 =>
    let g := s.generate cv draw
    some (pkOk (g.1 ++ kwpWrap kek g.2))
  | 0x20 =>
    let m := o.take (o.length - ppCtx b)
    some (pkOk (edSign (alg == 0x09) (ppPh b) (body.take (if alg == 0x09 then 57 else 32)) (o.drop (o.length - ppCtx b)) m))
  | 0x21 =>
    let is448 := cv == 0x09
    let n := if is448 then 57 else 32
    let m := o.drop (3 * n)
    some (pkVerdict (edVerify is448 (ppPh b) (o.take n) (Machine.sub o n (2 * n)) (m.drop (m.length - ppCtx b))
      (m.take (m.length - ppCtx b))))
  | 0x24 =>
    let z := x25519 (body.take 32) o
    some (if allZero z then pkFail .pkeParamInvalid else pkSecret [] z)
  | 0x30 =>
    let g := mlKemKeyGen cv (drbgBytes draw 0 64)
    some (pkOk (g.1 ++ kwpWrap kek g.2))
  | 0x31 =>
    let r := mlKemEncaps cv o (drbgBytes draw 0 32)
    some (if ekOk o then pkSecret r.1 r.2 else pkFail .pkeParamInvalid)
  | 0x32 => some (if dkOk alg body then pkSecret [] (mlKemDecaps alg body o) else pkFail .pkeParamInvalid)
  | 0x38 =>
    let g := mlDsaKeyGen cv (drbgBytes draw 0 32)
    some (pkOk (g.1 ++ kwpWrap kek g.2))
  | 0x39 =>
    if !mlDsaSkOk alg body then some (pkFail .pkeParamInvalid)
    else ((List.range (budgets + 1)).findSome? (dsaBudgetRun b body o draw)).map fun sig => pkOk sig
  | 0x3A =>
    let (pl, _, sl) := dsaLens cv
    some (pkVerdict (mlDsaVerify cv (o.take pl) (dsaMessage b (o.drop (pl + sl))) (Machine.sub o pl sl)))
  | _ => some (curveLoadRun o draw)

/-- The secret that R260 stores in a slot of a record, none when it gives KEY_DENIED. -/
def secretFor (r : KeyRec) (k : Bytes) : Option Bytes :=
  if r.alg == 0x20 then some (if k.length > 64 then digest r.hdigest 0 k else k)
  else if klenOk r.alg k.length && !xtsWeak r.alg k then some k else none

end Sys2Proof.Machine
end

