-- ==== Sys2Proof/Machine/Plan.lean ====
section
/-! DEFINITION. Plans and lane maps: plan records (R40, R41), capacity and admissibility (R42, R43, R392), the slot map (R44 to R46), scaling (R68, R226), staging of changes (R59, R60), the CHIVE, DILL and BASIL maps (R55, R63 to R65, R67, R226, R248), unit, capacity and mode effects of losing or returning a unit (R389 to R391). -/

namespace Sys2Proof.Machine

/-! ## Plan records -/

/-- A plan record of Table 2.2; none when R41 refuses it. -/
def parsePlan (b : Bytes) : Option PlanRec :=
  let c := fieldLe b 0 2
  let d := fieldLe b 2 2
  let q := (byteAt b 4).toNat
  let cl := (byteAt b 5).toNat
  let cap := fieldLe b 6 2
  let w := (byteAt b 8).toNat
  let cls := bits cl 1 0
  let verified := bit cl 2
  let reserved := c < 2048 && d < 512 && q < 16 && cl < 8 && cap < 2048 && byteAt b 9 == 0 && fieldLe b 10 2 == 0
  let ranges := c ≤ 1000 && d ≤ 256 && q ≤ 14 && (cls == 1 || cls == 2)
  let perClass := if cls == 2 then cap == 0 && w == 0
    else 1 ≤ w && (cap == 0 || (max c 1 ≤ cap && cap ≤ 1000))
  let pairs := !verified || (c % 2 == 0 && d % 2 == 0 && q % 2 == 0)
  if reserved && ranges && perClass && pairs then
    some { chive := c, dill := d, basil := q, cls := if cls == 2 then .sealed else .shared, verified := verified, cap := cap,
           weight := w, revision := BitVec.ofNat 32 (fieldLe b 12 4) }
  else none

/-- The initial plan of R48. -/
def initialPlan : List (Nat × PlanRec) :=
  [(0, { chive := 16, dill := 16, basil := 1, cls := .shared, verified := false, cap := 0, weight := 1, revision := 0 })]

/-- Insert by ascending domain number, replacing an entry of the same number. -/
def planSet (d : Nat) (r : PlanRec) : List (Nat × PlanRec) → List (Nat × PlanRec)
  | [] => [(d, r)]
  | (e, x) :: l => if d < e then (d, r) :: (e, x) :: l else if d = e then (d, r) :: l else (e, x) :: planSet d r l

/-- Sealed domains by number, then shared domains by number (R44, R55). -/
def planOrder (p : List (Nat × PlanRec)) : List (Nat × PlanRec) :=
  p.filter (·.2.cls == .sealed) ++ p.filter (·.2.cls == .shared)

/-! ## The slot map -/

/-- Positions taken in each frame tick, a result map so far, and the domain that could not be placed. -/
structure Placing where
  /-- DILL positions of a tick: the healthy lanes (R226). -/
  dillUnits : Nat
  chive : List Nat
  dill : List Nat
  slots : List Slot
  failed : Option (Nat × LaneKind)
  deriving DecidableEq, Repr

/-- Positions of a unit kind in a tick. -/
def unitPositions : LaneKind → Nat
  | .chive => 64
  | .dill => 16

/-- Positions of a unit kind that a compilation fills in a tick. -/
def Placing.units (m : Placing) : LaneKind → Nat
  | .chive => unitPositions .chive
  | .dill => m.dillUnits

def Placing.used (m : Placing) (u : LaneKind) (f : Nat) : Nat :=
  match u with
  | .chive => nth m.chive f 0
  | .dill => nth m.dill f 0

/-- Take one unit (a pair of positions when w is 2) of domain d in frame tick f. -/
def Placing.take (m : Placing) (d : Nat) (u : LaneKind) (w f : Nat) : Placing :=
  let p := m.used u f
  let new : List Slot := (List.range w).map fun i => { frame := f, unit := u, pos := p + i, domain := d, second := i = 1 }
  let m := { m with slots := m.slots ++ new }
  match u with
  | .chive => { m with chive := m.chive.set f (p + w) }
  | .dill => { m with dill := m.dill.set f (p + w) }

/-- Frame tick f has a free unit. -/
def Placing.free (m : Placing) (u : LaneKind) (w f : Nat) : Bool := m.used u f + w ≤ m.units u

/-- The first frame tick from f on, cyclically, with a free unit. -/
def Placing.seek (m : Placing) (u : LaneKind) (w : Nat) : Nat → Nat → Option Nat
  | 0, _ => none
  | fuel + 1, f => if m.free u w f then some f else m.seek u w fuel ((f + 1) % 16)

/-- Take a unit in frame tick f, or note that it cannot be placed. -/
def Placing.takeAt (m : Placing) (d : Nat) (u : LaneKind) (w f : Nat) : Placing :=
  if m.failed.isSome then m
  else if m.free u w f then m.take d u w f else { m with failed := some (d, u) }

/-- Take a unit in the first frame tick from f on that has one. -/
def Placing.takeFrom (m : Placing) (d : Nat) (u : LaneKind) (w f : Nat) : Placing :=
  if m.failed.isSome then m
  else match m.seek u w 16 f with
    | some g => m.take d u w g
    | none => { m with failed := some (d, u) }

/-- Place the share of one domain for one unit (R44). -/
def Placing.place (m : Placing) (d : Nat) (u : LaneKind) (share : Nat) (verified : Bool) : Placing :=
  let w := if verified then 2 else 1
  let s := share / w
  let b := s / 16
  let r := s % 16
  let m := (List.range 16).foldl (fun m f => (List.range b).foldl (fun m _ => m.takeAt d u w f) m) m
  (List.range r).foldl (fun m k => m.takeFrom d u w ((k * 16 / r + d) % 16)) m

/-- Compile a set of records (R44) against h DILL slots in each frame tick (R226). -/
def compilePlan (h : Nat) (p : List (Nat × PlanRec)) : Placing :=
  (planOrder p).foldl (fun m x => (m.place x.1 .chive x.2.chive x.2.verified).place x.1 .dill x.2.dill x.2.verified)
    { dillUnits := h, chive := List.replicate 16 0, dill := List.replicate 16 0, slots := [], failed := none }

/-! ## Capacity -/

/-- Healthy lanes that serve positions: H of R67. -/
def State.lanesInService (s : State) : Nat := (s.thyme.laneOf.filter (·.isSome)).length

/-- Plannable capacity of R42. -/
def plannable (h : Nat) : Nat := h * 16 * 125 / 128

/-- Healthy DILL lanes. -/
def State.healthyDill (s : State) : Nat := (s.sorrel.dill.filter (·.health == .healthy)).length

/-- Lit BASIL positions. -/
def State.litBasil (s : State) : Nat := (s.thyme.seqOf.filter (·.isSome)).length

/-- Active memory ports: P of R392, with the positions that a spare port takes at the next boundary (R456, R457). -/
def State.activePorts (s : State) : Nat :=
  let waiting := ((List.range 8).filter fun k => (s.portAt k).isNone && s.admin.changes.contains (.position k)).length
  ((List.range 8).filter fun k => (s.portAt k).isSome).length + min waiting (s.sorrel.ports.filter fun p => p.role == .spare).length

/-- Sum of a share over a plan. -/
def shareSum (f : PlanRec → Nat) (p : List (Nat × PlanRec)) : Nat := (p.map fun x => f x.2).sum

/-- Port beats that a record's shares charge (R43). -/
def PlanRec.beats (r : PlanRec) : Nat := 32 * r.chive + 16 * r.dill

/-- A set of records is admissible (R43, R392). -/
def State.admissible (s : State) (p : List (Nat × PlanRec)) : Bool :=
  shareSum (·.chive) p ≤ plannable s.lanesInService && shareSum (·.dill) p ≤ 256 && shareSum (·.basil) p ≤ 14
  && shareSum (·.beats) p ≤ 4000 * s.activePorts && (compilePlan (unitPositions .dill) p).failed.isNone

/-! ## Scaling -/

/-- A share scaled to a of s (R68), in pairs for a verified domain. -/
def scaleShare (verified : Bool) (x a s : Nat) : Nat :=
  if s = 0 then x else if verified then 2 * (x / 2 * a / s) else x * a / s

/-- Lower one kind of share to a capacity by the rule of R68; get and set reach the share, weigh gives what it charges. -/
def scaleBy (weigh : PlanRec → Nat) (upd : PlanRec → Nat → Nat → PlanRec) (cap : Nat) (p : List (Nat × PlanRec)) :
    List (Nat × PlanRec) :=
  let total := shareSum weigh p
  let sealed := shareSum weigh (p.filter (·.2.cls == .sealed))
  if total ≤ cap then p
  else if sealed ≤ cap then
    p.map fun x => if x.2.cls == .shared then (x.1, upd x.2 (cap - sealed) (total - sealed)) else x
  else p.map fun x => (x.1, if x.2.cls == .shared then upd x.2 0 1 else upd x.2 cap sealed)

/-- Lower the share of one unit of domain d by one unit, for a verified unit that cannot be placed (R44). -/
def lowerOne (d : Nat) (u : LaneKind) (p : List (Nat × PlanRec)) : List (Nat × PlanRec) :=
  p.map fun x => if x.1 != d then x else
    let w := if x.2.verified then 2 else 1
    (d, match u with
      | .chive => { x.2 with chive := x.2.chive - w }
      | .dill => { x.2 with dill := x.2.dill - w })

/-- Compile against h DILL lanes, lowering shares that cannot be placed; fuel bounds the shares. A domain that is not verified whose take finds its frame tick full is lowered in the same way; the spec says only that it never happens (DESIGN CHOICE, notes/assumptions/126). -/
def compileLowering (h : Nat) : Nat → List (Nat × PlanRec) → List (Nat × PlanRec) × Placing
  | 0, p => (p, compilePlan h p)
  | fuel + 1, p =>
    let m := compilePlan h p
    match m.failed with
    | none => (p, m)
    | some (d, u) => compileLowering h fuel (lowerOne d u p)

/-- The plan that the next epoch runs: scaled to the lanes, sequencers and ports left, and compiled (R44, R68, R226, R248, R392). -/
def State.compileFor (s : State) (p : List (Nat × PlanRec)) : List (Nat × PlanRec) × Placing :=
  let p := scaleBy (·.chive) (fun r a t => { r with chive := scaleShare r.verified r.chive a t }) (plannable s.lanesInService) p
  let p := scaleBy (·.dill) (fun r a t => { r with dill := scaleShare r.verified r.dill a t }) (16 * s.healthyDill) p
  let p := scaleBy (·.basil) (fun r a t => { r with basil := scaleShare r.verified r.basil a t }) s.litBasil p
  let p := scaleBy (·.beats) (fun r a t => { r with chive := scaleShare r.verified r.chive a t,
                                                    dill := scaleShare r.verified r.dill a t }) (4000 * s.activePorts) p
  compileLowering s.healthyDill 1300 p

/-- BASIL positions of a plan (R55): each domain takes the lowest free positions. -/
def basilPositions (p : List (Nat × PlanRec)) : List (Option Nat) :=
  padNone 14 ((planOrder p).flatMap fun x => List.replicate x.2.basil (some x.1))
where
  padNone (n : Nat) (l : List (Option Nat)) : List (Option Nat) := (l ++ List.replicate (n - l.length) none).take n

/-- Put a plan in force: compiled slot map and BASIL positions; each position keeps the sequencer that maps to it. -/
def State.usePlan (s : State) (p : List (Nat × PlanRec)) : State :=
  let (c, m) := s.compileFor p
  { s with thyme := { s.thyme with plan := p, compiled := c, slotMap := m.slots, basilOf := basilPositions c } }

/-! ## Staging of changes -/

/-- The epoch at which a change staged now takes effect (R59). -/
def State.effectEpoch (s : State) : Nat :=
  s.thyme.tick / 65536 + (if s.thyme.tick % 65536 ≤ 64511 then 1 else 2)

/-- The records as they will be with every staged change (R60). -/
def State.stagedSet (s : State) : List (Nat × PlanRec) :=
  s.thyme.staged.foldl (fun p c => match c.plan with
    | some r => planSet c.domain r p
    | none => p.filter (·.1 != c.domain)) s.thyme.plan

/-- Stage a change of one domain, replacing one that is staged (R60). A change in the last 1,024 ticks of an epoch replaces one of the same domain that was due at the coming boundary, though that one's completion named that epoch: the last one staged stands (DESIGN CHOICE, notes/assumptions/98). -/
def State.stagePlan (s : State) (d : Nat) (r : Option PlanRec) : State :=
  { s with thyme := { s.thyme with
      staged := (s.thyme.staged.filter fun c => !(c.domain == d)) ++ [{ domain := d, plan := r, epoch := s.effectEpoch }] } }

/-- The staged set with one change more is admissible (R43, R60). -/
def State.wouldAdmit (s : State) (d : Nat) (r : PlanRec) : Bool := s.admissible (planSet d r s.stagedSet)

/-! ## Lane maps -/

/-- Healthy lanes. -/
def State.healthyLanes (s : State) : List Nat :=
  (List.range 72).filter fun l => (s.sorrel.lanes[l]?).any (·.health == .healthy)

/-- The mapping of R63 for an epoch. The lanes of the reserve bunch that make up a difference stand at the top positions, behind the lanes of the other bunches; R63 leaves their positions open (DESIGN CHOICE, notes/assumptions/97). -/
def State.mapFor (s : State) (e : Nat) : List (Option Nat) :=
  let b := e % 9
  let h := s.healthyLanes
  let lanes := (h.filter fun l => l / 8 != b) ++ (h.filter fun l => l / 8 == b)
  (List.range 64).map fun p => lanes[p]?

/-- The DILL mapping of an epoch boundary: healthy lanes in ascending order (R226). -/
def State.dillMapFor (s : State) : List (Option Nat) :=
  let h := (List.range 16).filter fun l => (s.sorrel.dill[l]?).any (·.health == .healthy)
  (List.range 16).map fun p => h[p]?

/-- The reserve: healthy lanes that no position maps to (R63). -/
def State.reserveLanes (s : State) : List Nat := s.healthyLanes.filter fun l => !s.thyme.laneOf.contains (some l)

/-- Dark positions of each kind. -/
def State.dark (s : State) : Nat × Nat × Nat :=
  (64 - s.lanesInService, (s.thyme.dillOf.filter (·.isNone)).length, 14 - s.litBasil)

/-- Domains that hold a slot in one of some positions. -/
def State.holders (s : State) (u : LaneKind) (ps : List Nat) : List Nat :=
  (s.thyme.slotMap.filter fun x => x.unit == u && ps.contains x.pos).map (·.domain) |>.eraseDups

/-- Post the capacity event to the manager and to the domains given (R67, R226, R248). -/
def State.capacityEvent (s : State) (ds : List Nat) : State :=
  let (c, d, b) := s.dark
  let data := leBytes 1 c ++ leBytes 1 d ++ leBytes 1 b
  let s := s.event 0 0x16 1 s.lanesInService data
  ds.foldl (fun s x => if x = 0 then s else s.event x 0x16 1 s.lanesInService data) s

/-- Post a unit event (R389, Table 11.13): action 1 suspended, 2 returned, 3 retired, 4 replaced. -/
def State.unitEvent (s : State) (kind index action : Nat) : State :=
  s.event 0 0x17 1 index (leBytes 1 kind ++ leBytes 1 action)

/-- Degraded service while the CHIVE reserve holds no lane (R67, R391). A change between Service and Degraded service is no entry to Service: the plan and the accounts of R167 stay (DESIGN CHOICE, notes/assumptions/125). -/
def State.checkDegraded (s : State) : State :=
  match s.mode.mode with
  | .service => if s.reserveLanes.isEmpty then { s with mode := { s.mode with mode := .degraded } } else s
  | .degraded => if s.reserveLanes.isEmpty then s else { s with mode := { s.mode with mode := .service } }
  | _ => s

/-- Highest lit CHIVE position. -/
def State.topLit (s : State) : Option Nat := (List.range 64).reverse.find? fun p => (nth s.thyme.laneOf p none).isSome

/-- A position has lost its lane (R64): the lowest reserve lane takes it, or the lane of the highest lit position, which goes dark. Answers the replacing lane and the position that went dark. -/
def State.refill (s : State) (p : Nat) : State × Option Nat × Option Nat :=
  let set (s : State) (p : Nat) (l : Option Nat) : State := { s with thyme := { s.thyme with laneOf := s.thyme.laneOf.set p l } }
  let s := set s p none
  match s.reserveLanes with
  | l :: _ => (set s p (some l), some l, none)
  | [] => match s.topLit with
    | some t => if t > p then
        let l := nth s.thyme.laneOf t none
        (set (set s t none) p l, none, some t)
      else (s, none, some p)
    | none => (s, none, some p)

/-- Change the state of a CHIVE lane. -/
def State.setLane (s : State) (l : Nat) (f : UnitState → UnitState) : State :=
  { s with sorrel := { s.sorrel with lanes := s.sorrel.lanes.modify l f } }

def State.setDillLane (s : State) (l : Nat) (f : UnitState → UnitState) : State :=
  { s with sorrel := { s.sorrel with dill := s.sorrel.dill.modify l f } }

def State.setSeq (s : State) (l : Nat) (f : UnitState → UnitState) : State :=
  { s with sorrel := { s.sorrel with basil := s.sorrel.basil.modify l f } }

/-- Take CHIVE lanes out of service and commit the new map (R64, R390): the lowest position takes the lowest reserve lane. Alone says that the lanes' own events are posted. -/
def State.takeOut (s : State) (ls : List Nat) (alone : Bool) : State :=
  let ps := (List.range 64).filter fun p => (nth s.thyme.laneOf p none).any ls.contains
  let s := ps.foldl (fun (s : State) p => { s with thyme := { s.thyme with laneOf := s.thyme.laneOf.set p none } }) s
  let (s, dark) := ps.foldl (fun (a : State × List Nat) p =>
    let (s, lane, dark) := a.1.refill p
    let s := match lane with
      | some l => if alone then s.unitEvent 0x01 l 4 else s
      | none => s
    (s, a.2 ++ dark.toList)) (s, [])
  let s := if dark.isEmpty then s else s.capacityEvent (s.holders .chive dark)
  s.checkDegraded

/-- Suspend a CHIVE lane for its test set (R389). -/
def State.suspendLane (s : State) (l : Nat) : State :=
  if (s.sorrel.lanes[l]?).any (·.health == .healthy) then
    let s := s.setLane l fun x => { x with health := .suspended, suspensions := x.suspensions + 1, tested := 0, withBunch := false }
    (s.unitEvent 0x01 l 1).takeOut [l] true
  else s

/-- Lanes of a bunch. -/
def bunchLanes (b : Nat) : List Nat := (List.range 8).map fun i => 8 * b + i

/-- Suspend a bunch whole (R390); one with no lane left is retired already. -/
def State.suspendBunch (s : State) (b : Nat) : State :=
  let ls := (bunchLanes b).filter fun l => (s.sorrel.lanes[l]?).any (·.health != .retired)
  if ls.isEmpty then s else
  let s := ls.foldl (fun s l => s.setLane l fun x =>
    { x with health := .suspended, suspensions := x.suspensions + (if x.health == .healthy then 1 else 0), tested := 0,
             withBunch := true }) s
  (s.unitEvent 0x02 b 1).takeOut ls false

/-- A bunch's tests are over when none of its lanes is suspended with it: its return, or its retirement when none came back (R390). -/
def State.bunchOver (s : State) (b : Nat) : State :=
  let ls := (bunchLanes b).filterMap fun l => s.sorrel.lanes[l]?
  if ls.any fun x => x.withBunch && x.health == .suspended then s
  else
    let back := ls.any fun x => x.withBunch && x.health == .healthy
    let s := (bunchLanes b).foldl (fun s l => s.setLane l fun x => { x with withBunch := false }) s
    s.unitEvent 0x02 b (if back then 2 else 3)

/-- A suspended lane returns (R65): it lights the lowest dark position, or joins the reserve. -/
def State.returnLane (s : State) (l : Nat) : State :=
  match s.sorrel.lanes[l]? with
  | none => s
  | some x =>
    if x.health != .suspended then s
    else
      let s := s.setLane l fun x => { x with health := .healthy }
      let s := match (List.range 64).find? fun p => (nth s.thyme.laneOf p none).isNone with
        | some p =>
          let s := { s with thyme := { s.thyme with laneOf := s.thyme.laneOf.set p (some l) } }
          s.capacityEvent (s.holders .chive [p])
        | none => s
      let s := if x.withBunch then s.bunchOver (l / 8) else s.unitEvent 0x01 l 2
      s.checkDegraded

/-- A lane is retired (R389): a healthy one leaves its position too. -/
def State.retireLane (s : State) (l : Nat) : State :=
  match s.sorrel.lanes[l]? with
  | none => s
  | some x =>
    if x.health == .retired then s
    else
      let s := s.setLane l fun x => { x with health := .retired }
      let s := if x.withBunch then s.bunchOver (l / 8) else s.unitEvent 0x01 l 3
      if x.health == .healthy then s.takeOut [l] true else s.checkDegraded

/-- Suspend a DILL lane: its position carries no slice (R389). -/
def State.suspendDill (s : State) (l : Nat) : State :=
  if (s.sorrel.dill[l]?).any (·.health == .healthy) then
    (s.setDillLane l fun x => { x with health := .suspended, suspensions := x.suspensions + 1, tested := 0 }).unitEvent 0x03 l 1
  else s

/-- A DILL lane returns to its position, or is retired: the position goes dark (R226, R389). -/
def State.endDill (s : State) (l : Nat) (ok : Bool) : State :=
  if ok then (s.setDillLane l fun x => { x with health := .healthy }).unitEvent 0x03 l 2
  else
    let s := (s.setDillLane l fun x => { x with health := .retired }).unitEvent 0x03 l 3
    match s.thyme.dillOf.findIdx? (· == some l) with
    | some p =>
      let s := { s with thyme := { s.thyme with dillOf := s.thyme.dillOf.set p none } }
      s.capacityEvent (s.holders .dill [p])
    | none => s

/-! ## BASIL positions (R248) -/

/-- Healthy sequencers that no service position maps to: the reserve. -/
def State.reserveSeqs (s : State) : List Nat :=
  (List.range 16).filter fun q => (s.sorrel.basil[q]?).any (·.health == .healthy) && !s.thyme.seqOf.contains (some q)

/-- Domains that hold a BASIL position. -/
def State.basilHolders (s : State) (p : Nat) : List Nat := (nth s.thyme.basilOf p none).toList

/-- The position of a sequencer that leaves service takes a reserve sequencer, else the one of the highest lit position, which goes dark (R248). -/
def State.vacateSeq (s : State) (q : Nat) : State :=
  match s.thyme.seqOf.findIdx? (· == some q) with
  | none => s
  | some p =>
    let set (s : State) (p : Nat) (l : Option Nat) : State := { s with thyme := { s.thyme with seqOf := s.thyme.seqOf.set p l } }
    let s := set s p none
    match s.reserveSeqs with
    | r :: _ => (set s p (some r)).unitEvent 0x04 r 4
    | [] => match (List.range 14).reverse.find? fun t => (nth s.thyme.seqOf t none).isSome with
      | some t => if t > p then
          let r := nth s.thyme.seqOf t none
          let s := set (set s t none) p r
          s.capacityEvent (s.basilHolders t)
        else s.capacityEvent (s.basilHolders p)
      | none => s.capacityEvent (s.basilHolders p)

/-- Suspend a sequencer (R389). -/
def State.suspendSeq (s : State) (q : Nat) : State :=
  if (s.sorrel.basil[q]?).any (·.health == .healthy) then
    let s := s.setSeq q fun x => { x with health := .suspended, suspensions := x.suspensions + 1, tested := 0 }
    (s.unitEvent 0x04 q 1).vacateSeq q
  else s

/-- A sequencer's test ends: it returns to the reserve or lights a dark position, or it is retired (R65, R389). -/
def State.endSeq (s : State) (q : Nat) (ok : Bool) : State :=
  if ok then
    let s := (s.setSeq q fun x => { x with health := .healthy }).unitEvent 0x04 q 2
    match (List.range 14).find? fun p => (nth s.thyme.seqOf p none).isNone with
    | some p =>
      let s := { s with thyme := { s.thyme with seqOf := s.thyme.seqOf.set p (some q) } }
      s.capacityEvent (s.basilHolders p)
    | none => s
  else
    let healthy := (s.sorrel.basil[q]?).any (·.health == .healthy)
    let s := (s.setSeq q fun x => { x with health := .retired }).unitEvent 0x04 q 3
    if healthy then s.vacateSeq q else s

end Sys2Proof.Machine
end

