-- ==== Sys2Proof/Machine/SageCore.lean ====
section
/-! DEFINITION. SAGE's arithmetic: the addend (R287, R288), tick lengths (R32, R33), the servo (R309 to R312), the uncertainty estimate (R313), the counter pair (R291, R292), steps (R289, R290, R34) and the time statement (R314, R315, R282). -/

namespace Sys2Proof.Machine

def State.setSage (s : State) (f : Sage → Sage) : State := { s with sage := f s.sage }

/-! ## The addend -/

/-- The nominal addend A0, in 2^-40 ns (R287). -/
def addend0 : Int := 0x1999999999A

/-- The clamp of adj (R288). -/
def adjLimit : Int := 879609302

/-- The active addend A0 + adj. -/
def Sage.addend (g : Sage) : Nat := (addend0 + g.adj).toNat

/-- The next whole multiple of 160 ns. -/
def Sage.nextMultiple (g : Sage) : Nat := (g.now / tickUnit + 1) * tickUnit

/-- The counter at the ck_time edge of the next tick boundary: the additions that reach the next whole multiple of 160 ns, the residue kept (R30, R287). -/
def Sage.nextEdge (g : Sage) : Nat := g.now + ceilDiv (g.nextMultiple - g.now) g.addend * g.addend

/-- e_servo (R313): e_step until the next accepted input; in FW mode that of the last ADJUST; else the largest |o| of the last 16 accepted inputs. -/
def Sage.eServo (g : Sage) : BitVec 32 :=
  match g.eStep with
  | some e => e
  | none => if g.servoMode == .fw then g.eAdjust else BitVec.ofNat 32 (min 0xFFFFFFFF (ceilDiv (g.recentO.foldl max 0) 256))

/-- adj of a frequency in 2^-16 ppb, to the nearest integer (R288). -/
def adjOf (f : Int) : Int := (2 * addend0 * f + 65536 * 1000000000) / (2 * 65536 * 1000000000)

/-- v within ± lim. -/
def clampInt (lim v : Int) : Int := max (-lim) (min lim v)

/-- A signed value in n bytes, two's complement. -/
def intBytes (n : Nat) (v : Int) : Bytes := leBytes n (v % (256 ^ n : Nat)).toNat

/-- A signed little-endian field. -/
def fieldInt (b : Bytes) (off len : Nat) : Int :=
  let v := fieldLe b off len
  if v < 2 ^ (8 * len - 1) then (v : Int) else (v : Int) - (256 ^ len : Nat)

/-- The limit of y_int and of the frequency in force: 500 ppm in 2^-16 ppb (R288, R310). -/
def freqLimit : Int := 500000 * 65536

/-- Request a frequency in 2^-16 ppb (R288): the addend changes at the next tick boundary, and with it freq, the frequency in force: the clamped one when the request asks for more (R312). -/
def State.requestFreq (s : State) (f : Int) : State :=
  let a := adjOf f
  let c := clampInt adjLimit a
  let s := s.setSage fun g => { g with adjNext := some c, freqNext := some (clampInt freqLimit f), saturated := c != a }
  if c != a then s.eventO 0x1B 1 0 (intBytes 8 a) else s

/-- Length in core cycles of a tick under an addend, with the fraction carried in 2^-24 cycles (R32): 255 to 257. -/
def tickLength (addend acc : Nat) : Nat × Nat :=
  let total := 256 * 2 ^ 24 * addend0.toNat / addend + acc
  let n := min 257 (max 255 (total / 2 ^ 24))
  (n, total - n * 2 ^ 24)

/-! ## The servo -/

/-- A setup register of SAGE, by its offset in the SG_ window. -/
def State.sg (s : State) (off : Nat) : Nat := s.regN (0x70000 + off)

/-- Servo states as numbers (Table 9.11). -/
def ServoState.num : ServoState → Nat
  | .freerun => 0
  | .locking => 1
  | .locked => 2
  | .holdover => 3

/-- Servo modes as numbers (Table 9.10). -/
def ServoMode.num : ServoMode → Nat
  | .fw => 0
  | .hw => 1
  | .pps0 => 2
  | .pps1 => 3

/-- The mode of a number. -/
def servoModeOf (n : Nat) : ServoMode :=
  match n with
  | 0 => .fw
  | 1 => .hw
  | 2 => .pps0
  | _ => .pps1

/-- Change the servo state, with its event (R311); the run of good inputs starts again with LOCKING and HOLDOVER (notes/assumptions/31). -/
def State.servoTo (s : State) (st : ServoState) : State :=
  if s.sage.servoState == st then s
  else
    let old := s.sage.servoState
    let s := s.setSage fun g => { g with servoState := st, goodRun := if st == .locked then g.goodRun else 0 }
    s.eventO 0x23 2 st.num (leBytes 1 old.num ++ leBytes 1 s.sage.servoMode.num)

/-- The servo state after an accepted input of size a, in 2^-16 ns (R311). -/
def State.servoStep (s : State) (a : Nat) : State :=
  let lim := s.sg 0x24 * 256
  let s := match s.sage.servoState with
    | .freerun => s.servoTo .locking
    | .holdover => s.servoTo .locking
    | .locked => if a > 4 * lim then s.servoTo .locking else s
    | .locking => s
  let s := s.setSage fun g => { g with goodRun := if a ≤ lim then g.goodRun + 1 else 0 }
  if s.sage.servoState == .locking && s.sage.goodRun ≥ 16 then s.servoTo .locked else s

/-- Predicted frequency of the model at a temperature in quarter degrees (R312). -/
def OscModel.fNeed (m : OscModel) (theta : Int) : Int :=
  let d := theta - 100
  m.c0 + m.c1 * d / 4 + m.c2 * d * d / 16

/-- Reset of the model (R380); its least squares start again. -/
def State.resetModel (s : State) : State :=
  s.setSage fun g => { g with model :=
    { c0 := g.freq, c1 := 0, c2 := 0, cov := [], rms := 0, yB := 100 * s.sg 0x34, inputs := 0, isSet := g.model.isSet, wide := true } }

/-- Sum of products. -/
def dot (x y : List Rat) : Rat := (List.zipWith (· * ·) x y).sum

/-- One step of recursive least squares with forgetting factor l (R312): from coefficients c and covariance p, by rows, for regressors phi and a measured y. -/
def rlsStep (l : Rat) (c : List Rat) (p : List (List Rat)) (phi : List Rat) (y : Rat) : List Rat × List (List Rat) :=
  let v := p.map (dot · phi)
  let gain := v.map (· / (l + dot phi v))
  (List.zipWith (fun a k => a + k * (y - dot c phi)) c gain,
   List.zipWith (fun row k => List.zipWith (fun a b => (a - k * b) / l) row v) p gain)

/-- One update of the model at an accepted input with offset o, n ticks after the last (R312). The spec gives least squares and a forgetting factor, and neither a first covariance, a number format nor the window of the running RMS: those are free values (notes/assumptions/1). -/
def State.updateModel (s : State) (o : Int) (freq : Int) (n : Nat) : State :=
  let g := s.sage
  let m := g.model
  let theta : Rat := if g.thetaCnt = 0 then g.theta else (g.thetaSum : Rat) / g.thetaCnt
  let d := (theta - 100) / 4
  let phi := [1, d, d * d]
  let y := freq - (o - g.lastO) * 6250000 / n
  let first := (List.range 3).map fun i => (List.range 3).map fun j => Config.rlsFirst i j
  let (c, p) := rlsStep (1023 / 1024) [(m.c0 : Rat), m.c1, m.c2] (if m.cov.isEmpty then first else m.cov) phi y
  let coef (i : Nat) : Int := Config.rlsRound (c.getD i 0)
  let resid := (y : Rat) - dot [(coef 0 : Rat), coef 1, coef 2] phi
  let rms := Config.rmsUpdate m.inputs m.rms resid
  let inputs := m.inputs + 1
  let wide := m.wide && inputs < 64
  let yB := if wide then 100 * s.sg 0x34 else max (s.sg 0x34) (3 * rms)
  s.setSage fun g => { g with model :=
    { c0 := coef 0, c1 := coef 1, c2 := coef 2, cov := p.map fun row => row.map Config.rlsStore, rms := rms, yB := yB, inputs := inputs,
      isSet := true, wide := wide } }

/-- An accepted input (R309 to R313): o the offset in 2^-16 ns, a what stands for its size, eFw the e_servo of FW mode. -/
def State.acceptInput (s : State) (o : Int) (a : Nat) (eFw : Option (BitVec 32)) : State :=
  let g := s.sage
  let dt := g.sinceInput
  let applied := g.freq
  let recent := (a :: g.recentO).take 16
  let s := s.setSage fun g => { g with recentO := recent, eStep := none, eAdjust := eFw.getD g.eAdjust }
  let s : State := match eFw, dt with
    | none, some n =>
      if n = 0 then s
      else
        let r := o * 6250000 / n
        let y := clampInt freqLimit (g.yInt - r / 2 ^ bits (s.sg 0x20) 12 8)
        let f := g.yInt - r / 2 ^ bits (s.sg 0x20) 12 8 - r / 2 ^ bits (s.sg 0x20) 4 0
        (s.setSage fun g => { g with yInt := y }).requestFreq f
    | _, _ => s
  let s := s.servoStep a
  let s : State := match dt with
    | some n => if s.sage.servoState == .locked && n != 0 then s.updateModel o applied n else s
    | none => s
  s.setSage fun g => { g with lastO := o, sinceInput := some 0, thetaSum := 0, thetaCnt := 0 }

/-! ## Control jobs -/

/-- A SAMPLE takes effect (R299, R309): in HW mode it is accepted within SG_OUTLIER, or as the fourth in a row above it. -/
def State.applySample (s : State) (o : Int) (eRef eAsym : BitVec 32) (refId : Bytes) : State :=
  let hw := s.sage.servoMode == .hw
  let out := decide (o.natAbs > s.sg 0x28 * 256)
  let ok := hw && (!out || decide (s.sage.outliers ≥ 3))
  let s := s.setSage fun g =>
    { g with eRef := eRef, eAsym := eAsym, refId := refId, sampleO := o, outliers := if hw && !ok then g.outliers + 1 else 0 }
  if ok then s.acceptInput o o.natAbs none else s

/-- A change by a control job takes effect (R299). -/
def State.applyTime (s : State) (c : TimeChange) : State :=
  match c with
  | .adjust f e => (s.acceptInput s.sage.sampleO (e.toNat * 256) (some e)).requestFreq f
  | .sample o r a i => s.applySample o r a i
  | .servoMode m => s.setSage fun g => { g with servoMode := m }
  | .keyEntry i k =>
    let other (x : TimeKey) : Bool := x.index != i
    s.setSage fun g => { g with keys := g.keys.filter other ++ k.toList }
  | .utc o l a => s.setSage fun g => { g with utcOffset := o, leap := l, leapAt := a }

/-- The changes of control jobs at a boundary, each tick counted into the interval since the last input first (R299, R313); PPS pulses end (R295). -/
def State.applyTimes (s : State) : State :=
  let m := s.thyme.tick + 1
  let live (e : Option Nat) : Option Nat := e.filter (m < ·)
  let cs := s.sage.waiting
  let s := s.setSage fun g =>
    { g with sinceInput := g.sinceInput.map fun n => min (n + 1) (2 ^ 64 - 1), waiting := [], ppsEnd0 := live g.ppsEnd0, ppsEnd1 := live g.ppsEnd1 }
  cs.foldl State.applyTime s

/-! ## The estimate -/

/-- e_hold in 2^-8 ns, rounded up (notes/assumptions/32). -/
def State.eHold (s : State) : Nat :=
  let n := s.sage.sinceInput.getD 0
  ceilDiv (s.sage.model.yB * n * (2 * 6250000) + s.sg 0x30 * n * n) (2 * 6250000 * 6250000 * 256)

/-- The uncertainty estimate e (R313). -/
def State.estimate (s : State) : Nat :=
  if s.sage.servoState == .freerun then 0xFFFFFFFF
  else min 0xFFFFFFFF (s.sage.eRef.toNat + s.sage.eAsym.toNat + s.sg 0x2C + s.sage.eServo.toNat + s.eHold)

/-! ## The counter pair -/

/-- A counter of the pair. -/
def Sage.counter (g : Sage) (b : Bool) : Counter := if b then g.ctrB else g.ctrA

def Sage.setCounter (g : Sage) (b : Bool) (f : Counter → Counter) : Sage :=
  if b then { g with ctrB := f g.ctrB } else { g with ctrA := f g.ctrA }

/-- A counter is marked failed; the third failure of an epoch retires it (R291, R292). -/
def State.failCounter (s : State) (b : Bool) : State :=
  if (s.sage.counter b).retired then s
  else
    let s := s.setSage fun g => g.setCounter b fun c =>
      { c with failed := true, agreed := 0, failures := c.failures + 1, retired := decide (c.failures + 1 ≥ 3) }
    s.event 0 0x19 1 (if b then 1 else 0) [if (s.sage.counter b).retired then 3 else 1]

/-- A counter can be the active one. -/
def Counter.usable (c : Counter) : Bool := !c.failed && !c.retired && !c.testing

/-- SAGE runs on one counter (R292). -/
def Sage.single (g : Sage) : Bool := g.ctrA.retired || g.ctrB.retired

/-- The comparison at a tick boundary (R291), and whether the active counter was swapped. SAGE that runs on one counter can no longer swap; when it is the active one that is retired, SAGE goes over to the other (R292). -/
def State.compareCounters (s : State) (aFails bFails disagree : Bool) : State × Bool :=
  let active := s.sage.activeB
  let s := if aFails then s.failCounter false else s
  let s := if bFails then s.failCounter true else s
  let s := if disagree && !aFails && !bFails then s.failCounter (!active) else s
  let activeFails := if active then bFails else aFails
  let other := (s.sage.counter (!active)).usable
  let swap := other && (if s.sage.single then (s.sage.counter active).retired
    else disagree && activeFails && !(if active then aFails else bFails))
  (if swap then s.setSage fun g => { g with activeB := !active } else s, swap)

/-- A failed counter is reloaded and counts the consecutive ticks in which it agrees with the active one (R292). -/
def State.repairCounters (s : State) (aFails bFails disagree : Bool) : State :=
  let up (bad : Bool) (c : Counter) : Counter :=
    if c.failed && !c.retired then { c with agreed := if bad || disagree then 0 else c.agreed + 1 } else c
  s.setSage fun g => { g with ctrA := up aFails g.ctrA, ctrB := up bFails g.ctrB }

/-! ## Steps -/

/-- The TAI second of R497, and its time. -/
def endSecond : Nat := 2951479051793
def endTime : Nat := endSecond * 1000000000 * nsUnit

/-- A 12-byte timestamp as a time (Table 9.1). -/
def timeOf (b : Bytes) : Nat := (fieldLe b 6 6 * 1000000000 + fieldLe b 2 4) * nsUnit + fieldLe b 0 2 * 2 ^ 24

/-- The time that a step target names, from the counter now; none before the epoch. -/
def StepTarget.time (t : StepTarget) (now : Nat) : Option Nat :=
  match t with
  | .absolute v => some v
  | .offset d => if (now : Int) + d < 0 then none else some ((now : Int) + d).toNat

/-- A tick number moved by a step of time: intervals that run across the step keep their length (notes/assumptions/33). -/
def moveTick (d : Int) (n : Nat) : Nat := ((n : Int) + d).toNat

/-- Ticks kept for the measure of intervals follow a step of d ticks. -/
def State.shiftTimers (s : State) (d : Int) : State :=
  let m := moveTick d
  { s with
    mode := { s.mode with drainTick := m s.mode.drainTick, step3Tick := m s.mode.step3Tick }
    sage := { s.sage with ppsEnd0 := s.sage.ppsEnd0.map m, ppsEnd1 := s.sage.ppsEnd1.map m }
    dill := { s.dill with rp := { s.dill.rp with since := m s.dill.rp.since, openTick := m s.dill.rp.openTick } }
    fennel := { s.fennel with
      jobs := s.fennel.jobs.map fun j => { j with
        stagedTick := m j.stagedTick, slices := j.slices.map fun x => { x with asked := m x.asked, eligible := m x.eligible } }
      queues := s.fennel.queues.map fun q =>
      { q with firstPending := q.firstPending.map m, lastInt := q.lastInt.map m,
               pushHalf := q.pushHalf.map fun h => { h with tick := m h.tick } } }
    parsley := { qs := s.parsley.qs.map fun q =>
      { q with lastStaged := m q.lastStaged, lastHeadRead := m q.lastHeadRead, lastInt := q.lastInt.map m } }
    keyBus := { s.keyBus with reqs := s.keyBus.reqs.map fun r => { r with tick := m r.tick } }
    admin := { s.admin with loads := s.admin.loads.map fun l => { l with accepted := m l.accepted } }
    sorrel := { s.sorrel with tests := s.sorrel.tests.map fun t => { t with accepted := m t.accepted } }
    lovage := { s.lovage with chal := s.lovage.chal.map fun c => { c with tick := m c.tick } }
    domains := s.domains.map fun x => { x with resetting := x.resetting.map m } }

/-- The step to time v at this boundary (R289, R290, R34): the counter, the tick number and the staged plan changes move; they wait for the first epoch boundary at least 1,024 ticks after it; a v off the 160 ns grid begins a short tick. -/
def State.applyStep (s : State) (v : Nat) (eStep : Option (BitVec 32)) : State :=
  let old := s.sage.now
  let n := v / tickUnit
  let s := s.shiftTimers ((n : Int) - s.thyme.tick)
  let s := s.setSage fun g => { g with now := v, pendingStep := none, eStep := eStep.or g.eStep }
  let s := { s with thyme := { s.thyme with tick := n, epoch := n / 65536, short := v % tickUnit != 0 } }
  let e := ceilDiv (v + 1024 * tickUnit) (65536 * tickUnit)
  let s := { s with thyme := { s.thyme with staged := s.thyme.staged.map fun c => { c with epoch := e } } }
  let ev : Event := { mkEvent s 0x09 0 0 (timestamp old) with cont := some (padTo 20 (timestamp v)) }
  let s := s.postEvent 0 ev
  if s.q1Owner = 0 then s else s.postEvent s.q1Owner ev

/-! ## The statement -/

/-- The attestation public key, uncompressed (R282). -/
def attestPublic (d : Nat) : Bytes := [0x04] ++ pointBytes curveP384 (ecMul curveP384 d curveP384.g)

/-- Bytes 0 to 159 of a time statement for domain d with a nonce, at the boundary of this tick (R315, Table 9.11). -/
def State.statement (s : State) (d : Nat) (nonce : Bytes) : Bytes :=
  let g := s.sage
  let e := s.estimate
  let flag (b : Bool) (n : Nat) := if b then 2 ^ n else 0
  let key := digest 0x03 0 (attestPublic (s.lovage.attKey.getD 0))
  leBytes 4 0x00090001 ++ leBytes 2 256
  ++ leBytes 1 (flag (e > s.sg 0x1C) 0 + flag (g.servoState == .holdover) 1 + flag g.saturated 2 + flag g.single 3
      + 16 * g.servoState.num + 64 * g.servoMode.num) ++ [0]
  ++ leBytes 4 (s.lovage.instanceId.getD 0) ++ leBytes 2 d ++ leBytes 2 0 ++ leBytes 8 s.thyme.tick
  ++ timestamp (s.thyme.tick * tickUnit) ++ leBytes 4 e ++ leBytes 4 (s.sg 0x1C) ++ leBytes 2 g.utcOffset.toNat
  ++ leBytes 1 g.leap.toNat ++ [0]
  ++ leBytes 8 (if g.servoState == .freerun then 2 ^ 64 - 1 else g.sinceInput.getD 0)
  ++ padTo 8 g.refId ++ padTo 16 nonce
  ++ leBytes 4 g.eRef.toNat ++ leBytes 4 g.eAsym.toNat ++ leBytes 4 (s.sg 0x2C) ++ leBytes 4 g.eServo.toNat
  ++ leBytes 4 (min 0xFFFFFFFF s.eHold) ++ key.take 8 ++ Machine.zeros 52

/-- The statement with its signature r ‖ s (R282, Table 9.11); none when both candidates fail (R268). -/
def signStatement (d : Nat) (stmt : Bytes) (draw : Nat) : Option Bytes :=
  let h := digest 0x03 0 stmt
  let c := curveP384
  let k (i : Nat) := scalarFrom c.n ((List.range 56).map fun x => Config.freeByte (draw + 80 * i + x))
  match (ecdsaTry c d (ecHash c h) (k 0)).or (ecdsaTry c d (ecHash c h) (k 1)) with
  | some (r, s) => some (stmt ++ beBytes 48 r ++ beBytes 48 s)
  | none => none

end Sys2Proof.Machine
end

