-- ==== Sys2Proof/Machine/Thyme.lean ====
section
/-! DEFINITION. THYME's assignment for the next tick: eligibility (R17, R37 to R39, R50, R130, R157, R181), the checks of the first slice (R195, R196, R204, R205), accounts (R167), slots and borrowing (R47 to R53, R56), zero fill (R170), retries (R66, R69, R70), tests (R387, R388), shadows (R384, R386), and BASIL operations (R55, R247 to R250, R259, R264, R283). -/

namespace Sys2Proof.Machine

/-! ## Eligibility -/

/-- A fence before the job on its queue has not completed (R130). -/
def State.fenced (s : State) (j : Job) : Bool :=
  s.fennel.jobs.any fun f => f.queue == j.queue && eOp f.entry == 0x7F && bit (eSub f.entry) 0 && f.queue != 0
    && s.ringPos f < s.ringPos j && f.phase != .confirmed

/-- The order rules of a slice's pass (R157, R173, R181). -/
def Job.orderMet (j : Job) (p : Pass) (k base : Nat) : Bool :=
  let done' (i : Nat) := j.deliveredIdx.contains i
  (match p.order with
    | .parallel => true
    | .fold => k + 1 < p.count || (List.range k).all fun i => done' (base + i)
    | .serial => k = p.first || done' (base + k - 1))
  && (if eOp j.entry == 0x50 then
        match j.passes with
        | [a, b] =>
          if base = 0 then true
          else if p.unit == .dill then k < a.first || done' k
          else done' k && (k + 1 < b.count || done' (a.count - 1)) && (!j.dillPair || done' (a.count - 1))
        | _ => true
      else j.earlierDone (base + k))

/-- Keys that the job charges or waits for (R196, R197). -/
def Job.chargeKeys (j : Job) : List JobKey := j.keys.filter fun k => runsMember (eOp j.entry) (eSub j.entry) k.role

/-- Every key that the job runs with is in its slot: one that a word lost waits for its KEY_LOAD (R17, Table 12.2). -/
def State.keysHeld (s : State) (j : Job) : Bool := j.chargeKeys.all fun k => (s.slot? j.domain k.handle).any (·.record.isSome)

/-- No posted load names a handle that the job names (R355). -/
def State.loadsClear (s : State) (j : Job) : Bool :=
  j.queue == loadQueue || !(s.admin.loads.any fun l => l.domain == j.domain && j.names l.handle)

/-- Every key has an unused index or has none left to come (R197), and no posted load names it (R355). -/
def State.keysReady (s : State) (j : Job) : Bool :=
  s.keysHeld j && s.loadsClear j && (j.charged || j.chargeKeys.all fun k => (s.slot? j.domain k.handle).any fun x => x.hasUse || x.exhausted)

/-- The job may have issues at all in this mode (R72, R327). -/
def State.jobRuns (s : State) (j : Job) : Bool := !s.resetNext j.domain && !s.fenced j

/-- An eligible slice. -/
structure Cand where
  job : Job
  slice : Slice
  pass : Pass
  deriving DecidableEq, Repr

/-- Key of R39; the unwrap of a posted load ranks as a slice of Q0 (R354). -/
def State.candKey (s : State) (c : Cand) : List Nat :=
  [if c.slice.retry then 0 else 1, if c.job.express then 0 else 1, c.slice.eligible, c.job.queue % loadQueue, s.ringPos c.job, c.slice.index]

/-- The conditions of R17 hold for a slice of a job on a unit: staged, keys and contexts in place, and what its mode requires before it delivered (R157, R181, R232). -/
def State.sliceReady (s : State) (u : LaneKind) (j : Job) (x : Slice) : Bool :=
  j.phase == .slices && s.jobRuns j && s.keysReady j && (u == .chive || s.ctxsReady j.queue j.count) && x.state == .staged
    && match passAt j.passes 0 x.index with
      | some (p, k, base) => p.unit == u && j.orderMet p k base
      | none => false

/-- Slices of one job that are eligible for tick m on a unit. -/
def State.jobCands (s : State) (u : LaneKind) (m : Nat) (j : Job) : List Cand :=
  j.slices.filterMap fun x =>
    if decide (x.eligible ≤ m) && s.sliceReady u j x then (passAt j.passes 0 x.index).map fun p => { job := j, slice := x, pass := p.1 } else none

/-- Eligible slices of a domain in the order of R39. -/
def State.cands (s : State) (d : Nat) (u : LaneKind) (m : Nat) : List Cand :=
  sortKey s.candKey ((s.fennel.jobs.filter (·.domain == d)).flatMap (s.jobCands u m))

/-- The most beats that a slice needs in one direction (R167). -/
def sliceBeats (n : Nat) : Nat := min 34 n

/-- Source bytes that a slice is charged for: a 0x50 stages a slice once for both engines, and charges its CHIVE slice (R167, R180). -/
def Cand.readRange (c : Cand) : Nat × Nat :=
  if eOp c.job.entry == 0x50 && (c.pass.unit == .chive || c.job.slices.any fun y => !c.job.onDill y.index && y.index % c.pass.count == c.slice.index % c.pass.count)
  then (if c.pass.unit == .chive then c.job.bufRange c.slice.index else (0, 0))
  else c.job.sourceRange c.slice.index

/-- Read and write beats of a slice (R167); a retry reads none (R168). R167 says that no slice needs more than 34 beats in a direction: a slice whose fragments touch more is charged 34, so that it fits at its domain's second offer at the latest; two fragments that share a beat count it twice (DESIGN CHOICE, notes/assumptions/92). -/
def Cand.beats (c : Cand) : Nat × Nat :=
  let r := c.readRange
  let w := c.job.outSpan c.slice.index
  (if c.slice.retry then 0 else sliceBeats (fragBeats c.job.srcFrags r.1 (r.2 - r.1)),
   sliceBeats (fragBeats (c.job.dstFrags w.2) w.1 (w.2 - w.1)))

/-! ## The checks of the first slice -/

/-- A key's window holds tick m. -/
def State.windowOk (s : State) (d h m : Nat) : Bool := (s.recOf d h).any fun r => r.notBefore ≤ m && m < r.notAfter

/-- A key has a use to charge. -/
def State.useOk (s : State) (d h : Nat) : Bool := (s.slot? d h).any (·.hasUse)

/-- A key is a member of a rotation pair. -/
def JobKey.isMember (k : JobKey) : Bool := k.role == .newer || k.role == .older

/-- What the checks of R195 give: the failing status or none, the keys with failing members marked, and the keys that are charged one use. -/
structure Judged where
  status : Option Status
  keys : List JobKey
  charged : List JobKey
  deriving DecidableEq, Repr

/-- The checks of R195 for a job whose first slice is assigned to tick m (R196, R204, R205): the window and the use of every key and of the pair record, and then, with the pair record charged, of its members. -/
def State.firstChecks (s : State) (j : Job) (m : Nat) : Judged :=
  let ks := j.chargeKeys
  let prime := ks.filter fun k => !k.isMember
  let pairs := prime.filter fun k => k.role == .pair
  let stop (st : Status) (charged : List JobKey) : Judged := { status := some st, keys := j.keys, charged := charged }
  if !(prime.all fun k => s.windowOk j.domain k.handle m) then stop .keyOutsideWindow []
  else if !(prime.all fun k => s.useOk j.domain k.handle) then stop .keyExhausted []
  else
    let fault (k : JobKey) : Option Status :=
      if !s.windowOk j.domain k.handle m then some .keyOutsideWindow
      else if !s.useOk j.domain k.handle then some .keyExhausted else none
    let judged := j.keys.map fun k => if k.isMember && ks.contains k then { k with failed := fault k } else k
    let ms := judged.filter fun k => k.isMember && runsMember (eOp j.entry) (eSub j.entry) k.role
    let lost := [false, true].filter fun second =>
      let side := ms.filter fun k => k.second == second
      !side.isEmpty && side.all fun k => k.failed.isSome
    if lost.isEmpty then { status := none, keys := judged, charged := prime ++ ms.filter fun k => k.failed.isNone }
    else
      let side := ms.filter fun k => lost.contains k.second
      stop (if side.any fun k => k.failed == some .keyOutsideWindow then .keyOutsideWindow else .keyExhausted) pairs

/-- The first assignment of a job to tick m: it is charged, or it ends (R195, R196). -/
def State.firstAssign (s : State) (q : Nat) (c : BitVec 17) (m : Nat) : State × Bool :=
  match s.job? q c with
  | none => (s, false)
  | some j =>
    if j.charged then (s, true)
    else
      let r := s.firstChecks j m
      let s := r.charged.foldl (fun s k => s.charge j.domain k.handle) s
      match r.status with
      | some st => (s.endJob q c st, false)
      | none => (s.setJob q c fun j => { j with keys := r.keys, charged := true, firstTick := some m }, true)

/-! ## Accounts -/

/-- Credit both accounts of a domain for one offered CHIVE slot (R167). -/
def State.creditAccount (s : State) (d : Nat) : State :=
  let up (a : Account) : Account := { a with read := min 64 (a.read + 32), write := min 64 (a.write + 32) }
  let accs := s.thyme.accounts
  let accs := if accs.any (·.domain == d) then accs else accs ++ [{ domain := d, read := 0, write := 0 }]
  { s with thyme := { s.thyme with accounts := accs.map fun a => if a.domain == d then up a else a } }

/-- The account of a domain. -/
def State.account (s : State) (d : Nat) : Account :=
  (s.thyme.accounts.find? (·.domain == d)).getD { domain := d, read := 0, write := 0 }

/-- Beats fit the domain's account. -/
def State.fits (s : State) (d : Nat) (b : Nat × Nat) : Bool := b.1 ≤ (s.account d).read && b.2 ≤ (s.account d).write

/-- Take beats from an account. -/
def State.takeBeats (s : State) (d : Nat) (b : Nat × Nat) : State :=
  { s with thyme := { s.thyme with
      accounts := s.thyme.accounts.map fun a => if a.domain == d then { a with read := a.read - b.1, write := a.write - b.2 } else a } }

/-! ## Issues -/

/-- A lane carries an issue that has not been delivered. -/
def State.laneBusy (s : State) (u : LaneKind) (l : Nat) : Bool := s.thyme.issues.any fun i => i.unit == u && i.lane == l && i.delivered.isNone

/-- Issue a slice to a lane for tick m (R38, R71): the lane's key registers are loaded (R153), and the contexts of a DILL slice are used (R233). -/
def State.issueTo (s : State) (c : Cand) (m lane pos : Nat) (role : Role) (partner : Option Nat) : State :=
  let i : Issue := { unit := c.pass.unit, lane := lane, pos := pos, domain := c.job.domain, queue := c.job.queue,
                     count := c.job.count, slice := c.slice.index, gen := BitVec.ofNat 12 m, role := role, partner := partner,
                     delivered := none, keys := s.laneKeys c.job c.slice.index }
  let s := if c.pass.unit == .dill then
      [false, true].foldl (fun s older => s.setCtx c.job.queue c.job.count older fun x => { x with lru := m }) s
    else s
  let s := { s with thyme := { s.thyme with issues := s.thyme.issues ++ [i] } }
  s.setJob c.job.queue c.job.count fun j => { j with slices := j.slices.map fun x =>
    if x.index == c.slice.index then { x with state := .issued, pos := pos } else x }

/-- A test vector on a lane for tick m; it belongs to no job (R387, R388). -/
def State.issueTest (s : State) (u : LaneKind) (lane m : Nat) : State :=
  { s with thyme := { s.thyme with issues := s.thyme.issues ++ [
      { unit := u, lane := lane, pos := 64, domain := 0, queue := 0, count := 0, slice := 0, gen := BitVec.ofNat 12 m,
        role := .test, partner := none, delivered := none, keys := [] }] } }

/-- Issue to one lane, or to both lanes of a verified pair (R56). -/
def State.issuePair (s : State) (c : Cand) (m : Nat) (at' : Nat × Nat) (mate : Option (Nat × Nat)) : State :=
  let role : Role := if c.slice.retry then .retry else .primary
  match mate with
  | none => s.issueTo c m at'.1 at'.2 role none
  | some b => (s.issueTo c m at'.1 at'.2 role (some b.1)).issueTo c m b.1 b.2 .shadow (some at'.1)

/-- Slots of the frame that domains still hold after this tick, and the DILL slots of this tick while CHIVE is assigned (R43, R53). -/
def State.laterBeats (s : State) (m : Nat) (u : LaneKind) : Nat × Nat :=
  let later := s.thyme.slotMap.filter fun x => m % 16 < x.frame || (u == .chive && x.unit == .dill && x.frame == m % 16)
  let c := (later.filter (·.unit == .chive)).length
  (32 * c + 16 * (later.length - c), 32 * c)

/-- A port position has been lost since the last epoch boundary (R457). -/
def State.portLost (s : State) : Bool := decide (s.activePorts < s.thyme.epochPorts)

/-- Beats that a slice takes of the frame's budget: 32 in a CHIVE slot after a port position was lost (R43, R457). -/
def State.frameBeats (s : State) (u : LaneKind) (b : Nat × Nat) : Nat × Nat := if u == .chive && s.portLost then (32, 32) else b

/-- The frame's beat budget has room for a borrowed slice beside the beats of the slots that domains still hold (R43, R53). -/
def State.frameRoom (s : State) (m : Nat) (u : LaneKind) (b : Nat × Nat) : Bool :=
  let l := s.laterBeats m u
  let b := s.frameBeats u b
  decide (s.thyme.frameRead + b.1 + l.1 ≤ 4000 * s.activePorts) && decide (s.thyme.frameWrite + b.2 + l.2 ≤ 4000 * s.activePorts)

/-- Count the beats of a slot of a unit in the frame. -/
def State.countBeats (s : State) (u : LaneKind) (b : Nat × Nat) : State :=
  let b := s.frameBeats u b
  { s with thyme := { s.thyme with frameRead := s.thyme.frameRead + b.1, frameWrite := s.thyme.frameWrite + b.2 } }

/-- The first candidate that is allowed, fits the account and passes its first checks is issued; jobs that fail them end on the way. Answers whether the slot was taken. -/
def State.placeFirst (m : Nat) (charge : Bool) (allowed : State → Cand → Bool) (at' : Nat × Nat) (mate : Option (Nat × Nat)) :
    List Cand → State → State × Bool
  | [], s => (s, false)
  | c :: cs, s =>
    if (charge && !s.fits c.job.domain c.beats) || !allowed s c || (s.job? c.job.queue c.job.count).all (·.status.isSome) then
      State.placeFirst m charge allowed at' mate cs s
    else
      let (s, ok) := s.firstAssign c.job.queue c.job.count m
      if ok then
        let s := (if charge then s.takeBeats c.job.domain c.beats else s).countBeats c.pass.unit c.beats
        match s.job? c.job.queue c.job.count with
        | some j => (s.issuePair { c with job := j } m at' mate, true)
        | none => (s, true)
      else State.placeFirst m charge allowed at' mate cs s

/-- A zero-fill piece of the domain takes the slot at a position (R170). -/
def State.placeZero (s : State) (d pos : Nat) (allowed : State → Nat × Nat → Bool) : Option State :=
  match s.fennel.jobs.find? fun j => j.domain == d && j.phase == .writing && !j.zeros.isEmpty with
  | none => none
  | some j =>
    match j.zeros with
    | [] => none
    | (off, n) :: zs =>
      let b := (0, min 32 (fragBeats (j.dstFrags (off + n)) off n))
      if s.resetNext d || !s.fits d b || !allowed s b then none
      else
        let s := ((s.takeBeats d b).countBeats .chive b).setJob j.queue j.count fun j => { j with zeros := zs }
        some (s.writeDstAt pos j (s.payloadClass d) off (Machine.zeros n) fun o => .zero j.queue j.count o)

/-- A lit position of the plan is the domain's own. -/
def State.ownsLit (s : State) (d : Nat) (u : LaneKind) : Bool :=
  s.thyme.slotMap.any fun x => x.domain == d && x.unit == u && (match u with
    | .chive => nth s.thyme.laneOf x.pos none
    | .dill => nth s.thyme.dillOf x.pos none).isSome

/-- A retry may take the offered slot (R23, R69): never a CHIVE slot while the reserve holds a lane; else its own domain's next slot, or any offered one when the domain holds none (R54). R69 names Service and Degraded service only: with no lane in the reserve a retry takes its domain's slot in Drain too (DESIGN CHOICE, notes/assumptions/93). -/
def State.retryHere (s : State) (d : Nat) (u : LaneKind) (own : Bool) : Bool :=
  (u == .dill || s.reserveLanes.isEmpty) && (own || !s.ownsLit d u)

/-- Slices of domain 0 that go before the waiting blocks of the register path, which rank at the third level, behind the queues on a tie (R238, R39). -/
def Cand.beforePath (c : Cand) (since : Nat) : Bool := c.slice.retry || c.job.express || decide (c.slice.eligible ≤ since)

/-- Whole waiting blocks of the register path are compressed, and the padded end of a closed message (R238, R241). -/
def RegPath.compress (r : RegPath) (sel : Nat) : RegPath :=
  if r.opened && !r.dead && !r.done then
    { r with fifo := if r.finishing then 0 else r.fifo % max 1 (digestBlock sel / 8), busy := false }
  else r

/-- The register path has something to compress. -/
def RegPath.due (r : RegPath) : Bool := r.opened && r.busy

/-- The register path has a lane in the tick: it compresses (R238). -/
def State.regPathTick (s : State) : State :=
  if s.dill.rp.due then { s with dill := { s.dill with rp := s.dill.rp.compress (s.regN 0x58000 % 256) } } else s

/-- Offer a slot of a unit to a domain: its retries, then its zero fill, then its other slices, with the register path among those of domain 0 (R39, R170, R238); own says that the plan gives it the slot. A slot that is a verified pair is one offer, and credits the accounts once (DESIGN CHOICE, notes/assumptions/94). -/
def State.offer (s : State) (d : Nat) (u : LaneKind) (m : Nat) (own : Bool) (at' : Nat × Nat) (mate : Option (Nat × Nat)) : State × Bool :=
  let s := if u == .chive then s.creditAccount d else s
  let room (s : State) (b : Nat × Nat) : Bool := own || s.frameRoom m u b
  let place := State.placeFirst m (u == .chive) (fun s c => room s c.beats) at' mate
  let cs := s.cands d u m
  let retries := if s.retryHere d u own then cs.filter (·.slice.retry) else []
  let (s, taken) := place retries s
  if taken then (s, true)
  else match (if u == .chive then s.placeZero d at'.2 room else none) with
    | some s => (s, true)
    | none =>
      let rest := cs.filter fun c => !c.slice.retry
      if u == .dill && d == 0 && own && s.dill.rp.due && decide (s.dill.rp.since ≤ m) then
        let (s, taken) := place (rest.filter fun c => c.beforePath s.dill.rp.since) s
        if taken then (s, true) else (s.regPathTick, true)
      else place rest s

/-! ## The slots of a tick -/

/-- The assignment in progress: lanes of the positions of each unit, and the positions that are used. -/
structure Guard where
  s : State
  m : Nat
  chive : List (Option Nat)
  dill : List (Option Nat)
  usedC : List Nat
  usedD : List Nat
  deriving DecidableEq, Repr

/-- A DILL lane is healthy. -/
def State.dillUp (s : State) (l : Nat) : Bool := (s.sorrel.dill[l]?).any fun x => x.health == .healthy

/-- The free lane of a position. -/
def Guard.lane (g : Guard) (u : LaneKind) (p : Nat) : Option Nat :=
  let l := match u with
    | .chive => nth g.chive p none
    | .dill => (nth g.dill p none).filter g.s.dillUp
  l.filter fun l => !g.s.laneBusy u l

def Guard.used (g : Guard) (u : LaneKind) : List Nat :=
  match u with
  | .chive => g.usedC
  | .dill => g.usedD

def Guard.use (g : Guard) (u : LaneKind) (ps : List Nat) : Guard :=
  match u with
  | .chive => { g with usedC := g.usedC ++ ps }
  | .dill => { g with usedD := g.usedD ++ ps }

/-- Slots of the plan in frame tick m mod 16. -/
def State.slotsAt (s : State) (m : Nat) (u : LaneKind) : List Slot :=
  s.thyme.slotMap.filter fun x => x.frame == m % 16 && x.unit == u

/-- The second position of a verified slot takes the lane of another position when both lanes lie in one bunch: one whose lane lies in another bunch, and whose own pair, if it has one, the exchange leaves in two bunches (R56, notes/assumptions/34). -/
def swapBunches (seconds : List Nat) (lanes : List (Option Nat)) : List (Option Nat) :=
  seconds.foldl (fun lanes p =>
    match nth lanes (p - 1) none, nth lanes p none with
    | some a, some b =>
      if a / 8 != b / 8 then lanes
      else
        let mate (t : Nat) : Option Nat := if seconds.contains t then nth lanes (t - 1) none
          else if seconds.contains (t + 1) then nth lanes (t + 1) none else none
        let fits (t : Nat) : Bool := t != p && t + 1 != p && (nth lanes t none).any (fun l => l / 8 != a / 8)
          && (mate t).all fun l => l / 8 != b / 8
        match (((List.range 64).filter (p < ·)) ++ (List.range 64).filter (· < p)).find? fits with
        | some t => (lanes.set p (nth lanes t none)).set t (some b)
        | none => lanes
    | _, _ => lanes) lanes

/-- A CHIVE slot has beat room in the frame after a port position was lost: 32 beats for each slot, of a verified pair for both, sealed domains first (R457). -/
def State.slotRoom (s : State) (x : Slot) : Bool :=
  let n := if (s.planOf x.domain).any (·.verified) then 2 else 1
  let all := s.thyme.slotMap.filter fun y => y.unit == .chive
  let cap := 4000 * s.activePorts
  if 32 * all.length ≤ cap || x.unit != .chive then true
  else
    let before (y : Slot) : Bool := decide (y.frame < x.frame) || (y.frame == x.frame && decide (y.pos < x.pos))
    let ahead := all.filter fun y => if s.isSealed x.domain then s.isSealed y.domain && before y else s.isSealed y.domain || before y
    decide (32 * (ahead.length + n) ≤ cap)

/-- Own slots of one unit (R47, R49, R53, R457). -/
def Guard.ownSlots (g : Guard) (u : LaneKind) : Guard :=
  ((g.s.slotsAt g.m u).filter fun x => !x.second).foldl (fun g x =>
    let verified := (g.s.planOf x.domain).any (·.verified)
    let mate := if verified then some (x.pos + 1) else none
    match g.lane u x.pos, mate.map fun p => (g.lane u p, p) with
    | some l, none =>
      if g.s.resetNext x.domain || !g.s.slotRoom x then g
      else
        let (s, taken) := g.s.offer x.domain u g.m true (l, x.pos) none
        let g := { g with s := s }
        if taken then g.use u [x.pos] else g
    | some l, some (some l2, p2) =>
      if g.s.resetNext x.domain || !g.s.slotRoom x then g
      else
        let (s, taken) := g.s.offer x.domain u g.m true (l, x.pos) (some (l2, p2))
        let g := { g with s := s }
        if taken then g.use u [x.pos, p2] else g
    | _, _ => g) g

/-- Shared domains that can borrow on a unit: in the plan, not verified, not in a reset. The spec neither lets a verified domain borrow positions or unheld sequencers nor excludes it; in the model it never does, since its slices need pairs of slots that its own share gives (DESIGN CHOICE, notes/assumptions/95). -/
def State.borrowers (s : State) : List (Nat × PlanRec) :=
  s.thyme.compiled.filter fun p => p.2.cls == .shared && !p.2.verified && !s.resetNext p.1
    && (s.domain? p.1).any fun x => !x.deleting

/-- Something of the domain waits for an offered slot: an eligible slice that may take one, or zero fill. -/
def State.wants (s : State) (d : Nat) (u : LaneKind) (m : Nat) : Bool :=
  (s.cands d u m).any (fun c => !c.slice.retry || s.retryHere d u false)
  || (u == .chive && s.fennel.jobs.any fun j => j.domain == d && j.phase == .writing && !j.zeros.isEmpty)

def State.setCredits (s : State) (u : LaneKind) (l : List (Nat × Int)) : State :=
  match u with
  | .chive => { s with thyme := { s.thyme with chiveCredit := l } }
  | .dill => { s with thyme := { s.thyme with dillCredit := l } }

/-- Saturation of R491. -/
def satCredit (v : Int) : Int := max (-8388608) (min 8388607 v)

/-- Credits at the start of borrowing: weights for the domains that want a slot, zero for the others (R53). -/
def State.addWeights (s : State) (u : LaneKind) (m : Nat) : State :=
  s.setCredits u (s.borrowers.map fun p =>
    (p.1, if s.wants p.1 u m then satCredit (assocD (s.credits u) p.1 0 + (p.2.weight : Int)) else 0))

/-- A slot that a domain has borrowed costs it 256 (R53). -/
def State.payCredit (s : State) (u : LaneKind) (d : Nat) : State :=
  s.setCredits u (assocSet (s.credits u) d (satCredit (assocD (s.credits u) d 0 - 256)))

/-- Slots that a domain has used in the frame (chive_cap of Table 2.2). -/
def State.usedInFrame (s : State) (d : Nat) : Nat := assocD s.thyme.frameUse d 0

/-- A domain has reached its cap. -/
def State.capped (s : State) (d : Nat) : Bool :=
  (s.planOf d).any fun p => p.cap != 0 && s.usedInFrame d ≥ p.cap

/-- One slot counted in the frame for a domain. -/
def State.countSlot (s : State) (d : Nat) : State :=
  { s with thyme := { s.thyme with frameUse := assocSet s.thyme.frameUse d (s.usedInFrame d + 1) } }

/-- The borrowing loop of R53 over the free positions; out holds the domains excluded. -/
def Guard.borrow (u : LaneKind) : Nat → List Nat → List Nat → Guard → Guard
  | 0, _, _, g => g
  | _, [], _, g => g
  | fuel + 1, p :: ps, out, g =>
    let ds := g.s.borrowers.filter fun x => !out.contains x.1 && g.s.wants x.1 u g.m
    match ds.foldl (fun (b : Option Nat) x =>
        match b with
        | none => some x.1
        | some y => if assocD (g.s.credits u) x.1 0 > assocD (g.s.credits u) y 0 then some x.1 else some y) none with
    | none => g
    | some d =>
      if u == .chive && g.s.capped d then Guard.borrow u fuel (p :: ps) (d :: out) g
      else match g.lane u p with
        | none => Guard.borrow u fuel ps out g
        | some l =>
          let (s, taken) := g.s.offer d u g.m false (l, p) none
          if taken then
            let s := s.payCredit u d
            let s := if u == .chive then s.countSlot d else s
            Guard.borrow u fuel ps out (({ g with s := s } : Guard).use u [p])
          else Guard.borrow u fuel (p :: ps) (d :: out) { g with s := s }

/-- Positions offered for borrowing: held by no domain in the tick, or by a shared domain and left unused (R49, R53, R62). -/
def Guard.freePositions (g : Guard) (u : LaneKind) : List Nat :=
  let slots := g.s.slotsAt g.m u
  (List.range (unitPositions u)).filter fun p =>
    (g.lane u p).isSome && !(g.used u).contains p &&
      match slots.find? (·.pos == p) with
      | none => true
      | some x => !g.s.isSealed x.domain && !g.s.resetNext x.domain && (g.s.domain? x.domain).any fun y => !y.deleting

/-- Own slots, then borrowing. -/
def Guard.unit (g : Guard) (u : LaneKind) : Guard :=
  let before := g.used u
  let g := g.ownSlots u
  let own := (g.used u).filter fun p => !before.contains p
  let s := if u == .chive then
      ((g.s.slotsAt g.m u).filter fun x => own.contains x.pos).foldl (fun s x => s.countSlot x.domain) g.s
    else g.s
  let s := s.addWeights u g.m
  let g := { g with s := s }
  let free := g.freePositions u
  Guard.borrow u (free.length + 512) free [] g

/-! ## The reserve -/

/-- Free reserve lanes. -/
def State.freeReserve (s : State) : List Nat := s.reserveLanes.filter fun l => !s.laneBusy .chive l

/-- Retries of CHIVE slices that are due, in ascending order of the position of their primaries (R70). Primaries of different ticks can have run on one position: those go by queue and ring position, and a retry that has waited competes by its position with the next tick's new ones (DESIGN CHOICE, notes/assumptions/96). -/
def State.dueRetries (s : State) (m : Nat) : List Cand :=
  sortKey (fun c : Cand => [c.slice.pos, c.job.queue, s.ringPos c.job]) ((s.fennel.jobs.flatMap (s.jobCands .chive m)).filter (·.slice.retry))

/-- Retries on the reserve lanes (R69, R70), each on one lane; only in Degraded service does a verified retry take a pair (R385, notes/assumptions/34). -/
def State.reserveRetries (m : Nat) : List Cand → State → State
  | [], s => s
  | c :: cs, s =>
    match s.freeReserve with
    | [] => s
    | l :: _ => State.reserveRetries m cs (s.issuePair c m (l, c.slice.pos) none)

/-- Slices in a lane's test set (R387, R388). -/
def testSet : LaneKind → Nat
  | .chive => 45
  | .dill => 22

/-- Test vectors of CHIVE: reserve lanes that have not finished their set in the epoch, suspended lanes, and in Degraded service lanes of positions that carry no slice and that no sealed domain holds in the tick (R65, R66, R387, Table 1.3). -/
def Guard.chiveTests (g : Guard) : Guard :=
  let held := (g.s.slotsAt g.m .chive).filter fun x => g.s.isSealed x.domain
  let idle (l : Nat) := g.s.mode.mode == .degraded && (g.chive.findIdx? (· == some l)).any fun p =>
    !g.usedC.contains p && !held.any (·.pos == p)
  let reserve := g.s.reserveLanes
  let s := (List.range 72).foldl (fun s l =>
    match s.sorrel.lanes[l]? with
    | some x =>
      let due := x.tested < testSet .chive
        && (x.health == .suspended || (x.health == .healthy && (reserve.contains l || idle l)))
      if due && !s.laneBusy .chive l then s.issueTest .chive l g.m else s
    | none => s) g.s
  { g with s := s }

/-- Test vectors of DILL: lanes whose position is idle and held by no sealed domain, and suspended lanes (R388, R389). -/
def Guard.dillTests (g : Guard) : Guard :=
  let held := (g.s.slotsAt g.m .dill).filter fun x => g.s.isSealed x.domain
  let s := (List.range 16).foldl (fun s l =>
    match s.sorrel.dill[l]? with
    | some x =>
      let pos := s.thyme.dillOf.findIdx? (· == some l)
      let idle := pos.any fun p => !g.usedD.contains p && !held.any (·.pos == p)
      let due := x.tested < testSet .dill && (x.health == .suspended || (x.health == .healthy && idle))
      if due && !s.laneBusy .dill l then s.issueTest .dill l g.m else s
    | none => s) g.s
  { g with s := s }

/-- Issues of the tick that a shadow may take (R384, R386): primary, alone. -/
def State.shadowable (s : State) (u : LaneKind) (m p : Nat) : Option Issue :=
  s.thyme.issues.find? fun i => i.unit == u && i.gen == BitVec.ofNat 12 m && i.role == .primary && i.pos == p
    && i.partner.isNone && i.delivered.isNone

/-- Put a shadow of an issue on a lane. -/
def State.shadowOn (s : State) (i : Issue) (lane : Nat) : State :=
  let issues := s.thyme.issues.map fun x =>
    if x.unit == i.unit && x.lane == i.lane && x.gen == i.gen && x.role == .primary then { x with partner := some lane } else x
  let s := { s with thyme := { s.thyme with issues := issues ++ [{ i with lane := lane, role := .shadow, partner := some i.lane }] } }
  s.setJob i.queue i.count fun j => { j with shadowed := true }

/-- Shadows on a list of free lanes, positions taken from a rotating pointer; answers the new pointer (R384, R386). -/
def State.shadows (u : LaneKind) (m n : Nat) (other : Nat → Nat → Bool) : List Nat → List Nat → Nat → State → State × Nat
  | [], _, ptr, s => (s, ptr)
  | p :: ps, lanes, ptr, s =>
    match s.shadowable u m p with
    | none => State.shadows u m n other ps lanes ptr s
    | some i => match lanes.find? fun l => other l i.lane with
      | none => State.shadows u m n other ps lanes ptr s
      | some l => State.shadows u m n other ps (lanes.filter (· != l)) ((p + 1) % n) (s.shadowOn i l)

/-- Lanes for CHIVE shadows: the reserve, or while it holds none lanes of idle positions that no sealed domain holds in the tick (R384, R433). -/
def Guard.shadowLanes (g : Guard) : List Nat :=
  if g.s.reserveLanes.isEmpty then
    let held := (g.s.slotsAt g.m .chive).filter fun x => g.s.isSealed x.domain
    (List.range 64).filterMap fun p =>
      if g.usedC.contains p || held.any (·.pos == p) then none else g.lane .chive p
  else g.s.freeReserve

/-- Shadows of CHIVE (R384) and of DILL (R386). -/
def Guard.shadowAll (g : Guard) : Guard :=
  let at' (ptr n : Nat) := (List.range n).map fun i => (ptr + i) % n
  let cp := g.s.sorrel.chivePtr
  let (s, cp) := State.shadows .chive g.m 64 (fun a b => a / 8 != b / 8) (at' cp 64) g.shadowLanes cp g.s
  let held := (s.slotsAt g.m .dill).filter fun x => s.isSealed x.domain
  let dl := (List.range 16).filterMap fun p =>
    if g.usedD.contains p || held.any (·.pos == p) then none else ({ g with s := s } : Guard).lane .dill p
  let dp := s.sorrel.dillPtr
  let (s, dp) := State.shadows .dill g.m 16 (fun a b => a != b) (at' dp 16) dl dp s
  { g with s := { s with sorrel := { s.sorrel with chivePtr := cp, dillPtr := dp } } }

/-! ## A tick's assignment -/

/-- What is not eligible for tick m is eligible no earlier than the tick after it: the order of R39 counts the first tick in which every condition of R17 holds. -/
def State.noteEligible (s : State) (m : Nat) : State :=
  let late (j : Job) (x : Slice) : Slice :=
    if x.state == .staged && !(s.sliceReady .chive j x || s.sliceReady .dill j x) then { x with eligible := max x.eligible (m + 1) } else x
  { s with fennel := { s.fennel with jobs := s.fennel.jobs.map fun j => { j with slices := j.slices.map (late j) } } }

/-- The assignment for tick m (R53, R66): retries on the reserve, own slots and borrowing, tests in Service and Degraded service (R72), shadows. -/
def State.assign (s : State) (m : Nat) : State :=
  let s := s.noteEligible m
  let s := State.reserveRetries m (s.dueRetries m) s
  let seconds := ((s.slotsAt m .chive).filter (·.second)).map (·.pos)
  let g : Guard := { s := s, m := m, chive := swapBunches seconds s.thyme.laneOf, dill := s.thyme.dillOf, usedC := [], usedD := [] }
  let g := (g.unit .chive).unit .dill
  let g := if s.inService then g.chiveTests.dillTests else g
  g.shadowAll.s

/-! ## BASIL -/

/-- A sequencer holds no operation, no run of the ROM verifier, and none whose early end leaves it to be zeroed in the next tick (R285). -/
def State.seqFree (s : State) (q : Nat) : Bool :=
  (nth s.basil.seqs q none).isNone && !s.basil.resting.contains q && !s.basil.zeroing.contains q && s.basil.rom.all fun x => x.2 != q

/-- The sequencer of a service position, when it is free. -/
def State.seqAt (s : State) (p : Nat) : Option Nat := (nth s.thyme.seqOf p none).filter s.seqFree

def State.setOp (s : State) (q : Nat) (o : Option Op) : State := { s with basil := { s.basil with seqs := s.basil.seqs.set q o } }

/-- A key of a public-key job with no use index yet and one to come. -/
def State.basilEligible (s : State) (j : Job) : Bool :=
  s.basilReady j && s.jobRuns j && (eOp j.entry == 0x70 || s.keysReady j) && j.status.isNone

/-- The record's window of a type 0x3 record (R195, R259). -/
def pkWindowOk (rec' : Bytes) (m : Nat) : Bool := fieldLe rec' 16 8 ≤ m && m < fieldLe rec' 24 8

/-- The checks of R195 for a public-key job; its record's index is granted already (R259). -/
def State.basilFirst (s : State) (j : Job) (m : Nat) : State × Bool :=
  if eOp j.entry == 0x60 && pkRecSub (eSub j.entry) && !pkWindowOk (j.pk.getD []) m then
    (s.endJob j.queue j.count .keyOutsideWindow, false)
  else s.firstAssign j.queue j.count m

/-- One request to a sequencer's DRBG: a reseed that is due needs the source (R264, R265). Answers whether it is served. -/
def State.drbgRequest (s : State) (i : Nat) : State × Bool :=
  match s.basil.drbgs[i]? with
  | none => (s, false)
  | some g =>
    let source := s.sorrel.cells.any id
    let due := decide (g.requests ≥ 65536)
    let g' : Drbg := if due then (if source then { g with requests := 1, refusing := false } else { g with refusing := true })
      else { g with requests := g.requests + 1 }
    ({ s with basil := { s.basil with drbgs := s.basil.drbgs.set i g' } }, !g'.refusing)

/-- Duration of a job's operation (R255). -/
def State.opTicks (s : State) (j : Job) : Nat :=
  if eOp j.entry == 0x70 then 1250
  else
    let b := j.aux.getD []
    s.pkTicks (eSub j.entry) b (rsaK (eSub j.entry) b (j.pk.getD []))

/-- The operation draws random values (R265). -/
def opDraws (j : Job) : Bool := eOp j.entry == 0x70 || drawsRandom (eSub j.entry) (j.aux.getD [])

/-- Put an operation on a sequencer, and on the one that runs it in step. -/
def State.putOp (s : State) (o : Op) (q : Nat) (q2 : Option Nat) : State :=
  let s := s.setOp q (some { o with partner := q2, isShadow := false })
  match q2 with
  | some x => s.setOp x (some { o with partner := some q, isShadow := true })
  | none => s

/-- Start an operation on sequencer q for tick m, in step on q2 for a verified domain or a shadow (R249, R56, R386). -/
def State.startOp (s : State) (j : Job) (q : Nat) (q2 : Option Nat) (m : Nat) : State :=
  match s.runBank with
  | none => s
  | some bank =>
  let (s, ok) := s.basilFirst j m
  if !ok then s
  else
    let (s, served) := s.drbgRequest q
    if !served && opDraws j then s.endJob j.queue j.count .resourceBusy
    else
      let o : Op := { queue := j.queue, count := j.count, domain := j.domain, start := m, dur := s.opTicks j,
                      bankB := bank, draw := s.free, result := none, secret := none, restarts := 0,
                      budgets := 0, partner := q2, isShadow := false, votes := [] }
      ((s.useFree drbgSpan).putOp o q q2).setJob j.queue j.count fun j => { j with firstTick := some m }

/-- Free held positions of a domain: a verified one takes adjacent pairs (R55, R56). -/
def State.heldSeqs (s : State) (d : Nat) : List (Nat × Option Nat) :=
  let held := (List.range 14).filter fun p => nth s.thyme.basilOf p none == some d
  if (s.planOf d).any (·.verified) then
    held.filterMap fun p =>
      if (held.filter (· < p)).length % 2 == 0 then
        match s.seqAt p, s.seqAt (p + 1) with
        | some a, some b => some (a, some b)
        | _, _ => none
      else none
  else held.filterMap fun p => (s.seqAt p).map fun a => (a, none)

/-- Sequencers that no domain holds. -/
def State.unheldSeqs (s : State) : List Nat :=
  ((List.range 14).filter fun p => (nth s.thyme.basilOf p none).isNone).filterMap s.seqAt

/-- Ready public-key jobs of a domain in the order of R39. -/
def State.basilQueue (s : State) (d : Nat) : List Job :=
  sortKey (fun j : Job => [if j.express then 0 else 1, j.stagedTick, j.queue, s.ringPos j])
    (s.fennel.jobs.filter fun j => j.domain == d && s.basilEligible j)

/-- Held sequencers first, for every domain (R55). -/
def State.startHeld (s : State) (m : Nat) : State :=
  s.domains.foldl (fun s x =>
    (s.basilQueue x.num).foldl (fun s j =>
      match s.heldSeqs x.num with
      | (a, b) :: _ => s.startOp j a b m
      | [] => s) s) s

/-- The shared domain whose operation became eligible first, the lower number on a tie (R55). -/
def State.firstWanting (s : State) : Option Nat :=
  let js := s.fennel.jobs.filter fun j => s.basilEligible j && (s.planOf j.domain).any fun p => p.cls == .shared && !p.verified
  (sortKey (fun j : Job => [j.stagedTick, j.domain]) js).head?.map (·.domain)

/-- Then the sequencers that no domain holds, for shared domains: to the domain of the earliest eligible operation, which starts its operations in the order of R39 (R55). -/
def State.startUnheld (m : Nat) : Nat → State → State
  | 0, s => s
  | fuel + 1, s =>
    match s.unheldSeqs, s.firstWanting.bind fun d => (s.basilQueue d).head? with
    | a :: _, some j => State.startUnheld m fuel (s.startOp j a none m)
    | _, _ => s

/-- A public-key job that is not eligible yet counts its eligibility from the next assignment on (R39, R55). -/
def State.noteBasil (s : State) (m : Nat) : State :=
  { s with fennel := { s.fennel with jobs := s.fennel.jobs.map fun j =>
      if j.phase == .basil && !s.basilEligible j then { j with stagedTick := m + 1 } else j } }

/-- Free reserve sequencers. -/
def State.freeReserveSeqs (s : State) : List Nat := s.reserveSeqs.filter s.seqFree

/-- The sequencers on which an operation restarts: free reserve ones, or the domain's next free held ones; a verified domain's takes two in step (R56, R283). -/
def State.restartOn (s : State) (o : Op) : Option (Nat × Option Nat) :=
  if (s.planOf o.domain).any (·.verified) then
    match s.freeReserveSeqs with
    | a :: b :: _ => some (a, some b)
    | _ => (s.heldSeqs o.domain).head?
  else match s.freeReserveSeqs with
    | a :: _ => some (a, none)
    | [] => (s.heldSeqs o.domain).head?

/-- The bank from which an operation restarts: the one that it began under, or while that is lost the one from which first steps run (R279, R379). -/
def State.restartBank (s : State) (o : Op) : Option Bool :=
  let own := (if o.bankB then s.basil.bankB else s.basil.bankA).state
  if own == .active || own == .draining then some o.bankB else s.runBank

/-- The staging buffer of an operation is being filled again from memory (Table 12.1). -/
def State.refilling (s : State) (o : Op) : Bool :=
  s.txns.any fun t => t.op == .read && !t.dead && t.purpose.job? == some (o.queue, o.count)

/-- Restarts that wait for a sequencer and a bank, and whose staging buffer is whole (R283, R379). -/
def State.placeRestarts (s : State) (m : Nat) : State :=
  (s.basil.waiting.filter fun o => !s.refilling o).foldl (fun s o =>
    match s.restartOn o, s.restartBank o with
    | some (q, q2), some b =>
      let s := s.putOp { o with start := m, bankB := b, result := none, secret := none } q q2
      { s with basil := { s.basil with waiting := s.basil.waiting.filter fun w => !(w.queue == o.queue && w.count == o.count) } }
    | _, _ => s) s

/-- Modes in which THYME issues slices (R72). -/
def State.thymeIssues (s : State) : Bool := s.inService || s.mode.mode == .drain

/-- THYME and SORREL run. -/
def State.plansRun (s : State) : Bool := s.thymeIssues || s.mode.mode == .quiesce

/-- The sequencer that the ROM verifier may take: a reserve one, or one that domain 0 holds (R277). -/
def State.verifierSeq (s : State) : Option Nat := s.freeReserveSeqs.head?.or ((s.heldSeqs 0).head?.map (·.1))

/-- A read of a bank's package is on its way. -/
def State.packageAsked (s : State) (isB : Bool) : Bool := s.txns.any fun t => !t.dead && t.purpose == .package isB

/-- Runs of the ROM verifier that are due: packages and a debug response that have been read whole (R277, R420). -/
def State.romDue (s : State) : List RomUse :=
  let reading := s.txns.any fun t => !t.dead && t.purpose.isResponse
  ((s.basil.verify.filter fun v => v.failed.isNone && !s.packageAsked v.bankB).map fun v => RomUse.bank v.bankB)
    ++ (if s.lovage.checking.isSome && !s.lovage.respFailed && !reading then [.response] else [])

/-- Runs that have ended leave their sequencers, and those that are due take one from the next tick (R277). -/
def State.placeRom (s : State) : State :=
  let due := s.romDue
  let s := { s with basil := { s.basil with rom := s.basil.rom.filter fun x => due.contains x.1 } }
  (due.filter fun u => s.basil.rom.all fun x => x.1 != u).foldl (fun s u =>
    match s.verifierSeq with
    | some q => { s with basil := { s.basil with rom := s.basil.rom ++ [(u, q)] } }
    | none => s) s

/-- The ROM verifier holds a sequencer for this run; where THYME assigns nothing, a sequencer is free for it. -/
def State.verifierRuns (s : State) (u : RomUse) : Bool :=
  s.basil.rom.any (fun x => x.1 == u) || (!s.plansRun && s.verifierSeq.isSome)

/-- Shadows of the operations that begin in tick m on free reserve sequencers (R386). -/
def State.basilShadows (s : State) (m : Nat) : State :=
  let ps := (List.range 14).map fun i => (s.sorrel.basilPtr + i) % 14
  ps.foldl (fun s p =>
    match nth s.thyme.seqOf p none, s.freeReserveSeqs with
    | some q, r :: _ => match nth s.basil.seqs q none with
      | some o =>
        if o.start == m && o.partner.isNone && !o.isShadow then
          let s := (s.setOp q (some { o with partner := some r })).setOp r (some { o with partner := some q, isShadow := true })
          let s := s.setJob o.queue o.count fun j => { j with shadowed := true }
          { s with sorrel := { s.sorrel with basilPtr := (p + 1) % 14 } }
        else s
      | none => s
    | _, _ => s) s

/-- The tick ends: sequencers whose operation has ended early in it are zeroed in the next one, and those that have been zeroed can be given an operation again (R285). -/
def State.rested (s : State) : State := { s with basil := { s.basil with zeroing := s.basil.resting, resting := [] } }

/-- BASIL's assignment for tick m; Quiesce begins no operation (R72), nor does an idle tick (R382). -/
def State.assignBasil (s : State) (m : Nat) : State :=
  (State.startUnheld m 16 ((((s.noteBasil m).placeRestarts m).placeRom).startHeld m)).basilShadows m

/-- The sequencers of an operation: its own, and its partner. -/
def opSeqs (q : Nat) (o : Op) : List Nat := q :: o.partner.toList

/-- Free the sequencers of an operation at its last tick. -/
def State.clearOp (s : State) (q : Nat) (o : Op) : State := (opSeqs q o).foldl (fun s x => s.setOp x none) s

/-- Sequencers whose operation ends early are zeroed in the next tick (R285). -/
def State.rest (s : State) (qs : List Nat) : State := { s with basil := { s.basil with resting := s.basil.resting ++ qs } }

/-- An operation restarts from its staged operands, once: the second failed check ends its job ABORTED (R283); votes are the signatures that the restart is to judge (R386). -/
def State.restartOp (s : State) (q : Nat) (o : Op) (votes : List (Nat × BitVec 64)) : State :=
  let s := (s.clearOp q o).rest (opSeqs q o)
  if o.restarts ≥ 1 then s.endJob o.queue o.count .aborted
  else
    let s := s.setJob o.queue o.count fun j => { j with retried := true }
    { s with basil := { s.basil with waiting := s.basil.waiting ++ [{ o with restarts := 1, result := none, secret := none, votes := votes }] } }

/-- A check fails in an operation (R283): it restarts. A shadow that fails its own check leaves the operation it shadows alone. -/
def State.failOp (s : State) (q : Nat) : State :=
  match nth s.basil.seqs q none with
  | none => s
  | some o =>
    if o.isShadow && !(s.planOf o.domain).any (·.verified) then
      match o.partner with
      | some p => ((s.setOp q none).setOp p ((nth s.basil.seqs p none).map fun x => { x with partner := none })).rest [q]
      | none => (s.setOp q none).rest [q]
    else
    s.restartOp q o o.votes

/-- A check fails in what a sequencer runs: an operation, or a run of the ROM verifier, which begins again on another; the sequencer is suspended (R283, R389). -/
def State.seqCheckFails (s : State) (q : Nat) : State :=
  if (nth s.basil.seqs q none).isSome then (s.failOp q).suspendSeq q
  else if s.basil.rom.any fun x => x.2 == q then
    ({ s with basil := { s.basil with rom := s.basil.rom.filter fun x => x.2 != q } } : State).suspendSeq q
  else if !s.plansRun && !s.romDue.isEmpty && s.verifierSeq == some q then s.suspendSeq q
  else s

/-- The staging buffer of an operation fails its check on the load into operand memory: a failed check, and the buffer is filled again from memory before the restart (Table 12.1). -/
def State.stagingFails (s : State) (q : Nat) : State :=
  match (nth s.basil.seqs q none).filter fun o => !o.isShadow && o.start == s.thyme.tick with
  | none => s
  | some o =>
    let s := s.seqCheckFails q
    match (s.job? o.queue o.count).filter fun j => j.status.isNone && eOp j.entry == 0x60 && decide (0 < eLen j.entry) with
    | none => s
    | some j => (s.setJob j.queue j.count fun j => { j with data := [] }).readSource j 0 (0, eLen j.entry)

/-- The comparison at the delivery of an operation, before its result write (R386): two signatures that differ are a failed check. A restart that agrees with one of the first two runs has the other's sequencer suspended; one that agrees with neither is a failed check again (notes/assumptions/116). -/
def State.compareOp (s : State) (x : Nat × BitVec 64 × BitVec 64) : State :=
  match (nth s.basil.seqs x.1 none).filter fun o => !o.isShadow && o.result.isSome && o.start + o.dur == s.thyme.tick + 2 with
  | none => s
  | some o =>
    let odd (v : Nat × BitVec 64) : Bool := v.2 != x.2.1
    let differ := o.partner.isSome && x.2.1 != x.2.2
    if o.votes.isEmpty then
      if differ then s.restartOp x.1 o ((x.1, x.2.1) :: o.partner.toList.map fun p => (p, x.2.2)) else s
    else if differ || o.votes.all odd then s.restartOp x.1 o []
    else (o.votes.filter odd).foldl (fun s v => s.suspendSeq v.1) s

/-- A sequencer whose test set runs: a suspended one, or one of the reserve (R65, R388). -/
def State.seqTesting (s : State) (q : Nat) : Bool :=
  s.seqFree q && (s.sorrel.basil[q]?).any fun x => x.health == .suspended || (x.health == .healthy && s.reserveSeqs.contains q)

/-- Sequencers whose arithmetic check fails in the step: their operations fail, and they are suspended; one that runs its test set fails it and is retired (R283, R388, R389). -/
def State.basilCheckFails (s : State) (qs : List Nat) : State :=
  qs.foldl (fun s q => if s.seqTesting q then s.endSeq q false else s.seqCheckFails q) s

/-- Ticks of a sequencer's test set (R388). -/
def seqTestTicks : Nat := 10214

/-- One tick of the test sets of reserve and suspended sequencers, in Service and Degraded service (R72); three suspensions in the epoch retire one that passes (R388, R389). -/
def State.basilTests (s : State) : State :=
  if !s.inService then s else
  (List.range 16).foldl (fun s q =>
    match s.sorrel.basil[q]? with
    | some x =>
      if s.seqTesting q && x.tested < seqTestTicks then
        let s := s.setSeq q fun x => { x with tested := x.tested + 1 }
        if x.tested + 1 == seqTestTicks && x.health == .suspended then s.endSeq q (decide (x.suspensions < 3)) else s
      else s
    | none => s) s

/-- Statements whose first step runs in this tick are filled (R315). -/
def State.fillStatements (s : State) : State :=
  s.basil.seqs.foldl (fun s o =>
    match o with
    | some o =>
      match s.job? o.queue o.count with
      | some j =>
        if eOp j.entry == 0x70 && o.start == s.thyme.tick && j.pk.isNone then
          let nonce := match j.gen with
            | .c => eTimeParam j.entry
            | _ => sub (j.aux.getD []) 0 16
          s.setJob o.queue o.count fun j => { j with pk := some (s.statement j.domain nonce), time := some (s.thyme.tick * tickUnit) }
        else s
      | none => s
    | none => s) s

/-- Operations whose microcode has not ended by step d - 1 end ABORTED (R250). -/
def State.stepOverrun (s : State) : State :=
  (List.range 16).foldl (fun s q =>
    match nth s.basil.seqs q none with
    | some o =>
      if !o.isShadow && o.result.isNone && o.start + o.dur ≤ s.thyme.tick + 1 then s.setOp q (some { o with result := some (.aborted, []) })
      else s
    | none => s) s

/-- Some operation runs or waits to restart. -/
def State.basilRunning (s : State) : Bool := s.basil.seqs.any (·.isSome) || !s.basil.waiting.isEmpty

/-- Jobs that wait for keys look again, the lower queue first (R202). -/
def State.keyRetry (s : State) : State :=
  (sortKey (fun j : Job => [j.queue, s.ringPos j]) (s.fennel.jobs.filter (·.phase == .keys))).foldl
    (fun s j => s.keyProgress j.queue j.count) s

end Sys2Proof.Machine
end

