-- ==== Sys2Proof/Machine/Banks.lean ====
section
/-! DEFINITION. The microcode banks: their registers, and a DRAINING bank that becomes STANDBY (R279, R280). -/

namespace Sys2Proof.Machine

def Basil.bank (b : Basil) (isB : Bool) : Bank := if isB then b.bankB else b.bankA

/-- Change one bank. -/
def State.setBank (s : State) (isB : Bool) (f : Bank → Bank) : State :=
  { s with basil := if isB then { s.basil with bankB := f s.basil.bankB } else { s.basil with bankA := f s.basil.bankA } }

/-- Setup register that names a bank's package (Table 16.10). -/
def bankReg (isB : Bool) : Nat := if isB then 0x60010 else 0x60008

/-- Address of a bank's package; 0 when none is named. -/
def State.bankAddr (s : State) (isB : Bool) : Nat := s.regN (bankReg isB) % 2 ^ 52

/-- An operation runs, or waits to restart, under a bank. -/
def State.bankInUse (s : State) (isB : Bool) : Bool :=
  (s.basil.seqs.any fun o => o.any fun o => o.bankB == isB) || s.basil.waiting.any fun o => o.bankB == isB

/-- The last operation under a DRAINING bank has ended: it becomes STANDBY, and a commit that was asked for begins (R279, R280). -/
def State.bankDrained (s : State) (isB : Bool) : State :=
  if (s.basil.bank isB).state == .draining && !s.bankInUse isB then
    let s := (s.setBank isB fun b => { b with state := .standby }).ucodeEvent isB 1 []
    match s.basil.commit with
    | some c => ({ s with basil := { s.basil with commit := none } }).commitStart c
    | none => s
  else s

/-- Both banks looked at. -/
def State.banksDrained (s : State) : State := (s.bankDrained false).bankDrained true

/-- Make a bank ACTIVE. -/
def State.activateBank (s : State) (isB : Bool) : State := s.setBank isB fun b => { b with state := .active }

/-- The ACTIVE bank becomes DRAINING. -/
def State.drainBanks (s : State) : State :=
  let f (b : Bank) : Bank := if b.state == .active then { b with state := .draining } else b
  { s with basil := { s.basil with bankA := f s.basil.bankA, bankB := f s.basil.bankB } }

/-- An accepted Activate names the bank and has not taken effect yet (R279). -/
def State.switching (s : State) (isB : Bool) : Bool := s.basil.switch.any (·.1 == isB)

/-- The switch of an accepted Activate (R279): the named bank is ACTIVE, the old one drains, and a commit follows when it has become STANDBY, or at once with no old bank (R280). -/
def State.switchBank (s : State) : State :=
  match s.basil.switch with
  | none => s
  | some (b, commit) =>
    let s : State := { s with basil := { s.basil with switch := none } }
    if (s.basil.bank b).state != .standby then s
    else
      let old := s.basil.bankA.state == .active || s.basil.bankB.state == .active
      let s := s.drainBanks.activateBank b
      let s : State := { s with basil := { s.basil with commit := if commit && old then some b else none } }
      (if commit && !old then s.commitStart b else s).banksDrained

end Sys2Proof.Machine
end

