-- ==== Sys2Proof/Machine/Dirty.lean ====
section
/-! DEFINITION. The dirty log (R331 to R335): which writes it holds, its runs, and the records written to its ring. -/

namespace Sys2Proof.Machine

/-- Close a domain's open run (R333). -/
def Migration.closeRun (m : Migration) : Migration :=
  match m.openRun with
  | none => m
  | some r => { m with openRun := none, closed := if m.overflow || m.paused then m.closed else m.closed ++ [r] }

/-- A write of one page joins the open run: it repeats the last page, continues the run, or opens a new one; a run of 65,536 pages closes (R333). -/
def Migration.addPage (m : Migration) (p : Nat) : Migration :=
  let m' := match m.openRun with
    | none => { m with openRun := some (p, 1) }
    | some (a, n) =>
      if p + 1 = a + n then m
      else if p = a + n then { m with openRun := some (a, n + 1) }
      else { m.closeRun with openRun := some (p, 1) }
  if (m'.openRun.map (·.2)).getD 0 ≥ 65536 then m'.closeRun else m'

/-- The domain logs its writes (R332). -/
def Migration.logging (m : Migration) : Bool := m.state != .normal

/-- Log a write of a domain that has returned or been abandoned (R332, R333); a transfer crosses no 4 KiB boundary (R444), so it lies in one page. -/
def State.logWrite (s : State) (d iova : Nat) : State :=
  s.setDomain d fun x => if x.mig.logging then { x with mig := x.mig.addPage (iova / 4096) } else x

/-- Log a transaction that wrote. -/
def State.logTxn (s : State) (t : Txn) : State := if t.op == .write || t.op == .evict then s.logWrite t.domain t.iova else s

/-- Every open run closes at the end of the tick (R333). -/
def State.closeRuns (s : State) : State := { s with domains := s.domains.map fun x => { x with mig := x.mig.closeRun } }

/-- Records of the ring. -/
def Migration.ring (m : Migration) : Nat := 2 ^ m.k

/-- The ring is full (R334). -/
def Migration.full (m : Migration) : Bool := (m.tail - m.head).toNat == m.ring

/-- Phase of the next record: 1 on even laps (R334). -/
def Migration.phase (m : Migration) : Bool := m.tail.toNat / m.ring % 2 == 0

/-- A record of Table 10.7: its page field, run length less 1, kind and phase. -/
def dirtyRecord (page run kind : Nat) (phase : Bool) : Bytes :=
  leBytes 5 page ++ leBytes 2 run ++ leBytes 1 (32 * kind + if phase then 128 else 0)

/-- Write one record of a domain's dirty log under domain 0's number in the metadata share, or drop it on a full ring (R333, R334). -/
def State.dirtyWrite (s : State) (d : Nat) (page run kind : Nat) (p : Purpose) : State :=
  match s.domain? d with
  | none => s
  | some x =>
    let m := x.mig
    if m.full then
      let s := s.setDomain d fun x => { x with mig := { x.mig with overflow := true, overflowed := true, closed := [] } }
      s.event 0 0x08 0 d (leBytes 4 m.tail.toNat)
    else
      let addr := m.base + 8 * (m.tail.toNat % m.ring)
      let s := s.issue .write .metadata 0 addr 8 (dirtyRecord page run kind m.phase) fun _ => p
      s.setDomain d fun x => { x with mig := { x.mig with tail := x.mig.tail + 1 } }

/-- Write the oldest closed run's record; while overflow is 1 no run record is written (R334). Logging that has been turned off ends with the last one (R333). -/
def State.dirtyStep (s : State) (d : Nat) : State :=
  match s.domain? d with
  | none => s
  | some x =>
    match x.mig.closed with
    | [] => s.setDomain d fun x => { x with mig := { x.mig with ending := false } }
    | (a, n) :: rs =>
      let s := s.setDomain d fun x => { x with mig := { x.mig with closed := rs, ending := x.mig.ending && !rs.isEmpty } }
      if x.mig.overflow then s else s.dirtyWrite d a (n - 1) 0 (.dirty d)

/-- Turn a domain's logging off: the closed runs are still written (R331, R333). -/
def Migration.logOff (m : Migration) : Migration :=
  let m := m.closeRun
  { m with state := .normal, marker := .none, ending := !m.closed.isEmpty }

/-- Migration state after a domain reset: NORMAL, its registers at the Reset column of Table 10.3 (Table 10.4). -/
def Migration.afterReset (m : Migration) : Migration :=
  { m with state := .normal, head := 0, tail := 0, overflow := false, paused := false, marker := .none, openRun := none, ending := false }

/-- A doorbell, push or post of a STOPPED domain takes it back to STOPPING (R336). -/
def State.reenter (s : State) (d : Nat) : State :=
  match s.domain? d with
  | none => s
  | some x =>
    if x.mig.state == .stopped then
      let s := s.setDomain d fun x => { x with mig := { x.mig with state := .stopping, marker := .none } }
      s.event 0 0x1A 1 d (leBytes 1 2 ++ Machine.zeros 3 ++ leBytes 4 x.mig.stopSeq.toNat)
    else s

end Sys2Proof.Machine
end

