-- ==== Sys2Proof/Machine/Losses.lean ====
section
/-! DEFINITION. Work that ends without a completion: the loss of a host link (R111 to R114, and a completion that cannot be written, Table 15.6), the triggering and running of a domain reset (R93, R100, R327, R328, R345, R355, R454, Tables 7.6, 8.12 and 10.4), and jobs that a drain limit ends (R435). -/

namespace Sys2Proof.Machine

/-- s without the contexts of a job, the sequencers that run it, its restarts, and its message in SAGE's pipeline (Tables 7.6 and 8.12). -/
def State.stopUnits (s : State) (q : Nat) (c : BitVec 17) : State :=
  let mine (o : Op) : Bool := o.queue == q && o.count == c
  let clear (o : Option Op) : Option Op := if o.any mine then none else o
  let other (o : Op) : Bool := !mine o
  let s := (s.dropCtxs q c).rest ((List.range 16).filter fun i => (nth s.basil.seqs i none).any mine)
  let s := { s with basil := { s.basil with seqs := s.basil.seqs.map clear, waiting := s.basil.waiting.filter other } }
  let keep (m : PipeMsg) : Bool := !(q == 1 && m.count == c)
  { s with sage := { s.sage with pipe := s.sage.pipe.filter keep } }

/-- s without anything of a job in the lanes' output buffers (R153). -/
def State.clearOuts (s : State) (q : Nat) (c : BitVec 17) : State :=
  { s with thyme := { s.thyme with outs := s.thyme.outs.filter fun o => !(o.queue == q && o.count == c) } }

/-- A job is abandoned: nothing of it goes on and it has no completion. -/
def State.abandonJob (s : State) (q : Nat) (c : BitVec 17) : State :=
  let s := s.killTxns fun t => t.purpose.job? == some (q, c)
  (((s.dropIssues q c).clearOuts q c).stopUnits q c).dropJob q c

/-- The unwrap of a posted load is abandoned with it (R355). -/
def State.dropLoadJob (s : State) (n : BitVec 32) : State := s.abandonJob loadQueue (n.setWidth 17)

/-- Every job of a queue is abandoned, and its entry reads are dropped. -/
def State.abandonQueue (s : State) (q : Nat) : State :=
  let s := (s.fennel.jobs.filter (·.queue == q)).foldl (fun s j => s.abandonJob j.queue j.count) s
  s.killTxns fun t => match t.purpose with
    | .entry q' _ _ _ => q' == q
    | _ => false

/-! ## Host links -/

/-- The unconfirmed-range event of a queue (Table 11.13, type 0x04). -/
def rangeEvent (s : State) (x : Queue) : Event := mkEvent s 0x04 0 x.num (leBytes 4 x.head.toNat ++ leBytes 4 x.outstanding)

/-- Hold an unconfirmed-range event for its domain until its link returns (R113); it keeps the tick of the loss (notes/assumptions/102). -/
def State.holdRange (s : State) (d : Nat) (e : Event) : State := s.setEvq d fun q => { q with held := q.held ++ [e] }

/-- Release a queue's unconfirmed range (R112, R113): its work is abandoned, its copies are discarded and its head moves to its tail; later tells that the domain's own event waits for the link. -/
def State.releaseRange (s : State) (x : Queue) (later : Bool) : State :=
  let s := s.abandonQueue x.num
  let e := rangeEvent s x
  let s := s.setQueue x.num fun y => { y with
    head := y.tail, validated := y.tail, copies := [], stale := [], recheck := [], unsound := [], chainLen := 0, chainBroken := false,
    disabling := false }
  if x.head == x.tail then s
  else
    let s := s.postEvent 0 e
    if x.domain = 0 then s else if later then s.holdRange x.domain e else s.postEvent x.domain e

/-- Context lines of a domain that have not gone out are not written (R111); one whose CLAIM or EVICT awaits its response is freed by it (notes/assumptions/104). -/
def State.dropLines (s : State) (d : Nat) : State :=
  let s := s.killTxns fun t => t.domain == d && match t.purpose with
    | .line .. => true
    | _ => false
  let out (l : WbLine) : Bool := s.txns.any fun t => (t.op == .claim || t.op == .evict) && t.domain == l.domain && t.iova == 128 * l.line
  { s with dill := { s.dill with lines := s.dill.lines.filter fun l => l.domain != d || out l } }

/-- The host link of a domain is down (R111). -/
def State.linkLost (s : State) (d : Nat) : State :=
  let s := s.setDomain d fun x => { x with linkDown := true }
  let s := (s.fennel.queues.filter (·.domain == d)).foldl (fun s x =>
    (s.setQueue x.num fun y => { y with linkDown := true }).releaseRange x true) s
  let s := s.killTxns fun t => t.domain == d && match t.purpose with
    | .stamp _ => true
    | _ => false
  (s.dropLines d).banksDrained

/-! ## Domain resets -/

/-- A queue with its counts and page fields at the Reset column of Tables 3.3 to 3.5 (R77, Table 10.4). -/
def Queue.cleared (x : Queue) : Queue :=
  { x with head := 0, tail := 0, enabled := true, disabling := false, stale := [], recheck := [], unsound := [], dbError := false, pushDiscard := false,
           pendingInt := 0, firstPending := none, lastInt := none, urgentDue := false, copies := [],
           validated := 0, linkDown := false, pushHalf := none, chainLen := 0, chainBroken := false }

/-- A mailbox page at the Reset column of Table 10.3. -/
def Mailbox.fresh : Mailbox :=
  { area := [], enabled := true, disabling := false, t2mFull := false, m2tFull := false, t2mErr := false, m2tErr := false,
    t2mTag := 0, t2mLen := 0, m2tTag := 0, m2tLen := 0 }

/-- An admin entry that names domain d has not taken effect: it waits, or the data that it writes has not all been acknowledged (R345, Table 11.3); the Domain Reset of d is no such entry. -/
def Job.openFor (j : Job) (d : Nat) : Bool :=
  j.queue == 0 && eOp j.entry != 0x0E && fieldLe j.entry 24 2 == d
  && ((j.phase == .command && j.status.isNone) || (j.phase == .writing && (eOp j.entry == 0x02 || eOp j.entry == 0x03)))

/-- An admin entry ends with DOMAIN_RESET (R345). -/
def State.adminReset (s : State) (c : BitVec 17) : State :=
  match s.job? 0 c with
  | none => s
  | some j =>
    if j.phase == .writing then
      s.setJob 0 c fun j => { j with status := some .domainReset, bytesDone := 0, result0 := 0, result1 := 0 }
    else s.endJob 0 c .domainReset

/-- Trigger a reset of a domain in tick t (R327); an admin entry that names it and has not taken effect ends (R345). Domain 0 has none (R317). -/
def State.triggerReset (s : State) (d t : Nat) : State :=
  match s.domain? d with
  | none => s
  | some x =>
    if d = 0 || x.resetting.isSome then s
    else
      let s := s.setDomain d fun x => { x with resetting := some t }
      (s.fennel.jobs.filter (·.openFor d)).foldl (fun s j => s.adminReset j.count) s

/-- Event writes of a domain that have not begun are not made; the event count stands behind the last one that has (R328). -/
def State.dropEventWrites (s : State) (d : Nat) : State :=
  let unsent (t : Txn) : Bool := t.tag.isNone && match t.purpose with
    | .events e _ _ _ => e == d
    | _ => false
  let firsts := (s.txns.filter unsent).filterMap fun t => match t.purpose with
    | .events _ f _ _ => some f
    | _ => none
  let keep (t : Txn) : Bool := !unsent t
  let s := { s with txns := s.txns.filter keep }
  match firsts with
  | f :: _ => s.setEvq d fun q => { q with count := BitVec.ofNat 16 f }
  | [] => s

/-- Transactions that a domain reset leaves alone: evictions of context lines (Table 15.8). -/
def Purpose.outlives : Purpose → Bool
  | .line .. => true
  | _ => false

/-- Staged records and gap count of a domain are discarded (Table 10.4). -/
def State.clearEvents (s : State) (d : Nat) : State :=
  (s.setEvq d fun q => { q with staged := [], gap := 0, held := [], recovering := false }).checkHold d

/-- What waits in the arrival queue for a domain's queues is discarded (R327). -/
def State.dropArrivals (s : State) (q : Nat → Bool) : State :=
  let keep (a : Arrival) : Bool := !q a.queue
  { s with fennel := { s.fennel with arrivals := s.fennel.arrivals.filter keep } }

/-- The reset of a domain begins, at cycle 0 of the tick after its trigger: its work stops and its state is cleared (R327, R328, R355, Table 10.4). -/
def State.beginReset (s : State) (d : Nat) : State :=
  let s := (s.fennel.queues.filter (·.domain == d)).foldl (fun s x => s.abandonQueue x.num) s
  let s := (s.admin.loads.filter (·.domain == d)).foldl (fun s l => s.dropLoadJob l.load) s
  let s := (s.dropEventWrites d).cutWrites fun t => t.domain == d && !t.purpose.outlives
  let s := s.killTxns fun t => t.domain == d && !t.purpose.outlives
  let s := s.dropArrivals fun q => (s.queue? q).any (·.domain == d)
  let clear (x : Queue) : Queue := if x.domain == d then x.cleared else x
  let slot (x : KeySlot) : Bool := x.domain != d
  let ctx (x : Ctx) : Bool := x.domain != d
  let load (l : PostedLoad) : Bool := l.domain != d
  let s : State := { s with
    fennel := { s.fennel with queues := s.fennel.queues.map clear }
    bay := { s.bay with slots := s.bay.slots.filter slot }
    dill := { s.dill with ctxs := s.dill.ctxs.filter ctx }
    admin := { s.admin with loads := s.admin.loads.filter load } }
  let s := s.setDomain d fun x => { x with
    mailbox := .fresh, resetFlags := (if x.mailbox.t2mFull then 1 else 0) ||| (if x.mailbox.m2tFull then 2 else 0) }
  (s.clearEvents d).banksDrained

/-- Resets that were triggered in the tick before begin. -/
def State.beginResets (s : State) : State :=
  (s.domains.filter fun x => x.resetting.any fun t => t + 1 == s.thyme.tick).foldl (fun s x => s.beginReset x.num) s

/-- A key-bus request that is made for a domain's keys. -/
def KbReq.keyOf (r : KbReq) (d : Nat) : Bool :=
  r.domain == d && match r.kind with
    | .keyLoad => true
    | .useReserve _ => true
    | _ => false

/-- Every port and key-bus transaction of a domain has returned or been abandoned (R328). -/
def State.domainQuiet (s : State) (d : Nat) : Bool :=
  (s.txns.all fun t => t.domain != d) && s.keyBus.reqs.all fun r => !r.keyOf d

/-- Write the records of a domain's remaining runs (R333). -/
def State.flushDirty (s : State) (d : Nat) : State :=
  let s := s.setDomain d fun x => { x with mig := x.mig.closeRun }
  let n := ((s.domain? d).map fun x => x.mig.closed.length).getD 0
  (List.range n).foldl (fun s _ => s.dirtyStep d) s

end Sys2Proof.Machine
end

