-- ==== Sys2Proof/Machine/Events.lean ====
section
/-! DEFINITION. PARSLEY's writes of event records (Table 11.12, R362 to R366), head-word reads (R365), responses and interrupts (R368), and failed writes (Table 15.6). -/

namespace Sys2Proof.Machine

/-! ## Records -/

/-- One record of Table 11.12. -/
def eventBytes (phase : Bool) (prio poison typ arg tick : Nat) (data : Bytes) : Bytes :=
  leBytes 1 ((if phase then 128 else 0) + 32 * prio + poison) ++ leBytes 1 typ ++ leBytes 2 arg ++ leBytes 8 tick ++ padTo 20 data

/-- Phase of record number c (R362). -/
def eventPhase (c : Nat) : Bool := c / 256 % 2 == 0

/-- The records of an event from record number c on: itself, and its continuation (R363). -/
def Event.records (e : Event) (c : Nat) : List Bytes :=
  eventBytes (eventPhase c) e.prio (e.poison.toNat % 16) e.typ.toNat e.arg.toNat e.tick e.data ::
    match e.cont with
    | some d => [eventBytes (eventPhase (c + 1)) e.prio (e.poison.toNat / 16) 0x3F 0 e.tick d]
    | none => []

/-- The gap marker (R365). -/
def EventQ.gapRecord (q : EventQ) (tick : Nat) (c : Nat) : Bytes :=
  eventBytes (eventPhase c) 0 0 0x01 0 tick (leBytes 4 q.gap.toNat ++ leBytes 8 q.gapTick)

/-- Free positions by the head word last read (R364). -/
def EventQ.freePos (q : EventQ) : Nat := 256 - (q.count - q.headWord).toNat

/-- Records that wait: staged ones, and a gap marker. -/
def EventQ.waiting (q : EventQ) : Nat := stagedCount q.staged + if q.gap = 0 then 0 else 1

/-- The staged event that goes next: the most urgent, in posting order. -/
def nextEvent (es : List Event) : Option Event :=
  es.foldl (fun b e => match b with
    | none => some e
    | some x => if e.prio < x.prio then some e else some x) none

/-- Take staged events into a write of at most room records that ends at the boundary stop; n records are in it. A pair whose first record falls in the last position before the boundary moves the boundary on once (R363, R364). -/
def takeEvents : Nat → (stop room n : Nat) → (moved : Bool) → List Event → List Event × List Event
  | 0, _, _, _, _, es => ([], es)
  | fuel + 1, stop, room, n, moved, es =>
    match nextEvent es with
    | none => ([], es)
    | some e =>
      let k := e.size
      let far := n + k > stop
      if n ≥ stop || n + k > room || (far && moved) then ([], es)
      else
        let (ts, rest) := takeEvents fuel (if far then stop + 4 else stop) room (n + k) (moved || far) (es.erase e)
        (e :: ts, rest)

/-- Records of a list of events from record number c on. -/
def eventList : List Event → Nat → List Bytes
  | [], _ => []
  | e :: es, c => e.records c ++ eventList es (c + e.size)

/-! ## Writes -/

/-- An event write of a domain is on its way: PARSLEY makes one at a time. -/
def State.eventsOut (s : State) (d : Nat) : Bool :=
  s.txns.any fun t => match t.purpose with
    | .events e _ _ _ => e == d
    | _ => false

/-- PARSLEY can write for the domain: it has a ring, a free position, its link is up, and no write of it is on its way (R365, R368). -/
def State.eventsOpen (s : State) (q : EventQ) : Bool :=
  s.mainRuns && !s.inAlarm && !s.repeats .parsley && q.base != 0 && q.waiting != 0 && q.freePos != 0 && !s.eventsOut q.domain
  && !s.resetting q.domain && !s.linkOff q.domain

/-- A start of R364 other than the timeout: the staged records reach the boundary, a record of priority 0 waits, or timeout is 0. -/
def EventQ.starts (q : EventQ) : Bool :=
  decide (4 - q.count.toNat % 4 ≤ q.waiting) || q.gap != 0 || q.staged.any (fun e => e.prio == 0) || q.timeout == 0

/-- The inactivity timeout has run (R364). -/
def EventQ.timedOut (q : EventQ) (tick : Nat) : Bool := q.timeout != 0 && q.lastStaged + q.timeout.toNat ≤ tick

/-- Write a domain's records: the gap marker first, then staged records (R363 to R365). A pair that spans the end of the ring goes out as two port writes. -/
def State.writeEvents (s : State) (d : Nat) (byTimeout : Bool) : State :=
  match s.evq? d with
  | none => s
  | some q =>
    let c := q.count.toNat
    let gap := q.gap != 0
    let g := if gap then 1 else 0
    let (ts, rest) := takeEvents q.staged.length (4 - c % 4) q.freePos g false q.staged
    let recs := (if gap then [q.gapRecord s.thyme.tick c] else []) ++ eventList ts (c + g)
    let n := recs.length
    if n = 0 then s
    else
      let ints := byTimeout || gap || ts.any fun e => e.prio ≤ q.intPrio.toNat
      let s := s.setEvq d fun q => { q with
        staged := rest, gap := if gap then 0 else q.gap, count := q.count + BitVec.ofNat 16 n }
      let p := c % 256
      let a := min n (256 - p)
      let put (s : State) (pos : Nat) (rs : List Bytes) : State :=
        if rs.isEmpty then s
        else s.issue .write .metadata d (q.base + 32 * pos) (32 * rs.length) rs.flatten fun _ => .events d c n ints
      ((put (put s p (recs.take a)) 0 (recs.drop a)).checkHold d).sendAll

/-- EVENT_WRITE (R364): a write starts. -/
def execEventWrite (domain : Nat) (s : State) : Ans :=
  onSome ((s.evq? domain).filter fun q => s.eventsOpen q && q.starts) s fun _ => s.writeEvents domain false

/-- EVENT_TIMEOUT (R364): the inactivity timeout starts a write. -/
def execEventTimeout (domain : Nat) (s : State) : Ans :=
  onSome ((s.evq? domain).filter fun q => s.eventsOpen q && q.timedOut s.thyme.tick) s fun _ => s.writeEvents domain true

/-! ## A change of ring -/

/-- The event of a record, as it was staged; its continuation follows in a record of its own (Table 11.12). -/
def eventOf (r : Bytes) : Event :=
  { typ := byteAt r 1, prio := bits (byteAt r 0).toNat 6 5, arg := BitVec.ofNat 16 (fieldLe r 2 2), tick := fieldLe r 4 8,
    data := sub r 12 20, cont := none, poison := BitVec.ofNat 8 (bits (byteAt r 0).toNat 3 0) }

/-- Events and gap marker of the records of a write, in order: a continuation joins its first record. -/
def readRecords : List Bytes → List Event × Nat × Nat → List Event × Nat × Nat
  | [], acc => acc
  | r :: rs, (es, gap, at') =>
    readRecords rs (match (byteAt r 1).toNat with
      | 0x01 => (es, fieldLe r 12 4, fieldLe r 16 8)
      | 0x3F => (es.dropLast ++ (es.getLast?.map fun e => { e with
          cont := some (sub r 12 20), poison := e.poison ||| BitVec.ofNat 8 (16 * bits (byteAt r 0).toNat 3 0) }).toList, gap, at')
      | _ => (es ++ [eventOf r], gap, at'))

/-- An event write of a domain that has not been sent. -/
def Txn.eventsUnsent (t : Txn) (d : Nat) : Bool := t.tag.isNone && !t.dead && match t.purpose with
  | .events e _ _ _ => e == d
  | _ => false

/-- A new ring base for a domain: nothing further is written to the old ring, no head word of it is taken, the count is 0, and the records and the gap count that have not gone out are carried over (R362, R367). A continuation whose first record has gone out alone is not. -/
def State.newRing (s : State) (d base : Nat) : State :=
  let old := (s.txns.filter fun t => t.eventsUnsent d).flatMap fun t => chunks 32 t.data
  let (es, gap, at') := readRecords old ([], 0, 0)
  let s := s.killTxns fun t => t.eventsUnsent d || t.purpose == .headWord d
  s.setEvq d fun q =>
    let n := min (q.gap.toNat + gap) 0xFFFFFFFF
    let q' := { q with base := base, count := 0, headWord := 0, staged := [], gap := BitVec.ofNat 32 n, gapTick := if gap = 0 then q.gapTick else at' }
    { (es ++ q.staged).foldl (fun q e => q.post s.thyme.tick e) q' with lastStaged := q.lastStaged }

/-! ## Head words -/

/-- A domain's head word is due to be read (R365). -/
def State.headDue (s : State) (q : EventQ) : Bool :=
  q.base != 0 && q.freePos < q.waiting && q.lastHeadRead + 8 ≤ s.thyme.tick && !s.resetting q.domain
  && !s.linkOff q.domain

/-- Read the head words that are due, at most once every 8 ticks (R365). -/
def State.headReads (s : State) : State :=
  if !s.mainRuns || s.inAlarm then s
  else (s.parsley.qs.filter s.headDue).foldl (fun s q =>
    (s.setEvq q.domain fun q => { q with lastHeadRead := s.thyme.tick }).issue .read .metadata q.domain (q.base + 0x2000) 8 []
      fun _ => .headWord q.domain) s

/-- HEAD_WORD_READ (R362, R365): the head word of a domain has been read. -/
def execHeadWordRead (domain : Nat) (w : BitVec 64) (s : State) : Ans :=
  onSome (s.txns.find? fun t => t.purpose == .headWord domain && t.tag.isSome) s fun t =>
    let s := s.endTxn t.port (t.tag.getD 0)
    if t.dead then s.sendAll
    else (s.setEvq domain fun q => { q with headWord := w.setWidth 16 }).sendAll

/-! ## Responses -/

/-- Request an event interrupt of a domain: at most one in a tick (R368). -/
def State.eventInt (s : State) (d : Nat) : State :=
  match s.evq? d with
  | none => s
  | some q =>
    if q.lastInt == some s.thyme.tick || s.linkOff d then s
    else (s.setEvq d fun q => { q with lastInt := some s.thyme.tick }).irq d q.vector

/-- EVENT_WRITE_RESPONSE (R368): the response of an event write; the second of two port writes ends it. -/
def execEventWriteResponse (port tag : Nat) (s : State) : Ans :=
  onSome ((s.txn? port tag).bind fun t => match t.purpose with
      | .events d _ _ i => some (t, d, i)
      | _ => none) s fun x =>
    let (t, d, i) := x
    let s := (s.endTxn port tag).logTxn t
    (if t.dead || !i || s.eventsOut d then s else s.eventInt d).sendAll

/-- An event write has failed: its records count as dropped, and the count goes back to its first position (R365, Table 15.6). -/
def State.eventsLost (s : State) (d first n : Nat) : State :=
  let other (t : Txn) : Bool := match t.purpose with
    | .events e _ _ _ => e != d || t.tag.isSome
    | _ => true
  let mark (t : Txn) : Txn := match t.purpose with
    | .events e _ _ _ => if e == d then { t with dead := true } else t
    | _ => t
  let s : State := { s with txns := (s.txns.filter other).map mark }
  s.setEvq d fun q => { q with
    gap := BitVec.ofNat 32 (min (q.gap.toNat + n) 0xFFFFFFFF), gapTick := if q.gap = 0 then s.thyme.tick else q.gapTick,
    count := BitVec.ofNat 16 first }

end Sys2Proof.Machine
end

