-- ==== Sys2Proof/Machine/Queues.lean ====
section
/-! DEFINITION. The queue pages: doorbells, disable and enable (R87 to R90, R97, R98, R109, R110), and the push window (R91 to R96). -/

namespace Sys2Proof.Machine

/-! ## Access -/

/-- Number of a partner port (Table 15.12). -/
def portNum : PPort → Nat
  | .p0 => 0
  | .p1 => 1
  | .p3 => 3

/-- A queue page write by a domain or a port that may not make it is reported to the manager (R87, R463). -/
def State.foreignWrite (s : State) (src : From) (q : Nat) : State :=
  s.event 0 0x13 1 q (leBytes 2 src.domain ++ leBytes 1 (portNum src.port))

/-- A write to queue q's page reaches the queue only from its domain; any other is reported to the manager (R87). A domain that is being reset writes nothing (R327). -/
def State.queueAccess (s : State) (src : From) (q : Nat) (f : Queue → State → State) : State :=
  if s.resetting src.domain then s
  else match (s.queue? q).filter (·.domain == src.domain) with
    | some x => f x s
    | none => s.foreignWrite src q

/-- A queue-page write arrives: held by flow control, lost while no page is open, or taken (R88, R369, R432, R433). -/
def State.pageWrite (s : State) (src : From) (q : Nat) (f : Queue → State → State) : Ans :=
  guarded (s.pagesOpen && !s.writeHeld src.domain && s.fennel.arrivals.length < 64) s fun s => (s.queueAccess src q f).flow

/-! ## Discards -/

/-- Set push_discard and post the event of a reason (Table 11.13, type 0x12). -/
def State.pushDiscard (s : State) (x : Queue) (reason : Nat) : State :=
  (s.setQueue x.num fun y => { y with pushDiscard := true }).event x.domain 0x12 1 x.num [BitVec.ofNat 8 reason]

/-- Discard a pending first half (R93). -/
def State.dropHalf (s : State) (x : Queue) (reason : Nat) : State :=
  if x.pushHalf.isSome then (s.setQueue x.num fun y => { y with pushHalf := none }).pushDiscard x reason else s

/-- Ignore a doorbell: db_error and its event (R89). -/
def State.dbError (s : State) (x : Queue) (w : BitVec 32) : State :=
  (s.setQueue x.num fun y => { y with dbError := true }).event x.domain 0x11 1 x.num
    (leBytes 4 (w.toNat % 2 ^ 17) ++ leBytes 4 x.tail.toNat)

/-! ## Fetch -/

/-- Read again the covered entries that read stale, but those whose read is on its way (R97). -/
def State.readStale (s : State) (q : Nat) : State :=
  match s.queue? q with
  | some x => s.readEntries x (x.stale.filter fun c => !s.entryAsked q c true) false
  | none => s

/-- Prefetch beyond the tail after an accepted doorbell (R98); a disabled queue prefetches nothing (R109), and a queue whose link is down reads nothing (R111). A count that was prefetched and discarded is read again (notes/assumptions/99). -/
def State.prefetch (s : State) (q : Nat) : State :=
  match (s.queue? q).filter fun x => x.enabled && !s.linkOff x.domain with
  | none => s
  | some x =>
    let k := min 32 (min x.free (s.entryRoom x))
    s.readEntries x ((countsFrom x.tail k).filter fun c => !(x.copy? c).isSome && !s.entryAsked q c false) true

/-! ## Doorbells -/

/-- A queue that is being disabled and has no outstanding entry is idle (R109). -/
def State.disableIdle (s : State) (q : Nat) : State :=
  s.setQueue q fun x => if x.disabling && x.head == x.tail then { x with disabling := false } else x

/-- Accept a disable (R100, R109): every held copy is discarded, and the covered entries are read again; pushed copies stay, since Duern never reads the ring's in their place (R95, notes/assumptions/100). -/
def State.disableQueue (s : State) (x : Queue) (w : BitVec 32) : State :=
  if !x.enabled then s.dbError x w
  else
    let s := s.setQueue x.num fun y => { y with enabled := false, disabling := true, copies := y.copies.filter (·.express) }
    (s.killTxns fun t => match t.purpose with
      | .entry q _ p _ => q == x.num && p
      | _ => false).disableIdle x.num

/-- Accept an enable on an idle disabled queue (R109). -/
def State.enableQueue (s : State) (x : Queue) (w : BitVec 32) : State :=
  if !x.enabled && !x.disabling && x.idle then s.setQueue x.num fun y => { y with enabled := true } else s.dbError x w

/-- Accept a count (R89). -/
def State.ringDoorbell (s : State) (x : Queue) (w : BitVec 32) : State :=
  let d : BitVec 17 := w.setWidth 17
  let delta := (d - x.tail).toNat
  if !x.enabled || delta > x.free then s.dbError x w
  else (s.setQueue x.num fun y => { y with tail := d, used := true }).reenter x.domain

/-- What a doorbell write does to the queue's counts and bits (Table 3.3): disable and enable belong to Q0 and Q1, and reserved bits are zero (R89, R109). -/
def State.takeDoorbell (s : State) (x : Queue) (w : BitVec 32) : State :=
  let s := s.dropHalf x 3
  let dis := w.getLsbD 31
  let en := w.getLsbD 30
  if bits w.toNat 29 17 != 0 || ((dis || en) && x.num > 1) || (dis && en) then s.dbError x w
  else if dis then s.disableQueue x w
  else if en then s.enableQueue x w
  else s.ringDoorbell x w

/-- FENNEL accepts a doorbell write: stalled and newly covered entries are read, and then entries beyond the tail (R89, R97, R98). -/
def State.acceptDoorbell (s : State) (x : Queue) (w : BitVec 32) : State :=
  (((s.takeDoorbell x w).readStale x.num).fetchQueue x.num).prefetch x.num

/-- FENNEL accepts the doorbells at the front of the arrival queue, n at most; behind a complete push they wait for its PUSH (R88, R90). -/
def State.takeBells : Nat → State → State
  | 0, s => s
  | n + 1, s => match s.fennel.arrivals with
    | .bell q w :: rest =>
      let s : State := { s with fennel := { s.fennel with arrivals := rest } }
      State.takeBells n (match s.queue? q with
        | some x => s.acceptDoorbell x w
        | none => s)
    | _ => s

/-- FENNEL accepts the doorbells at the front of the arrival queue (R88). -/
def State.acceptBells (s : State) : State := if s.pagesOpen then State.takeBells s.fennel.arrivals.length s else s

/-- Something enters the arrival queue (R88). -/
def State.arrive (s : State) (a : Arrival) : State := { s with fennel := { s.fennel with arrivals := s.fennel.arrivals ++ [a] } }

/-- A doorbell write arrives (R88). -/
def State.bell (w : BitVec 32) (x : Queue) (s : State) : State := (s.arrive (.bell x.num w)).acceptBells

/-- DOORBELL (R89). -/
def execDoorbell (src : From) (q : Nat) (w : BitVec 32) (s : State) : Ans := s.pageWrite src q (State.bell w)

/-- DISABLE: a doorbell with the disable bit (R109). -/
def execDisable (src : From) (q : Nat) (w : BitVec 32) (s : State) : Ans :=
  s.pageWrite src q (State.bell (w ||| 0x80000000))

/-- ENABLE: a doorbell with the enable bit (R109). -/
def execEnable (src : From) (q : Nat) (w : BitVec 32) (s : State) : Ans :=
  s.pageWrite src q (State.bell (w ||| 0x40000000))

/-! ## Pushes -/

/-- A write into the push window (R91 to R93); a Gen A or Gen B queue takes none at +0x080 (notes/assumptions/101). -/
def State.pushWrite (src : From) (offset : Nat) (data : Bytes) (x : Queue) (s : State) : State :=
  if data.length != 64 || !(offset == 0x40 || (offset == 0x80 && x.gen == .c)) then s.pushDiscard x 1
  else if x.gen != .c then s.arrive (.push x.num data)
  else if offset == 0x40 then
    (s.dropHalf x 4).setQueue x.num fun y => { y with pushHalf := some { src := src, data := data, tick := s.thyme.tick } }
  else match x.pushHalf with
    | some h => (s.setQueue x.num fun y => { y with pushHalf := none }).arrive (.push x.num (h.data ++ data))
    | none => s.pushDiscard x 6

/-- PUSH_WINDOW_WRITE (R91). -/
def execPushWindowWrite (src : From) (q offset : Nat) (data : Bytes) (s : State) : Ans :=
  s.pageWrite src q (State.pushWrite src offset data)

/-- An entry with the phase bit of its count: what a completion of the count carries when the copy does not (R104). -/
def Queue.withPhase (x : Queue) (c : BitVec 17) (e : Bytes) : Bytes :=
  let b := byteAt e 1
  putAt (padTo x.gen.size e) 1 [if x.phaseOf c then b ||| 0x80 else b &&& 0x7F]

/-- The copy that an accepted push gives count c: fresh, or MALFORMED (R92, R95). -/
def Queue.pushCopy (x : Queue) (c : BitVec 17) (data : Bytes) : EntryCopy :=
  let e := data.take x.gen.size
  if x.judge c e == .fresh && allZero (data.drop x.gen.size) then
    { count := c, bytes := e, express := true, bad := none, checks := flitChecks e, port := none }
  else { count := c, bytes := x.withPhase c e, express := true, bad := some .malformed, checks := [], port := none }

/-- A push supersedes the prefetched copy of its count, held or on its way (R100). -/
def State.supersede (s : State) (q : Nat) (c : BitVec 17) : State :=
  let other (d : BitVec 17) : Bool := d != c
  let left (t : Txn) : Txn := match t.purpose with
    | .entry q' cs true a => if q' == q then { t with purpose := .entry q' (cs.filter other) true a } else t
    | _ => t
  let keep (k : EntryCopy) : Bool := k.count != c
  { s with txns := s.txns.map left }.setQueue q fun y => { y with copies := y.copies.filter keep }

/-- FENNEL holds a copy for the queue that is not a pushed one, or fewer than 64 (R98): there is a place for a pushed copy. -/
def Queue.pushRoom (x : Queue) : Bool := decide (x.copies.length < 64) || x.copies.any fun k => !k.express

/-- The copies of a queue that gets a pushed one: when 64 are held, the last fetched one gives way, and is read again (notes/assumptions/103). -/
def Queue.makeRoom (x : Queue) : List EntryCopy :=
  if x.copies.length < 64 then x.copies
  else
    let last := ((x.copies.filter fun k => !k.express).map fun k => (k.count - x.head).toNat).foldl max 0
    x.copies.filter fun k => k.express || (k.count - x.head).toNat != last

/-- What an accepted push does (R95, R96): it claims the count at the tail, with its copy or, on a parity error, without one, so that the ring's is read. -/
def State.takePush (s : State) (x : Queue) (data : Bytes) (parityError : Bool) : State :=
  if !x.enabled then s.setQueue x.num fun y => { y with pushDiscard := true }
  else if x.free = 0 then s.pushDiscard x 7
  else
    let c := x.tail
    let s := s.supersede x.num c
    let s := s.setQueue x.num fun y =>
      { y with tail := c + 1, used := true, copies := if parityError then y.copies else y.makeRoom ++ [x.pushCopy c data] }
    s.reenter x.domain

/-- FENNEL accepts a complete push; the entries that stalled are read again (R95, R97). -/
def State.acceptPush (s : State) (x : Queue) (data : Bytes) (parityError : Bool) : State :=
  ((s.takePush x data parityError).readStale x.num).fetchQueue x.num

/-- The queue and the complete push that stands at the front of the arrival queue for it. -/
def State.frontPush (s : State) (q : Nat) : Option (Queue × Bytes) :=
  match s.fennel.arrivals with
  | .push q' data :: _ => if s.pagesOpen && q' == q then (s.queue? q).map fun x => (x, data) else none
  | _ => none

/-- FENNEL can accept the push now: it discards it, or has a place for its copy; with 64 pushed copies held it waits in the arrival queue (R88, R95, R98, notes/assumptions/103). -/
def Queue.takesPush (x : Queue) (parityError : Bool) : Bool := !x.enabled || x.free == 0 || parityError || x.pushRoom

/-- PUSH (R88, R95): the complete push at the front of the arrival queue is accepted, and the doorbells that waited behind it. -/
def execPush (q : Nat) (parityError : Bool) (s : State) : Ans :=
  onSome ((s.frontPush q).filter fun xp => xp.1.takesPush parityError) s fun xp =>
    let s : State := { s with fennel := { s.fennel with arrivals := s.fennel.arrivals.drop 1 } }
    ((s.acceptPush xp.1 xp.2 parityError).acceptBells).flow

/-- PUSH_HALF_TIMEOUT (R93): no second half has come within 16 ticks. -/
def execPushHalfTimeout (q : Nat) (s : State) : Ans :=
  onSome ((s.queue? q).filter fun x => x.pushHalf.any fun h => h.tick + 16 ≤ s.thyme.tick) s fun x => s.dropHalf x 2

end Sys2Proof.Machine
end

