-- ==== Sys2Proof/Machine/LogPages.lean ====
section
/-! DEFINITION. Admin entries that end and write their buffer (R342, R344), and the log pages (R357 to R359, R337, Tables 11.6, 11.9, 11.10 and 10.8). -/

namespace Sys2Proof.Machine

/-! ## Ends -/

/-- Target domain of an admin entry (Table 11.1). -/
def Job.target (j : Job) : Nat := fieldLe j.entry 24 2

/-- Data buffer of an admin entry. -/
def Job.buffer (j : Job) : Nat := fieldLe j.entry 16 8

/-- The entry ends with a status, naming the field that failed (Table 11.2). -/
def State.adminFail (s : State) (c : BitVec 17) (st : Status) (off : Nat) : State :=
  (s.setJob 0 c fun j => { j with adminDetail := BitVec.ofNat 16 off }).endJob 0 c st

/-- RESOURCE_BUSY or UNSUPPORTED, where no field has failed. -/
def State.adminRefuse (s : State) (c : BitVec 17) (st : Status) : State := s.endJob 0 c st

/-- The entry ends OK with result0. -/
def State.adminOk (s : State) (c : BitVec 17) (r0 : Nat) : State :=
  (s.setJob 0 c fun j => { j with result0 := BitVec.ofNat 64 r0 }).endJob 0 c .ok

/-- The target domain exists, or the entry is malformed (R344). -/
def State.onTarget (s : State) (j : Job) (f : Domain → State) : State :=
  match s.domain? j.target with
  | some x => f x
  | none => s.adminFail j.count .malformed 24

/-- Write the data buffer; the entry takes effect and completes when the responses return (Table 11.3). -/
def State.adminWrite (s : State) (j : Job) (data : Bytes) (r0 r1 : Nat) : State :=
  let s := s.issue .write .metadata 0 j.buffer data.length data fun _ => .result 0 j.count
  (s.setJob 0 j.count fun j => { j with
    bytesDone := 0, result0 := BitVec.ofNat 64 r0, result1 := BitVec.ofNat 64 r1 }).endJob 0 j.count .ok

/-! ## Log pages -/

/-- Write the part of a log page that the entry asks for (R357). -/
def State.writePage (s : State) (j : Job) (page : Bytes) : State :=
  let n := pageSize (eSub j.entry)
  s.adminWrite j (Machine.sub (padTo n page) (fieldLe j.entry 32 4) (eLen j.entry)) n s.thyme.tick

/-- An entry of the Deferred Error log (Table 11.9). -/
def DefErr.bytes (e : DefErr) : Bytes :=
  leBytes 4 e.load.toNat ++ leBytes 2 e.domain ++ leBytes 1 e.status.code ++ [0x11] ++ leBytes 4 e.count.toNat
  ++ leBytes 2 e.tag.toNat ++ Machine.zeros 2 ++ leBytes 3 e.handle ++ [0] ++ leBytes 3 e.kek ++ [0] ++ leBytes 8 e.tick

/-- Entries of a page of a domain that lie whole in the bytes [off, off + len) that a read writes. -/
def writtenEntries (es : List DefErr) (off len : Nat) : List DefErr :=
  ((List.range es.length).zip es).filterMap fun x =>
    if off ≤ 16 + 32 * x.1 && 48 + 32 * x.1 ≤ off + len then some x.2 else none

/-- The Deferred Error page of a domain (R358). -/
def State.deferredPage (s : State) (d : Nat) : Bytes :=
  let es := s.admin.defLog.filter (·.domain == d)
  leBytes 2 es.length ++ Machine.zeros 2 ++ leBytes 4 s.admin.defLost.toNat ++ Machine.zeros 8 ++ es.flatMap DefErr.bytes

/-- Load numbers of the entries that a read of the Deferred Error page writes: with clear they leave the log when it takes effect (R358). -/
def State.deferredRead (s : State) (j : Job) : List Nat :=
  (writtenEntries (s.admin.defLog.filter (·.domain == j.target)) (fieldLe j.entry 32 4) (eLen j.entry)).map (·.load.toNat)

/-- A plan record in the layout of Table 2.2. -/
def PlanRec.bytes (r : PlanRec) : Bytes :=
  leBytes 2 r.chive ++ leBytes 2 r.dill ++ leBytes 1 r.basil
  ++ leBytes 1 ((if r.cls == .sealed then 2 else 1) + if r.verified then 4 else 0)
  ++ leBytes 2 r.cap ++ leBytes 1 r.weight ++ Machine.zeros 3 ++ leBytes 4 r.revision.toNat

/-- A slot map entry (Table 2.3). -/
def slotEntry (p : List (Nat × PlanRec)) (dark : Bool) (x : Option Slot) : Nat :=
  (if dark then 0x1000 else 0) + match x with
    | some y => 0x8000 + (if y.second then 0x4000 else 0) + y.domain
        + (if (p.lookup y.domain).any fun r => r.cls == .sealed then 0x2000 else 0)
    | none => 0

/-- A slot map of 1,280 entries in the order of R46. -/
def State.mapBytes (s : State) (p : List (Nat × PlanRec)) (slots : List Slot) : Bytes :=
  (List.range 16).flatMap fun f =>
    let mine := slots.filter (·.frame == f)
    let row (u : LaneKind) (n : Nat) (lanes : List (Option Nat)) : Bytes := (List.range n).flatMap fun k =>
      leBytes 2 (slotEntry p (nth lanes k none).isNone (mine.find? fun x => x.unit == u && x.pos == k))
    row .chive 64 s.thyme.laneOf ++ row .dill 16 s.thyme.dillOf

/-- The largest cyclic distance between consecutive frame ticks of a list in ascending order (R45). -/
def largestGap : List Nat → Nat
  | [] => 0
  | f :: fs => ((f :: fs).zip (fs ++ [f + 16])).foldl (fun m x => max m (x.2 - x.1)) 0

/-- Reservation period of a domain for a unit (R45); 0 with no share. -/
def periodOf (slots : List Slot) (d : Nat) (u : LaneKind) : Nat :=
  largestGap ((List.range 16).filter fun f => slots.any fun x => x.frame == f && x.unit == u && x.domain == d)

/-- Domain d's part of the Plan page. -/
def State.planEntry (s : State) (d : Nat) : Bytes :=
  let t := s.thyme
  let r := t.compiled.lookup d
  let flags := (if (s.domain? d).isSome then 1 else 0) + (if r != t.plan.lookup d then 2 else 0)
    + if t.staged.any (·.domain == d) then 4 else 0
  ((r.map PlanRec.bytes).getD (Machine.zeros 16)) ++ leBytes 1 (periodOf t.slotMap d .chive) ++ leBytes 1 (periodOf t.slotMap d .dill)
  ++ leBytes 1 flags ++ [0] ++ leBytes 4 (assocD t.revisions d 0).toNat ++ Machine.zeros 8

/-- The least epoch at which a staged change takes effect; 0 when none is staged. -/
def State.stagedEpoch (s : State) : Nat :=
  match s.thyme.staged.map (·.epoch) with
  | [] => 0
  | e :: es => es.foldl min e

/-- The Plan page (Table 11.10). -/
def State.planPage (s : State) : Bytes :=
  let t := s.thyme
  let map := s.mapBytes t.compiled t.slotMap
  let next := if t.staged.isEmpty then map else
    let (p, m) := s.compileFor s.stagedSet
    s.mapBytes p m.slots
  leBytes 8 t.epoch ++ leBytes 8 s.stagedEpoch ++ leBytes 1 s.lanesInService ++ leBytes 1 s.healthyDill ++ leBytes 1 s.litBasil ++ [0]
  ++ leBytes 2 (plannable s.lanesInService) ++ leBytes 2 (16 * s.healthyDill) ++ Machine.zeros 40 ++ map ++ next
  ++ (List.range 512).flatMap s.planEntry

/-- Codes of the migration states (Table 10.3). -/
def migNum : MigState → Nat
  | .normal => 0
  | .logging => 1
  | .stopping => 2
  | .stopped => 3

/-- Codes of the generations (Table 10.8). -/
def genNum : Gen → Nat
  | .a => 0
  | .b => 1
  | .c => 2

/-- The Migration state page of a domain (R337, Table 10.8). -/
def State.migrationPage (s : State) (x : Domain) : Bytes :=
  let qs := if x.mig.state == .stopped then s.fennel.queues.filter (·.domain == x.num) else []
  leBytes 2 x.num ++ leBytes 1 (migNum x.mig.state)
  ++ leBytes 1 ((if x.deferred then 1 else 0) + if x.mig.overflowed then 2 else 0)
  ++ leBytes 4 x.mig.stopSeq.toNat ++ leBytes 2 qs.length ++ Machine.zeros 6
  ++ qs.flatMap fun q => leBytes 2 q.num ++ leBytes 2 (genNum q.gen) ++ leBytes 4 q.head.toNat

/-- An entry of the Self-Test log (R359). -/
def TestLogEntry.bytes (e : TestLogEntry) : Bytes :=
  leBytes 8 e.tick ++ leBytes 1 e.kind ++ leBytes 1 e.outcome ++ leBytes 2 e.index ++ leBytes 4 e.count.toNat

/-- The Self-Test page (R359): the newest entry last. -/
def State.selfTestPage (s : State) : Bytes :=
  leBytes 2 s.sorrel.testLog.length ++ Machine.zeros 14 ++ s.sorrel.testLog.flatMap TestLogEntry.bytes

/-- The page that an entry names (Table 11.6). -/
def State.logPage (s : State) (j : Job) : Bytes :=
  match eSub j.entry with
  | 1 => s.deferredPage j.target
  | 2 => s.planPage
  | 3 => ((s.domain? j.target).map s.migrationPage).getD []
  | _ => s.selfTestPage

/-- A Get Log Page is taken: its page is that of the start of the next tick (R357). -/
def State.askPage (s : State) (c : BitVec 17) : State := { s with admin := { s.admin with page := some c } }

/-- At the start of a tick, the page that a Get Log Page waits for is written (R357). -/
def State.pageDue (s : State) : State :=
  match s.admin.page with
  | none => s
  | some c =>
    let s : State := { s with admin := { s.admin with page := none } }
    match (s.job? 0 c).filter fun j => j.phase == .command && j.status.isNone with
    | some j => (if eSub j.entry == 1 then s.setJob 0 c fun j => { j with deliveredIdx := s.deferredRead j } else s).writePage j (s.logPage j)
    | none => s

end Sys2Proof.Machine
end

