-- ==== Sys2Proof/Machine/RegPathOpen.lean ====
section
/-! DEFINITION. Keys that the manager's own operations use under domain 0 (R194, R204, R239, R354), and the opening of a register-path session (R232, R233, R239). -/

namespace Sys2Proof.Machine

/-! ## Keys of domain 0 -/

/-- A handle lies in domain 0's window: the window in force, or before Service the one that firmware has set (R190, R483). -/
def State.inWindow0 (s : State) (h : Nat) : Bool :=
  match s.domain? 0 with
  | some x => inWindow x h
  | none =>
    let r := s.regN 0x40008
    r % 2 ^ 24 ≤ h && h < r % 2 ^ 24 + 2 ^ bits r 28 24

/-- Checks 1 and 2 of R194 for a handle in domain 0's slots, and for the members of a pair (R204). -/
def State.managerKeys (s : State) (op h : Nat) : State × List JobKey × KeyStep :=
  let ks : List JobKey := [{ role := .key, second := false, handle := h, failed := none }]
  if !s.inWindow0 h then (s, ks, .fail .keyDenied)
  else
    let (s, r) := State.checkKeys 0 op ks s .ok
    let ms := s.expandPairs 0 ks
    if r != .ok || ms.length ≤ 1 then (s, ms, r)
    else if ms.any fun k => !s.inWindow0 k.handle then (s, ms, .fail .keyDenied)
    else
      let (s, r) := State.checkKeys 0 op ms s .ok
      (s, ms, r)

/-- Every key has a use to charge, or will get none (R197). -/
def State.managerUses (s : State) (ks : List JobKey) : Bool := ks.all fun k => (s.slot? 0 k.handle).any fun x => x.hasUse || x.exhausted

/-! ## The register path -/

def State.setRp (s : State) (f : RegPath → RegPath) : State := { s with dill := { s.dill with rp := f s.dill.rp } }

/-- DG_RP_CFG of the session: digest selector, out_len, hmac and verify (Table 7.3). -/
def State.rpSel (s : State) : Nat := s.dill.rp.cfg % 256
def State.rpOut (s : State) : Nat := bits s.dill.rp.cfg 23 16
def State.rpHmac (s : State) : Bool := bit s.dill.rp.cfg 30
def State.rpVerify (s : State) : Bool := bit s.dill.rp.cfg 31

/-- Handle of the session's DG_RP_KEY. -/
def State.rpKey (s : State) : Nat := s.dill.rp.key % 2 ^ 24

/-- The OPEN that waits needs the key of a handle: its own key, or a member of the pair that it names. -/
def State.rpNames (s : State) (h : Nat) : Bool :=
  s.rpHmac && (s.rpKey == h || (s.recOf 0 s.rpKey).any fun r => r.typ == 1 && (r.newer == h || r.older == h))

/-- An OPEN fails: done and the status are set, and open stays 0 (R239). -/
def State.rpFail (s : State) (st : Status) : State :=
  s.setRp fun r => { r with opening := false, ctx := false, done := true, status := BitVec.ofNat 8 st.code }

/-- A place for the session's context (R233): outside every guarantee, behind every queue that asks for the last one in the same tick. -/
def State.rpContext (s : State) : State × CtxGrant :=
  if s.sharedOnDie + 1 = s.sharedCtxRoom && s.dill.rp.openTick == s.thyme.tick then (s, .wait)
  else if s.sharedOnDie < s.sharedCtxRoom then (s.setRp fun r => { r with ctx := true }, .taken)
  else if s.dill.ctxs.any fun c => match c.place with
      | .saving _ => true
      | _ => false then (s, .wait)
  else match (s.ctxVictim 0).or (s.ctxRichest.bind s.ctxVictim) with
    | some v => (s.saveCtx v, .wait)
    | none => (s, .busy)

/-- The session as a 0x41, or a 0x42 when it verifies, of domain 0 (R243). -/
def State.rpJob (s : State) (ks : List JobKey) : Job :=
  let e := padTo 128 (Machine.zeros 4 ++ [if s.rpVerify then 0x42 else 0x41, BitVec.ofNat 8 s.rpSel])
  { queue := 0, count := 0, domain := 0, gen := .c, entry := e, express := false, phase := .keys,
    aux := none, srcTable := none, dstTable := none, tableBuf := [], tableChecks := [], tablePort := none, tableAgain := false, data := [], slices := [], passes := [], nextSlice := 0,
    deliveredIdx := [], lastPos := 0, hasRecord := false, jrec := .fresh, made := [], madeOld := [], keys := ks, found := false, charged := false, asked := none, iv := none, firstTick := none, stagedTick := 0,
    pk := none, pkUse := none, outTag := [], detail := 0, bytesDone := 0, acked := [], wroteOutput := false,
    status := none, retried := false, shadowed := false, pairBoth := false, pairOld := false, deferredFlag := false, time := none,
    zeros := [], result0 := 0, result1 := 0, adminDetail := 0xFFFF, resetMark := false }

/-- The session opens (R239). -/
def State.rpOpened (s : State) (newer older : Option Bytes) : State :=
  s.setRp fun r => { r with
    opened := true, opening := false, newer := newer, older := older, busy := false, done := false, status := 0xFF, msg := [],
    words := 0, finishing := false, fifo := 0, dead := false, result := Machine.zeros 64 }

/-- The checks of R194 and R195 on the session's key, and its one use (R239). -/
def State.rpKeyed (s : State) : State :=
  match s.managerKeys 0x42 s.rpKey with
  | (s, _, .wait) => s
  | (s, _, .fail st) => s.rpFail st
  | (s, ks, .ok) =>
    let j := s.rpJob ks
    if !(ks.all fun k => s.keyCheck3 j k) || !s.pairClass j then s.rpFail .keyDenied
    else if !s.managerUses j.chargeKeys then s
    else
      let r := s.firstChecks j s.dill.rp.openTick
      let s := r.charged.foldl (fun s k => s.charge 0 k.handle) s
      match r.status with
      | some st => s.rpFail st
      | none =>
        let j := { j with keys := r.keys }
        let mat (h : Option Nat) := h.map fun h => s.matOf 0 h
        let live (older : Bool) := j.keys.any fun k => k.failed.isNone &&
          (if older then k.role == .older else k.role == .newer || k.role == .key)
        s.rpOpened (if live false then mat (j.mainKey false) else none) (if live true then mat (j.olderKey false) else none)

/-- An OPEN that waits goes on: its context, then its key (R239). -/
def State.openProgress (s : State) : State :=
  if !s.dill.rp.opening then s
  else
    let (s, g) := if s.dill.rp.ctx then (s, .taken) else s.rpContext
    match g with
    | .wait => s
    | .busy => s.rpFail .resourceBusy
    | .taken => if s.rpHmac then s.rpKeyed else s.rpOpened none none

/-! ## Writes at the port -/

/-- Modes that accept register-path writes (R238). -/
def State.rpMode (s : State) : Bool :=
  match s.mode.mode with
  | .startup | .provisioning | .service | .degraded | .drain | .quiesce | .authDebug => true
  | _ => false

/-- Selector and out_len are those of a digest or MAC that the register path makes (Tables 4.6, 4.7 and 7.3). -/
def rpFormOk (sel out : Nat) (hmac : Bool) : Bool :=
  digestOk sel && (if isShake sel then !hmac && 1 ≤ out && out ≤ 64 else !hmac || out == 0 || (4 ≤ out && out ≤ digestLen sel 0))

/-- A session takes message bytes: it is open, and neither closed to data, ended nor dead. -/
def RegPath.takes (r : RegPath) : Bool := r.opened && !r.finishing && !r.done && !r.dead

/-- A session ends with a status; only OK leaves a result (R243). -/
def State.rpEnd (s : State) (st : Status) (result : Bytes) : State :=
  s.setRp fun r => { r with
    done := true, busy := false, finishing := false, fifo := 0, msg := [], newer := none, older := none,
    status := BitVec.ofNat 8 st.code, result := padTo 64 result }

/-- OPEN is accepted: the session has the DG_RP_CFG and DG_RP_KEY in force (R239, R477). -/
def State.rpOpen (s : State) (src : From) : State :=
  if s.dill.rp.opened || s.dill.rp.opening then s
  else
    let s := s.setRp fun r => { r with
      cfg := s.regN 0x58000, key := s.regN 0x58004, owner := src, openTick := s.thyme.tick, ctx := false, done := false, status := 0xFF }
    if !rpFormOk s.rpSel s.rpOut s.rpHmac then s.rpFail .malformed
    else (s.setRp fun r => { r with opening := true }).openProgress

/-- A write of DG_RP_DATA is accepted (R240). -/
def State.rpData (s : State) (word : BitVec 64) : State :=
  if s.dill.rp.takes then
    s.setRp fun r => { r with msg := r.msg ++ leBytes 8 word.toNat, words := r.words + 1, fifo := r.fifo + 1, busy := true,
                              since := if r.busy then r.since else s.thyme.tick + 1 }
  else s

/-- A write of DG_RP_LAST is accepted (R241). -/
def State.rpLast (s : State) (word : BitVec 64) (n : Nat) : State :=
  if !s.dill.rp.takes then s
  else if 8 < n then s.rpEnd .malformed []
  else s.setRp fun r => { r with msg := r.msg ++ leBytes n word.toNat, fifo := r.fifo + 1, busy := true, finishing := true,
                                 since := if r.busy then r.since else s.thyme.tick + 1 }

/-- FINISH is accepted (R242). -/
def State.rpFinish (s : State) (n : Nat) : State :=
  if !s.dill.rp.takes then s
  else if s.dill.rp.words != ceilDiv n 8 then s.rpEnd .malformed []
  else s.setRp fun r => { r with msg := r.msg.take n, busy := true, finishing := true,
                                 since := if r.busy then r.since else s.thyme.tick + 1 }

/-- CLOSE is accepted from the requester that wrote OPEN; from any other it is an error (R239, R329). -/
def State.rpClose (s : State) (src : From) : State :=
  if s.dill.rp.opened && s.dill.rp.owner == src then s.setRp fun r => { RegPath.reset with expect := r.expect, held := r.held }
  else s.event 0 0x15 1 0 [6]

/-- The effect of a write of DG_RP_CMD, DG_RP_DATA or DG_RP_LAST (R239 to R242): FINISH takes the DG_RP_TOTAL in force, the last word the count last written (R477, Table 7.3). -/
def State.rpCommand (s : State) (src : From) (addr : Nat) (v : BitVec 64) : State :=
  match addr with
  | 0x58008 => match v.toNat % 16 with
    | 1 => s.rpOpen src
    | 2 => s.rpFinish (s.regN 0x58010)
    | 3 => s.rpClose src
    | _ => s
  | 0x58040 => s.rpData v
  | 0x58048 => s.rpLast v (s.regSoon 0x58018 % 16)
  | _ => s

/-- Flow control holds a write of the session's bytes while room is 0 (R240). -/
def State.rpFull (s : State) (addr : Nat) : Bool :=
  (addr == 0x58040 || addr == 0x58048) && s.rpMode && s.dill.rp.takes && decide (32 ≤ s.dill.rp.fifo)

/-- A register-path write reaches the port: it waits behind the accesses that wait, and for room in the FIFO (R240, R477). -/
def State.rpPort (s : State) (src : From) (addr size : Nat) (v : BitVec 64) : State :=
  let w : PortAccess := .write src addr size v
  s.inTurn w fun s => if s.rpFull addr then s.holdAccess w else s.rpCommand src addr v

end Sys2Proof.Machine
end

