-- ==== Sys2Proof/Machine/Ticks.lean ====
section
/-! DEFINITION. The tick family: TICK_BOUNDARY (R30 to R35, R53, R72, R249, R291, R333), EPOCH_BOUNDARY (R57 to R63, R68, R388) and SLICE_RESULT (R21, R65, R69, R177, R182 to R184, R383 to R390). -/

namespace Sys2Proof.Machine

/-! ## Changes that wait for a boundary -/

/-- Insert by ascending number. -/
def insertBy {α : Type} (num : α → Nat) (x : α) : List α → List α
  | [] => [x]
  | y :: ys => if num x < num y then x :: y :: ys else y :: insertBy num x ys

/-- A domain stands in the plan with its class, weight and cap and no share until its record takes effect (R318). -/
def PlanRec.empty (r : PlanRec) : PlanRec := { r with chive := 0, dill := 0, basil := 0 }

/-- The record staged for a domain. -/
def State.stagedRec (s : State) (d : Nat) : Option PlanRec := (s.thyme.staged.find? (·.domain == d)).bind (·.plan)

/-- The copy of a register in PD_AON follows each write (R437). -/
def State.keepReg (s : State) (a : Nat) (v : BitVec 64) : State :=
  { s with aon := { s.aon with retention := assocSet s.aon.retention a v } }

/-- A setup register takes its value, with its copy in PD_AON (R437); a lock that is set stays set (R479, R480). -/
def State.putSetup (s : State) (a : Nat) (v : BitVec 64) : State :=
  let v := if lockRegs.contains a then v ||| (s.reg a &&& 0x80000000) else v
  (s.setReg a v).keepReg a v

/-- A life-cycle state is in force (R409). In RETURNED the attestation key is gone, and the key bus closes: what waits for it is dropped (R397, Table 13.9). -/
def State.moveLife (s : State) (st : Life) (n : Nat) : State :=
  let s := s.setLovage fun l => { l with life := st, wordsLeft := n, attKey := if st == .returned || st == .scrapped then none else l.attKey }
  if s.kbClosed then { s with keyBus := { s.keyBus with reqs := s.keyBus.reqs.filter (·.frame.isSome) } } else s

/-- One change takes effect. -/
def State.applyChange (s : State) (c : Change) : State :=
  match c with
  | .setup a v => s.putSetup a v
  | .life st n => s.moveLife st n
  | .debug c r => { s with lovage := { s.lovage with dbgClass := c, retArmed := s.lovage.retArmed || r } }
  | .addQueue x => { s with fennel := { s.fennel with queues := insertBy (·.num) x s.fennel.queues } }
  | .interrupts q v n t u => s.setQueue q fun x => { x with vector := v, coalCount := n, coalTicks := t, urgent := u }
  | .addDomain x e =>
    let s := { s with domains := insertBy (·.num) x s.domains, parsley := { qs := insertBy (·.domain) e s.parsley.qs } }
    match s.stagedRec x.num with
    | some r => { s with thyme := { s.thyme with plan := planSet x.num r.empty s.thyme.plan,
                                                 compiled := planSet x.num r.empty s.thyme.compiled } }
    | none => s
  | .settings d b k r a n => s.setDomain d fun x =>
      { x with nsBase := b, nsLog2 := k, slotRes := r, saveBase := a, saveCount := n }
  | .events d b v p t h l again =>
    let s := s.setEvq d fun q => { q with vector := v, intPrio := p, timeout := t, hwm := h, lwm := l }
    (if again || (s.evq? d).any fun q => q.base != b then s.newRing d b else s).checkHold d
  | .linkDown d => s.linkLost d
  | .flr d => s.triggerReset d s.thyme.tick
  | .resumeLog d => s.setDomain d fun x => { x with mig := { x.mig with paused := false } }
  | .revoked _ _ => s.keyRetry
  | .rebuild q => s.rebuildQueue q
  | .pll true => { s with sorrel := { s.sorrel with pllCore := !s.sorrel.pllCore } }
  | .pll false => { s with sorrel := { s.sorrel with pllTime := !s.sorrel.pllTime } }
  | .spareRow m w =>
    let x := s.sorrel
    if (x.spareRows.filter fun v => v.1 == m).length < 4 then
      { s with sorrel := { x with spareRows := x.spareRows ++ [(m, w)], spared := satInc x.spared } }
    else { s with sorrel := { x with scrubSeen := x.scrubSeen ++ [(m, w)] } }
  | .position k => match s.sparePort with
    | some y => (s.setPort y fun x => { x with role := .position k }).unitEvent 0x05 y 4
    | none => s

/-- Every change that waits takes effect; with BY_CFG locked P5 presents the journal's addresses (R485). -/
def State.applyChanges (s : State) : State :=
  let cs := s.admin.changes
  (cs.foldl State.applyChange { s with admin := { s.admin with changes := [] } }).presentJournal

/-- Slots whose handle has left the window of their domain are zeroed once nothing holds them (R320). -/
def State.sweepWindows (s : State) : State :=
  let keep (x : KeySlot) : Bool := s.slotHeld x || (s.domain? x.domain).all fun d => inWindow d x.handle
  { s with bay := { s.bay with slots := s.bay.slots.filter keep } }

/-! ## Slices -/

/-- A slice of a job. -/
def Job.slice? (j : Job) (i : Nat) : Option Slice := j.slices.find? (·.index == i)

/-- Change one slice of a job. -/
def State.setSlice (s : State) (q : Nat) (c : BitVec 17) (i : Nat) (f : Slice → Slice) : State :=
  s.setJob q c fun j => { j with slices := j.slices.map fun x => if x.index == i then f x else x }

/-- Drop a slice of a job, with its staging buffer. -/
def State.dropSlice (s : State) (q : Nat) (c : BitVec 17) (i : Nat) : State :=
  s.setJob q c fun j => { j with slices := j.slices.filter (·.index != i) }

/-- Write output of slice i, for its slot position (R19, R52); a slice without output is over. -/
def State.writeSlice (s : State) (j : Job) (i : Nat) (data : Bytes) (zeroed : Bool) : State :=
  if data.isEmpty then s.dropSlice j.queue j.count i
  else
    let s := (s.setJob j.queue j.count fun j => { j with wroteOutput := true }).setSlice j.queue j.count i fun x => { x with state := .writing }
    s.writeDstAt ((j.slice? i).map (·.pos) |>.getD 0) j (s.payloadClass j.domain) (j.outSpan i).1 data fun o =>
      if zeroed then .zero j.queue j.count o else .output j.queue j.count i o

/-- Write back the output buffers of the last tick's slices, in the tick after they delivered (R169, R153): those whose comparison is still to be judged stay. -/
def State.writeLanes (s : State) : State :=
  (s.thyme.outs.filter fun o => !o.held).foldl (fun s o =>
      match s.job? o.queue o.count with
      | some j => s.writeSlice j o.slice o.data o.zeroed
      | none => s)
    { s with thyme := { s.thyme with outs := s.thyme.outs.filter (·.held) } }

/-- The XTS slice that may be written back: every earlier slice has passed its verdict and its checks (R178). -/
def Job.xtsNext (j : Job) : Option Slice :=
  j.slices.find? fun x => x.state == .delivered && (List.range x.index).all fun i =>
    j.deliveredIdx.contains i && !(j.slices.any fun y => y.index == i && y.state == .delivered)

/-- Write back the XTS slices whose every earlier slice has passed; a failing check ends the job PI_GUARD_FAIL with the units before the failing one written (R177, R178). -/
def State.xtsPump (q : Nat) (c : BitVec 17) : Nat → State → State
  | 0, s => s
  | fuel + 1, s =>
    match s.job? q c with
    | none => s
    | some j =>
      match j.xtsNext with
      | none => s
      | some x =>
        let s := s.writeSlice j x.index x.out false
        match x.fault with
        | none => State.xtsPump q c fuel s
        | some (u, f) =>
          (s.setJob q c fun j => { j with detail := BitVec.ofNat 32 (u * 256 + f), bytesDone := u * duBytes j.entry }).endJob q c .piGuardFail

/-- The write-backs of the tick that begins (R169, R178). -/
def State.writeBack (s : State) : State :=
  let s := s.writeLanes
  (s.fennel.jobs.filter fun j => eOp j.entry == 0x18 || eOp j.entry == 0x19).foldl
    (fun s j => State.xtsPump j.queue j.count (j.slices.length + 1) s) s

/-! ## Parts of a boundary -/

/-- PD_TIME is powered up and its counter counts (R290, R427). -/
def State.timeRuns (s : State) : Bool := s.mode.timeOn && s.mode.steps.s1

/-- Exchange a reserve sequencer with the one of a service position when neither holds an operation (R388). -/
def State.tryExchange (s : State) : State :=
  match s.sorrel.exchange with
  | none => s
  | some p =>
    match s.seqAt p, s.freeReserveSeqs with
    | some _, r :: _ =>
      { s with thyme := { s.thyme with seqOf := s.thyme.seqOf.set p (some r) }, sorrel := { s.sorrel with exchange := none } }
    | _, _ => s

/-- The trace of an issue of a job, under class 2 and above; a sealed domain's is never traced (Table 13.14, R421). -/
def State.traceIssue (s : State) (v : Option Verdict) (i : Issue) : State :=
  match (s.job? i.queue i.count).filter fun _ => i.role != .test && decide (2 ≤ s.lovage.dbgClass) && !s.isSealed i.domain with
  | some j => s.emit (.trace i.domain i.queue i.pos (eOp j.entry) v)
  | none => s

/-- A result comes by cycle 239 of its tick (R15): an issue that has none ends with the tick, and its slice waits for another issue; a later result is stale (R21). -/
def State.endIssuesOfTick (s : State) : State :=
  let s := (s.thyme.issues.filter (·.delivered.isNone)).foldl (fun s i => s.traceIssue none i) s
  (s.thyme.issues.filter fun i => i.role != .test).foldl (fun s i => s.setSlice i.queue i.count i.slice fun x =>
      if x.state == .issued then { x with state := .staged } else x)
    { s with thyme := { s.thyme with issues := [] } }

/-- A new frame begins with its counts at zero (R43, R53). -/
def State.frameStart (s : State) (m : Nat) : State :=
  if m % 16 = 0 then { s with thyme := { s.thyme with frameUse := [], frameRead := 0, frameWrite := 0 } } else s

/-- Domain 0 holds a DILL position with a lane in tick m. -/
def State.ownDill (s : State) (m : Nat) : Bool :=
  (s.slotsAt m .dill).any fun x => x.domain == 0 && (nth s.thyme.dillOf x.pos none).isSome

/-- The assignment for tick m (R53, R72): all of it in Service and Drain; restarts of running operations in Quiesce; none when THYME's halves disagree (R382). What is not eligible in a tick without assignment counts its eligibility from a later one (R39). -/
def State.assignFor (s : State) (m : Nat) : State :=
  if s.thymeIssues then
    let s := s.frameStart m
    if s.thyme.idle then (s.noteEligible m).noteBasil m else (s.assign m).assignBasil m
  else if s.mode.mode == .quiesce then ((s.noteEligible m).noteBasil m).placeRestarts m
  else s

/-- The assignment for tick m, which uses up a disagreement of THYME's halves (R382). -/
def State.guardBand (s : State) (m : Nat) : State :=
  let s := s.assignFor m
  { s with thyme := { s.thyme with idle := false } }

/-- The register path in the tick that ends, in the modes in which THYME issues no slices: a DILL slot of domain 0 in Quiesce, DILL lane 0 in Start-up test, Provisioning and Authorised debug, and none in a short tick (R34, R238). -/
def State.quietPath (s : State) : State :=
  if s.thyme.short || !decide (s.dill.rp.since ≤ s.thyme.tick) then s
  else match s.mode.mode with
    | .quiesce => if s.ownDill s.thyme.tick then s.regPathTick else s
    | .startup | .provisioning | .authDebug => s.regPathTick
    | _ => s

/-- Control jobs take effect (R299), and the active counter reaches the next whole multiple of 160 ns by additions of the addend in force; the addend that a change asks for is in force from there, and the length of the tick that begins follows (R30, R32, R33, R34, R287). -/
def State.advance (s : State) : State :=
  let s := s.applyTimes
  let g := s.sage
  let adj := g.adjNext.getD g.adj
  let tick := g.now / tickUnit + 1
  let (n, acc) := tickLength (addend0 + adj).toNat s.thyme.cycAcc
  { s with
    aon := { s.aon with alarmNow := false }
    sage := { g with now := g.nextEdge, adj := adj, adjNext := none, freq := g.freqNext.getD g.freq, freqNext := none, sampleIn := g.sampleIn - 1 }
    thyme := { s.thyme with tick := tick, short := false, tickCycles := n, cycAcc := acc, epochDue := tick % 65536 == 0 } }

/-- Messages in the pipeline are abandoned (R308). -/
def State.abandonPipe (s : State) : State :=
  s.setSage fun g => { g with pipe := g.pipe.map fun m => { m with abandoned := true } }

/-- SAGE's comparison of its counters (R291, R292); a swap abandons the pipeline's messages (R308). -/
def State.compareAll (s : State) (c : TickChecks) : State :=
  let (s, swapped) := s.compareCounters c.aFails c.bFails c.disagree
  (if swapped then s.abandonPipe else s).repairCounters c.aFails c.bFails c.disagree

/-- Quiesce is quiet at the first boundary at which no operation runs (R436). -/
def State.checkQuiet (s : State) : State :=
  if s.mode.mode == .quiesce && !s.basilRunning then { s with mode := { s.mode with quiet := true } } else s

/-- Two verdicts of the bunch's lanes have failed in this tick, or a check on an element that they share fires (R390). -/
def State.bunchFails (s : State) (shared : List Nat) (b : Nat) : Bool :=
  shared.contains b || 2 ≤ ((bunchLanes b).filter fun l => s.sorrel.failedNow.contains (.chive, l, true)).length

/-- The lanes and bunches that this tick has found at fault are suspended at cycle 241 (R389, R390). -/
def State.suspendFailed (s : State) (shared : List Nat) : State :=
  let bs := (List.range 9).filter (s.bunchFails shared)
  let alone := s.sorrel.failedNow.filter fun x => !(x.1 == .chive && bs.contains (x.2.1 / 8))
  let one (s : State) (x : LaneKind × Nat × Bool) : State :=
    match x.1 with
    | .chive => s.suspendLane x.2.1
    | .dill => s.suspendDill x.2.1
  alone.foldl one (bs.foldl State.suspendBunch { s with sorrel := { s.sorrel with failedNow := [] } })

/-- Held copies and tables that no longer agree with their flit checks: validation finds it (Table 12.1). -/
def State.spoilHeld (s : State) (xs : List (Nat × BitVec 17)) : State :=
  xs.foldl (fun s x =>
    let copy (k : EntryCopy) : EntryCopy := if k.count == x.2 then { k with checks := spoil k.checks 0 } else k
    (s.setQueue x.1 fun y => { y with copies := y.copies.map copy }).setJob x.1 x.2 fun j => { j with tableChecks := spoil j.tableChecks 0 }) s

/-- Lines of the writeback buffer that no longer agree with a flit check (R448). -/
def State.spoilLines (s : State) (xs : List (Nat × Nat × Bool)) : State :=
  xs.foldl (fun s x => s.setLine x.1 x.2.1 fun l => { l with checks := spoil l.checks (if x.2.2 then 1 else 0) }) s

/-- What fails its flit check where it is held (Table 12.1). -/
def State.spoilAll (s : State) (c : TickChecks) : State := c.stagingFails.foldl State.stagingFails ((s.spoilHeld c.heldFails).spoilLines c.lineFails)

/-- The last cycles of a tick: flits lose their checks, issues end, lanes at fault are suspended, runs of the dirty log close, BASIL's checks and tests (R283, R333, R388 to R390). -/
def State.endTick (s : State) (c : TickChecks) : State :=
  (((s.spoilAll c).quietPath.endIssuesOfTick.suspendFailed c.bunchFails).closeRuns.basilCheckFails c.basilFails |> c.basilSigs.foldl State.compareOp).basilTests

/-- Units that repeat the work of the last tick go on (R381). -/
def State.resumeUnits (s : State) : State := { s with sorrel := { s.sorrel with repeating := [] } }

/-- The first cycles of a tick: changes take effect, resets begin (R327), statements are filled, operations that overrun end (R250, R315), and head words are read (R365). A Plan page that is due in the first tick of an epoch shows the plan and map of that epoch (R357), so it is formed at EPOCH_BOUNDARY. -/
def State.beginTick (s : State) : State :=
  let s := s.resumeUnits.applyChanges.beginResets.acceptBells.writeBack.sweepWindows.tryExchange.stepOverrun
  let s := s.fillStatements.checkQuiet.headReads.retryAsked.openProgress
  if s.thyme.epochDue then s else s.pageDue

/-- A write of Duern: every transaction but a read (R434). -/
def Txn.awaited (t : Txn) : Bool := t.op != .read

/-- Nothing of Duern is outstanding (R434): jobs, posted loads, writes, key-bus requests, staged records of rings, dirty-log runs. -/
def State.drained (s : State) : Bool :=
  s.fennel.jobs.isEmpty && s.admin.loads.isEmpty && !s.txns.any Txn.awaited && s.keyBus.reqs.isEmpty
  && (s.parsley.qs.all fun q => q.base == 0 || (q.staged.isEmpty && q.gap == 0))
  && s.domains.all fun d => d.mig.openRun.isNone && d.mig.closed.isEmpty

/-- GL_DRAIN_LIMIT ticks have begun since entry to Drain; there is none with target DRAIN (R435). -/
def State.drainLimit (s : State) : Bool :=
  let n := s.regN 0x120 % 2 ^ 32
  s.mode.target != 3 && n != 0 && s.mode.drainTick + n ≤ s.thyme.tick

/-- The drained point of Drain: the first tick boundary at which nothing is outstanding, or at which GL_DRAIN_LIMIT has ended the jobs (R434, R435); once reached it stays. -/
def State.noteDrained (s : State) : State :=
  let now := s.drained || (s.drainLimit && s.fennel.jobs.isEmpty && s.admin.loads.isEmpty)
  { s with mode := { s.mode with drainedPt := s.mode.drainedPt || now } }

/-- The mode that a pending QUIESCE or RESUME leads to, from this boundary on (R434, R436, R424); the beat accounts are 0 on entry to Service (R167). RESUME from Quiesce or Drain goes on with the plan in force: R48 has the initial plan on every entry to Service, R436 lets epochs and activations run through Quiesce, and of Drain the spec says neither (DESIGN CHOICE, notes/assumptions/118). -/
def State.enterMode (s : State) : State :=
  let set (m : Mode) : State := { s with mode := { s.mode with mode := m, target := 0, quiet := false, resume := false } }
  let back : State := { set .service with thyme := { s.thyme with accounts := [] } }
  match s.mode.mode, s.mode.target with
  | .service, 4 => set .quiesce
  | .degraded, 4 => set .quiesce
  | .quiesce, 2 => back.checkDegraded
  | .drain, _ => if s.mode.resume && !s.mode.fromProv then back.checkDegraded.releaseHolds else s.noteDrained
  | _, _ => s

/-! ## Epochs -/

/-- The activation event of one domain (R61). -/
def State.activation (s : State) (d : Nat) (rev : BitVec 32) : State :=
  let data := leBytes 8 s.thyme.epoch ++ leBytes 4 rev.toNat
  let s := s.event 0 0x20 2 d data
  if d = 0 then s else s.event d 0x20 2 d data

/-- The counter pair's failures are counted within one epoch (R292). -/
def Sage.clearFailures (g : Sage) : Sage := { g with ctrA := { g.ctrA with failures := 0 }, ctrB := { g.ctrB with failures := 0 } }

/-- Counts of the old epoch are cleared (R387, R389, R456, R461): not the third suspension of a unit whose test still runs, nor the test set that a Self-Test has a DILL lane run (R352). -/
def State.clearEpoch (s : State) : State :=
  let fresh (testing : Bool) (x : UnitState) : UnitState :=
    { x with suspensions := if x.health == .suspended && decide (3 ≤ x.suspensions) then 3 else 0
             tested := if testing || x.health == .suspended then x.tested else 0 }
  let testing (l : Nat) : Bool := s.sorrel.tests.any fun t => t.kind == 3 && t.index == l && t.started
  { s with sorrel := { s.sorrel with
      lanes := s.sorrel.lanes.map (fresh false), dill := s.sorrel.dill.zipIdx.map fun x => fresh (testing x.2) x.1
      basil := s.sorrel.basil.map (fresh false)
      ports := s.sorrel.ports.map fun p => { p with counts := 0, egress := 0 }
      kb := s.sorrel.kb.map fun k => { k with losses := 0, badFrames := 0 } } }

/-- The mapping of R63 and R226, and the exchange of R388. -/
def State.remap (s : State) : State :=
  let e := s.thyme.epoch
  let s := { s with thyme := { s.thyme with laneOf := s.mapFor e, dillOf := s.dillMapFor } }
  ({ s with sorrel := { s.sorrel with exchange := some (e % 14) } }).tryExchange

/-- Put in force the staged changes that are due (R59 to R62), and compile (R68). -/
def State.activatePlan (s : State) : State :=
  let e := s.thyme.epoch
  let due := s.thyme.staged.filter (·.epoch ≤ e)
  let plan := due.foldl (fun p c => match c.plan with
    | some r => planSet c.domain r p
    | none => p.filter (·.1 != c.domain)) s.thyme.plan
  let s := { s with thyme := { s.thyme with staged := s.thyme.staged.filter fun c => !decide (c.epoch ≤ e) } }
  let s := s.usePlan plan
  due.foldl (fun s c => s.activation c.domain ((c.plan.map (·.revision)).getD 0)) s

/-! ## Slice results -/

/-- Cycle 241 of this tick suspends a lane: its verdict failed, or a comparison leaves it in the minority (R389). -/
def State.toSuspend (s : State) (u : LaneKind) (l : Nat) (verdict : Bool) : State :=
  { s with sorrel := { s.sorrel with failedNow := s.sorrel.failedNow ++ [(u, l, verdict)] } }

/-- A test vector's result (R65, R387 to R389). -/
def State.testResult (s : State) (u : LaneKind) (l : Nat) (pass : Bool) : State :=
  match u with
  | .chive =>
    if !pass then s.retireLane l
    else
      let s := s.setLane l fun x => { x with tested := x.tested + 1 }
      match s.sorrel.lanes[l]? with
      | some x =>
        if x.health == .suspended && x.tested ≥ testSet .chive then
          if x.suspensions ≥ 3 then s.retireLane l else s.returnLane l
        else s
      | none => s
  | .dill =>
    if !pass then s.endDill l false
    else
      let s := s.setDillLane l fun x => { x with tested := x.tested + 1 }
      match s.sorrel.dill[l]? with
      | some x =>
        if x.health == .suspended && x.tested ≥ testSet .dill then s.endDill l (decide (x.suspensions < 3)) else s
      | none => s

/-- Read again what slice i of a job runs over (R184): a DILL slice of an encrypting 0x50 takes its associated data from the source and its ciphertext from the destination. -/
def State.readAgain (s : State) (j : Job) (i : Nat) : State :=
  match (if j.onDill i then j.cipherSpan i else none) with
  | some (a, b) =>
    let h := srcHead j.gen j.entry + eAad j.entry
    let r := j.bufRange i
    let s := if r.1 < h then s.readSource j i (r.1, min h r.2) else s
    (gather (j.dstFrags b) a (b - a) 0).foldl (fun s (x : Nat × Nat × Nat) =>
      s.issueAt (s.lowPos j.domain j.leadUnit) .read (s.payloadClass j.domain) j.domain x.1 x.2.1 []
        fun o => .payload j.queue j.count i (h + a + x.2.2 + o)) s
  | none => s.readSource j i (j.bufRange i)

/-- Restage a slice's payload from memory (R184). -/
def State.restage (s : State) (q : Nat) (c : BitVec 17) (i : Nat) : State :=
  match s.job? q c with
  | none => s
  | some j =>
    if (j.bufRange i).2 ≤ (j.bufRange i).1 then s
    else (s.setSlice q c i fun x => { x with state := .reading, asked := s.thyme.tick }).readAgain j i

/-- Issues of a slice have failed: it is retried next tick, from restaged payload when an input flit check failed or a retry failed again, or its job ends after three (R69, R183, R184). -/
def State.sliceFails (s : State) (i : Issue) (n : Nat) (flit : Bool) (votes : List (Nat × BitVec 64)) : State :=
  let again := ((s.job? i.queue i.count).bind (·.slice? i.slice)).any (·.retry)
  let s := s.setSlice i.queue i.count i.slice fun x =>
    { x with state := .staged, fails := x.fails + n, retry := true, eligible := s.thyme.tick + 1, pos := i.pos, votes := votes }
  let s := s.setJob i.queue i.count fun j => { j with retried := true }
  if ((s.job? i.queue i.count).bind (·.slice? i.slice)).any (·.fails ≥ 3) then s.endJob i.queue i.count .flitCheckFail
  else if flit || again then s.restage i.queue i.count i.slice
  else s

/-- The two-key rule that stands before the second pass: the last slice of the first pass of a decrypt under a pair (R173, R230). -/
def State.afterPass (s : State) (q : Nat) (c : BitVec 17) (i : Nat) : State :=
  match s.job? q c with
  | none => s
  | some j =>
    if j.selects && (j.passes.head?.any fun p => i + 1 == p.count) then
      let v := j.verdict
      if v.ok then s.setJob q c fun j => { j with pairBoth := v.both, pairOld := v.old } else s.endJob q c .authFail
    else s

/-- Slices still to deliver: the job keeps its state record until its last (R160). -/
def Job.leftToRun (j : Job) : Bool :=
  (List.range (passSlices j.passes)).any fun k => !j.deliveredIdx.contains k && (passAt j.passes 0 k).any fun p => p.1.first ≤ p.2.1

/-- A slice has delivered with a passing verdict: THYME counts it towards eligibility, and the last frees the record (R158, R160). -/
def State.countDelivered (s : State) (i : Issue) : State :=
  s.setJob i.queue i.count fun j =>
    let j := { j with lastPos := i.pos, deliveredIdx := if j.deliveredIdx.contains i.slice then j.deliveredIdx else j.deliveredIdx ++ [i.slice] }
    { j with hasRecord := j.hasRecord && j.leftToRun }

/-- The ciphertext of a CHIVE slice of an encrypting 0x50 passes to its DILL slice through the staging buffer (R181). -/
def State.toDill (s : State) (j : Job) (i : Nat) (out : Bytes) : State :=
  match passAt j.passes 0 i with
  | some (p, k, base) =>
    if eOp j.entry == 0x50 && base == 0 && p.unit == .chive then
      s.setSlice j.queue j.count (p.count + k) fun y =>
        if y.state == .staged then { y with buf := y.buf.take (eAad j.entry - (p.range k).1) ++ out } else y
    else s
  | none => s

/-- A CHIVE slice's result is released: its share of the job's record, and its output in the lane's output buffer, or in the staging buffer for XTS (R19, R153, R160, R169, R178). A slice issued again at egress runs from the record of its first release, and leaves the record as it is (R183, R374). Of a lane's two output buffers it takes the one of the tick's parity: R151 says no more than that they are used alternately (DESIGN CHOICE, notes/assumptions/127). -/
def State.releaseChive (s : State) (i : Issue) (j : Job) (x : Slice) : State :=
  let r := ({ j with jrec := x.inputs.getD j.jrec } : Job).runChive i.keys i.slice x.buf
  let s := s.setJob j.queue j.count fun y => { y with
    jrec := if x.inputs.isSome then y.jrec else r.jrec, made := r.made, madeOld := r.madeOld }
  let s := (s.setSlice j.queue j.count i.slice fun y => { y with
    state := .delivered, inputs := some (y.inputs.getD j.jrec), out := [], fault := none }).countDelivered i
  if eOp j.entry == 0x18 || eOp j.entry == 0x19 then
    s.setSlice j.queue j.count i.slice fun y => { y with out := r.out, fault := r.fault }
  else
  let s := s.toDill j i.slice r.out
  if (passAt j.passes 0 i.slice).any (·.1.writes) && !r.out.isEmpty then
    { s with thyme := { s.thyme with outs := s.thyme.outs ++ [
      { lane := i.lane, second := i.gen.getLsbD 0, queue := j.queue, count := j.count, slice := i.slice,
        held := j.holdsLast i.slice, zeroed := false, data := r.out }] } }
  else (s.dropSlice j.queue j.count i.slice).afterPass j.queue j.count i.slice

/-- A DILL slice's result is released (R225, R232). -/
def State.releaseDill (s : State) (i : Issue) (j : Job) (x : Slice) : State :=
  let s := (s.dillDeliver j i.keys i.slice x.buf).countDelivered i
  (s.dropSlice j.queue j.count i.slice).afterPass j.queue j.count i.slice

/-- A slice's result is released. -/
def State.release (s : State) (i : Issue) : State :=
  match s.job? i.queue i.count with
  | none => s
  | some j =>
    match j.slice? i.slice with
    | none => s
    | some x => if i.unit == .dill then s.releaseDill i j x else s.releaseChive i j x

/-- s without the issues of a slice in a tick. -/
def State.endIssues (s : State) (i : Issue) : State :=
  { s with thyme := { s.thyme with issues := s.thyme.issues.filter fun x =>
      !(x.queue == i.queue && x.count == i.count && x.slice == i.slice && x.gen == i.gen && x.role != .test) } }

/-- A passing result of a retry that referees: its signature names the odd lane of the first two (R385). -/
def State.referee (s : State) (i : Issue) (sig : BitVec 64) (votes : List (Nat × BitVec 64)) : State :=
  if votes.any fun v => v.2 == sig then
    let s := (votes.filter fun v => v.2 != sig).foldl (fun s v => s.toSuspend i.unit v.1 false) s
    s.release i
  else
    let s := votes.foldl (fun s v => s.toSuspend i.unit v.1 false) s
    s.sliceFails i 1 false []

/-- A passing result of a verified slice that ran alone, on a reserve lane: its signature stays for the next issue, which it must agree with before release (R56, notes/assumptions/34). -/
def State.awaitSecond (s : State) (i : Issue) (sig : BitVec 64) : State :=
  s.setSlice i.queue i.count i.slice fun x =>
    { x with state := .staged, retry := true, eligible := s.thyme.tick + 1, pos := i.pos, votes := [(i.lane, sig)] }

/-- A passing result, agreed when it has a partner: released, judged as a referee, or kept until a verified domain's second run. -/
def State.passes (s : State) (i : Issue) (sig : BitVec 64) : State :=
  match ((s.job? i.queue i.count).bind (·.slice? i.slice)).map (·.votes) with
  | some (v :: vs) => s.referee i sig (v :: vs)
  | _ => if i.partner.isNone && (s.planOf i.domain).any (·.verified) then s.awaitSecond i sig else s.release i

/-- One issue alone (R182). -/
def State.resolveOne (s : State) (i : Issue) (v : Verdict) (sig : BitVec 64) : State :=
  let s := s.endIssues i
  match v with
  | .pass => s.passes i sig
  | .fail => (s.toSuspend i.unit i.lane true).sliceFails i 1 false []
  | .failFlit => (s.toSuspend i.unit i.lane true).sliceFails i 1 true []

/-- Two issues of one slice: a primary a and its shadow b, or the members of a verified pair (R56, R383, R385). Two passing issues are compared. When the verdict of one fails, its outputs are void (R183): a signature that a release still has to agree with, of a verified domain or of a primary, stays for the retry (notes/assumptions/124). -/
def State.resolveTwo (s : State) (a b : Issue) (va vb : Verdict) (sa sb : BitVec 64) : State :=
  let s := s.endIssues a
  let s := if va == .pass then s else s.toSuspend a.unit a.lane true
  let s := if vb == .pass then s else s.toSuspend b.unit b.lane true
  let verified := (s.planOf a.domain).any (·.verified)
  let flit := va == Verdict.failFlit || vb == Verdict.failFlit
  match va == .pass, vb == .pass with
  | true, true =>
    if sa == sb then s.passes a sa
    else
      let old := (((s.job? a.queue a.count).bind (·.slice? a.slice)).map (·.votes)).getD []
      let s := old.foldl (fun s v => s.toSuspend a.unit v.1 false) s
      s.sliceFails a 2 false [(a.lane, sa), (b.lane, sb)]
  | true, false => s.sliceFails a 1 flit [(a.lane, sa)]
  | false, true => s.sliceFails a 1 flit (if verified then [(b.lane, sb)] else [])
  | false, false => s.sliceFails a 2 flit []

/-- SLICE_RESULT (R182): a result with the generation of an outstanding issue; any other is discarded (R21). A result that has a partner waits for it (R383). -/
def execSliceResult (kind : LaneKind) (lane : Nat) (gen : BitVec 12) (verdict : Verdict) (signature : BitVec 64) (s : State) : Ans :=
  onSome (s.thyme.issues.find? fun i => i.unit == kind && i.lane == lane && i.gen == gen && i.delivered.isNone) s fun i =>
    if i.role == .test then
      ({ s with thyme := { s.thyme with issues := s.thyme.issues.filter (· != i) } }).testResult kind lane (verdict == Verdict.pass)
    else
      let s := s.traceIssue (some verdict) i
      match i.partner with
      | none => (s.resolveOne i verdict signature).flow
      | some p =>
        match s.thyme.issues.find? fun x => x.unit == kind && x.lane == p && x.gen == gen && x.slice == i.slice
            && x.queue == i.queue && x.count == i.count with
        | none => (s.resolveOne i verdict signature).flow
        | some b =>
          match b.delivered with
          | none => { s with thyme := { s.thyme with issues := s.thyme.issues.map fun x =>
              if x == i then { x with delivered := some (verdict, signature) } else x } }
          | some (vb, sb) =>
            (if i.role == .shadow then s.resolveTwo b i vb verdict sb signature
             else s.resolveTwo i b verdict vb signature sb).flow

end Sys2Proof.Machine
end

