-- ==== Sys2Proof/Machine/Symmetric.lean ====
section
/-! DEFINITION. The symmetric jobs (Table 4.6, 0x10 to 0x50): the end of each operation once its last slice has delivered: output tags and MINT IVs where Table 4.9 puts them, comparisons (R169, R170, R229), digests and MACs (R227, R228), wraps and unwraps (R207, R208). -/

namespace Sys2Proof.Machine

/-- Every slice that the job has on either engine has delivered. -/
def Job.allDelivered (j : Job) : Bool :=
  (List.range (passSlices j.passes)).all fun i =>
    j.deliveredIdx.contains i || (passAt j.passes 0 i).any fun p => p.2.1 < p.1.first

/-- The operation op of the job named by q and c is at its end; sub picks a form of it. -/
def State.atEnd (s : State) (q : Nat) (c : BitVec 17) (op : Nat) (sub : Nat → Bool) : Option Job :=
  (s.job? q c).filter fun j => j.phase == .slices && eOp j.entry == op && sub (eSub j.entry) && j.allDelivered

/-- Every form. -/
def anySub (_ : Nat) : Bool := true

/-- Write a result of the job at an address of its own: aux block fields (Table 4.9). -/
def State.writeAux (s : State) (j : Job) (off : Nat) (data : Bytes) : State :=
  s.issue .write .metadata j.domain (eAux j.entry + off) data.length data fun _ => .result j.queue j.count

/-- Put an output tag where Table 4.9 places it. -/
def State.placeTag (s : State) (j : Job) (tag : Bytes) : State :=
  match j.gen with
  | .a => s.writeDst j .metadata (if eOp j.entry == 0x41 then 0 else eLen j.entry) tag fun _ => .result j.queue j.count
  | .b => s.writeAux j 16 tag
  | .c =>
    if tag.length ≤ 16 then s.setJob j.queue j.count fun j => { j with outTag := tag }
    else s.writeAux j 16 tag

/-- A MINT IV of a Gen B job goes to the aux block too, when there is one (Table 4.9). -/
def State.placeIv (s : State) (j : Job) : State :=
  match j.gen, j.iv with
  | .b, some v => if eAux j.entry = 0 then s else s.writeAux j 0 (padTo 16 v)
  | _, _ => s

/-- End of an operation without a tag; an XTS job with a data unit whose check has failed ends at that unit's write-back (R178). -/
def State.finishPlain (s : State) (j : Job) : State :=
  if j.slices.any fun x => x.fault.isSome then s else (s.endJob j.queue j.count .ok).flow

/-- End of an operation that makes a tag or MAC (R126): what its last slice made. -/
def State.finishTag (s : State) (j : Job) : State :=
  (((s.placeTag j (j.made.take (macLen j.entry))).placeIv j).endJob j.queue j.count .ok).flow

/-- End of a verify: the two-key rule over one or two comparisons (R149, R205, R229). -/
def State.finishVerify (s : State) (j : Job) : State :=
  let v := j.verdict
  let s := s.setJob j.queue j.count fun j => { j with pairBoth := v.both, pairOld := v.old }
  (s.endJob j.queue j.count (if v.ok then .ok else .authFail)).flow

/-- The output buffer whose write-back the comparison decides, when the job has one (R169). -/
def State.heldOut (s : State) (j : Job) : Option LaneOut := s.thyme.outs.find? fun o => o.queue == j.queue && o.count == j.count && o.held

/-- The comparison is judged: the buffer that waited for it is written back in the next tick, with its plaintext or with zeros (R169). -/
def State.judgeOut (s : State) (j : Job) (ok : Bool) : State :=
  { s with thyme := { s.thyme with outs := s.thyme.outs.map fun o =>
      if o.queue == j.queue && o.count == j.count && o.held then
        { o with held := false, zeroed := !ok, data := if ok then o.data else Machine.zeros o.data.length }
      else o } }

/-- The outcome of an authenticated decrypt: its comparison's, or the selection that stands before its second pass (R173). -/
def Job.outcome (j : Job) : Chosen := if j.selects then { ok := true, both := j.pairBoth, old := j.pairOld } else j.verdict

/-- End of an authenticated decrypt (R169, R170): the last slice's write-back carries its plaintext, or zeros, and zero fill covers what lies before it. -/
def State.finishDecrypt (s : State) (j : Job) : State :=
  let v := j.outcome
  let t := s.judgeOut j v.ok
  if v.ok then ((t.setJob j.queue j.count fun j => { j with pairBoth := v.both, pairOld := v.old }).endJob j.queue j.count .ok).flow
  else (t.endJobZ j.queue j.count .authFail (match s.heldOut j with
    | some o => (j.outSpan o.slice).1
    | none => eLen j.entry)).flow

/-- End of a digest (R228). -/
def State.finishHash (s : State) (j : Job) : State :=
  ((s.writeDst j .metadata 0 j.made fun _ => .result j.queue j.count).endJob j.queue j.count .ok).flow

/-- End of a wrap (R207). -/
def State.finishWrap (s : State) (j : Job) : State :=
  let w := j.made
  let s := s.setJob j.queue j.count fun j => { j with bytesDone := w.length }
  ((s.writeDst j (s.payloadClass j.domain) 0 w fun _ => .result j.queue j.count).endJob j.queue j.count .ok).flow

/-- The unwrapped key suits the target's record (R208). -/
def unwrapFits (r : KeyRec) (m : Bytes) : Bool := klenOk r.alg m.length && !xtsWeak r.alg m

/-- A key is ready beside its target slot (R208, R260). -/
def State.readyKey (s : State) (d h : Nat) (m : Bytes) : State := s.setSlot d h fun x => { x with newKey := some m }

/-- The target slot can take an unwrapped key: it is there and not revoked (R208). -/
def State.targetOpen (s : State) (d h : Nat) : Bool := (s.slot? d h).any fun x => !x.revoked && x.record.isSome

/-- What an unwrap gives: the material under the two-key rule over the integrity checks, and the rule's outcome (R208, Table 6.7). -/
def Job.unwrapped (j : Job) : Option Bytes × Chosen :=
  let newer := if j.memberLives false false then kwOpen (eSub j.entry) j.made else none
  let older := if (j.olderKey false).isSome && j.memberLives false true then kwOpen (eSub j.entry) j.madeOld else none
  (newer.or older, twoKey newer.isSome older.isSome)

/-- End of an unwrap (R208): the two-key rule, then the length. -/
def State.finishUnwrap (s : State) (j : Job) : State :=
  let q := j.queue
  let c := j.count
  let v := j.unwrapped.2
  match j.unwrapped.1, j.mainKey true with
  | some m, some h =>
    if !s.targetOpen j.domain h || !(s.recOf j.domain h).any (fun r => unwrapFits r m) then (s.endJob q c .keyDenied).flow
    else
      let s := s.setJob q c fun j => { j with pairBoth := v.both, pairOld := v.old }
      ((s.readyKey j.domain h m).endJob q c .ok).flow
  | _, _ => (s.endJob q c .authFail).flow

/-! ## One meaning for each command -/

def execAesGcmEncrypt (q : Nat) (c : BitVec 17) (s : State) : Ans := onSome (s.atEnd q c 0x10 anySub) s s.finishTag
def execAesGcmDecrypt (q : Nat) (c : BitVec 17) (s : State) : Ans := onSome (s.atEnd q c 0x11 anySub) s s.finishDecrypt
def execGmacGenerate (q : Nat) (c : BitVec 17) (s : State) : Ans := onSome (s.atEnd q c 0x12 (!bit · 0)) s s.finishTag
def execGmacVerify (q : Nat) (c : BitVec 17) (s : State) : Ans := onSome (s.atEnd q c 0x12 (bit · 0)) s s.finishVerify
def execAesCcmEncrypt (q : Nat) (c : BitVec 17) (s : State) : Ans := onSome (s.atEnd q c 0x14 anySub) s s.finishTag
def execAesCcmDecrypt (q : Nat) (c : BitVec 17) (s : State) : Ans := onSome (s.atEnd q c 0x15 anySub) s s.finishDecrypt
def execAesXtsEncrypt (q : Nat) (c : BitVec 17) (s : State) : Ans := onSome (s.atEnd q c 0x18 anySub) s s.finishPlain
def execAesXtsDecrypt (q : Nat) (c : BitVec 17) (s : State) : Ans := onSome (s.atEnd q c 0x19 anySub) s s.finishPlain
def execAesCbcEncrypt (q : Nat) (c : BitVec 17) (s : State) : Ans := onSome (s.atEnd q c 0x1C anySub) s s.finishPlain
def execAesCbcDecrypt (q : Nat) (c : BitVec 17) (s : State) : Ans := onSome (s.atEnd q c 0x1D anySub) s s.finishPlain
def execAesCtr (q : Nat) (c : BitVec 17) (s : State) : Ans := onSome (s.atEnd q c 0x1E anySub) s s.finishPlain
def execAesSivEncrypt (q : Nat) (c : BitVec 17) (s : State) : Ans := onSome (s.atEnd q c 0x20 anySub) s s.finishTag
def execAesSivDecrypt (q : Nat) (c : BitVec 17) (s : State) : Ans := onSome (s.atEnd q c 0x21 anySub) s s.finishDecrypt
def execAesCmacGenerate (q : Nat) (c : BitVec 17) (s : State) : Ans := onSome (s.atEnd q c 0x22 (!bit · 0)) s s.finishTag
def execAesCmacVerify (q : Nat) (c : BitVec 17) (s : State) : Ans := onSome (s.atEnd q c 0x22 (bit · 0)) s s.finishVerify
def execKeyWrap (q : Nat) (c : BitVec 17) (s : State) : Ans := onSome (s.atEnd q c 0x24 anySub) s s.finishWrap
def execKeyUnwrap (q : Nat) (c : BitVec 17) (s : State) : Ans := onSome (s.atEnd q c 0x25 anySub) s s.finishUnwrap
def execChacha20Poly1305Encrypt (q : Nat) (c : BitVec 17) (s : State) : Ans := onSome (s.atEnd q c 0x30 anySub) s s.finishTag
def execChacha20Poly1305Decrypt (q : Nat) (c : BitVec 17) (s : State) : Ans :=
  onSome (s.atEnd q c 0x31 anySub) s s.finishDecrypt
def execHash (q : Nat) (c : BitVec 17) (s : State) : Ans := onSome (s.atEnd q c 0x40 anySub) s s.finishHash
def execHmacGenerate (q : Nat) (c : BitVec 17) (s : State) : Ans := onSome (s.atEnd q c 0x41 anySub) s s.finishTag
def execHmacVerify (q : Nat) (c : BitVec 17) (s : State) : Ans := onSome (s.atEnd q c 0x42 anySub) s s.finishVerify
def execEncryptThenMac (q : Nat) (c : BitVec 17) (s : State) : Ans := onSome (s.atEnd q c 0x50 (!bit · 7)) s s.finishTag
def execVerifyThenDecrypt (q : Nat) (c : BitVec 17) (s : State) : Ans := onSome (s.atEnd q c 0x50 (bit · 7)) s s.finishDecrypt

end Sys2Proof.Machine
end

