-- ==== Sys2Proof/Machine/Basil.lean ====
section
/-! DEFINITION. The commands of BASIL: the public-key operations (R249, R253 to R273), their end (R249, R260, R285), further budgets (R267), time statements (R282, R314, R315), and the microcode packages (R274 to R281, R379). -/

namespace Sys2Proof.Machine

/-! ## Operations -/

/-- The operation of job (q, c), when the job is of sub-operation sub of op and its delivering step has come (R249): sequencer, operation and job. -/
def State.opOf (s : State) (q : Nat) (c : BitVec 17) (op sub : Nat) : Option (Nat × Op × Job) :=
  match (s.job? q c).filter fun j => j.phase == .basil && eOp j.entry == op && eSub j.entry == sub with
  | none => none
  | some j => (List.range 16).findSome? fun i => (nth s.basil.seqs i none).bind fun o =>
      if o.queue == q && o.count == c && !o.isShadow && o.result.isNone && o.start + o.dur ≤ s.thyme.tick + 2
      then some (i, o, j) else none

/-- What a sub-operation computes becomes the operation's result; a failed check before release is a failed check of R283, and a budget without an accepted candidate leaves the operation running (R267). -/
def State.deliverPk (s : State) (x : Nat × Op × Job) : State :=
  match s.pkRun x.2.2 x.2.1.draw x.2.1.budgets with
  | none => s
  | some r =>
    if r.bad then (s.failOp x.1).suspendSeq x.1
    else s.setOp x.1 (some { x.2.1 with result := some (r.status, r.result), secret := r.secret })

/-- Install the curve of a load that has passed (R273). -/
def State.installCurve (s : State) (j : Job) : State :=
  match parseCurve (sub j.image 0 (eLen j.entry)) with
  | some (e, c) => { s with basil := { s.basil with curves := assocSet s.basil.curves e c } }
  | none => s

/-- Put a shared secret beside its target slot, or KEY_DENIED (R260). -/
def State.storeSecret (s : State) (j : Job) (secret : Option Bytes) : State × Bool :=
  match secret with
  | none => (s, true)
  | some k =>
    match j.mainKey true with
    | none => (s, false)
    | some h =>
      match (s.recOf j.domain h).bind fun r => secretFor r k with
      | some m => if s.targetOpen j.domain h then (s.readyKey j.domain h m, true) else (s, false)
      | none => (s, false)

/-- Write an operation's result and end its job. -/
def State.endPk (s : State) (j : Job) (o : Op) (st : Status) (res : Bytes) : State :=
  let (s, kept) := s.storeSecret j o.secret
  let (st, res) := if kept then (st, res) else (Status.keyDenied, [])
  let s := if st == .ok && eOp j.entry == 0x60 && eSub j.entry == 0x40 then s.installCurve j else s
  let s := s.writeDst j (s.payloadClass j.domain) 0 res fun _ => .result j.queue j.count
  (s.setJob j.queue j.count fun j => { j with bytesDone := res.length }).endJob j.queue j.count st

/-- BASIL_OPERATION_END (R249): the last tick of the operation on a sequencer: its result is written, the sequencer is cleared (R285), a secret stored (R260) and a draining bank looked at (R279). -/
def execBasilOperationEnd (seq : Nat) (s : State) : Ans :=
  onSome ((nth s.basil.seqs seq none).bind fun o =>
      if o.isShadow || s.thyme.tick + 1 < o.start + o.dur then none else o.result.map fun r => (o, r)) s fun x =>
    let s := s.clearOp seq x.1
    let s := match s.job? x.1.queue x.1.count with
      | some j => s.endPk j x.1 x.2.1 x.2.2
      | none => s
    (s.banksDrained.checkQuiet).flow

/-- A budget ends with no accepted candidate: a further budget, with its event, or ABORTED after four (R267). -/
def execCandidateBudgetExhausted (seq : Nat) (s : State) : Ans :=
  onSome ((nth s.basil.seqs seq none).bind fun o =>
      if o.isShadow || o.result.isSome || s.thyme.tick + 2 < o.start + o.dur then none
      else ((s.job? o.queue o.count).filter fun j => eOp j.entry == 0x60 && eSub j.entry == 0x39
          && (s.pkRun j o.draw o.budgets).isNone).map fun j => (o, j)) s fun x =>
    let o := x.1
    if o.budgets ≥ 3 then s.setOp seq (some { o with result := some (.aborted, []) })
    else
      let (n, t) := dsaBudget (ppCurve (x.2.aux.getD []))
      let grow (o : Op) : Op := { o with budgets := o.budgets + 1, dur := o.dur + n * t }
      let s := s.setOp seq (some (grow o))
      let s := match o.partner with
        | some p => s.setOp p ((nth s.basil.seqs p none).map grow)
        | none => s
      s.ucodeEvent o.bankB 5 (leBytes 2 o.domain ++ leBytes 2 o.queue)

/-! ## One meaning for each sub-operation -/

def execRsaPrivate (q : Nat) (c : BitVec 17) (s : State) : Ans := onSome (s.opOf q c 0x60 0x01) s s.deliverPk
def execRsaPublic (q : Nat) (c : BitVec 17) (s : State) : Ans := onSome (s.opOf q c 0x60 0x02) s s.deliverPk
def execEcdsaSign (q : Nat) (c : BitVec 17) (s : State) : Ans := onSome (s.opOf q c 0x60 0x10) s s.deliverPk
def execEcdsaVerify (q : Nat) (c : BitVec 17) (s : State) : Ans := onSome (s.opOf q c 0x60 0x11) s s.deliverPk
def execEcdh (q : Nat) (c : BitVec 17) (s : State) : Ans := onSome (s.opOf q c 0x60 0x12) s s.deliverPk
def execKeyGeneration (q : Nat) (c : BitVec 17) (s : State) : Ans := onSome (s.opOf q c 0x60 0x13) s s.deliverPk
def execEddsaSign (q : Nat) (c : BitVec 17) (s : State) : Ans := onSome (s.opOf q c 0x60 0x20) s s.deliverPk
def execEddsaVerify (q : Nat) (c : BitVec 17) (s : State) : Ans := onSome (s.opOf q c 0x60 0x21) s s.deliverPk
def execX25519 (q : Nat) (c : BitVec 17) (s : State) : Ans := onSome (s.opOf q c 0x60 0x24) s s.deliverPk
def execMlKemKeyGeneration (q : Nat) (c : BitVec 17) (s : State) : Ans := onSome (s.opOf q c 0x60 0x30) s s.deliverPk
def execMlKemEncapsulation (q : Nat) (c : BitVec 17) (s : State) : Ans := onSome (s.opOf q c 0x60 0x31) s s.deliverPk
def execMlKemDecapsulation (q : Nat) (c : BitVec 17) (s : State) : Ans := onSome (s.opOf q c 0x60 0x32) s s.deliverPk
def execMlDsaKeyGeneration (q : Nat) (c : BitVec 17) (s : State) : Ans := onSome (s.opOf q c 0x60 0x38) s s.deliverPk
def execMlDsaSign (q : Nat) (c : BitVec 17) (s : State) : Ans := onSome (s.opOf q c 0x60 0x39) s s.deliverPk
def execMlDsaVerify (q : Nat) (c : BitVec 17) (s : State) : Ans := onSome (s.opOf q c 0x60 0x3A) s s.deliverPk
def execCurveLoad (q : Nat) (c : BitVec 17) (s : State) : Ans := onSome (s.opOf q c 0x60 0x40) s s.deliverPk

/-- The signing of a 0x70 delivers (R282, R314, R315): the signed statement, TIME_UNTRUSTED when its untrusted flag is set. -/
def execTimeStatementRequest (q : Nat) (c : BitVec 17) (s : State) : Ans :=
  onSome ((s.opOf q c 0x70 0).bind fun x => x.2.2.pk.map fun stmt => (x, stmt)) s fun y =>
    let o := y.1.2.1
    let r := match signStatement (s.lovage.attKey.getD 0) y.2 o.draw with
      | some b => (if (byteAt y.2 6).getLsbD 0 then Status.timeUntrusted else .ok, b)
      | none => (.aborted, [])
    s.setOp y.1.1 (some { o with result := some r } : Option Op)

/-! ## Packages -/

/-- Read a package into a bank: the whole of a download, or at first the header of a reload (R277, R281). -/
def State.startVerify (s : State) (isB : Bool) (admin : Option (BitVec 17)) (active : Bool) (base len : Nat) : State :=
  let s := s.setBank isB fun _ => { Bank.none with state := .verifying }
  let v : Verify := { bankB := isB, active := active, admin := admin, base := base, len := len, bytes := Machine.zeros len, got := 0, failed := none }
  let s := { s with basil := { s.basil with verify := s.basil.verify ++ [v] } }
  s.issue .read .metadata 0 base len [] fun _ => .package isB

def State.setVerify (s : State) (isB : Bool) (f : Verify → Verify) : State :=
  { s with basil := { s.basil with verify := s.basil.verify.map fun v => if v.bankB == isB then f v else v } }

/-- Bytes of a package have arrived at an address; when the header of a reload has, the rest is read by its pkg_len (R281). -/
def State.packageBytes (s : State) (isB : Bool) (iova : Nat) (data : Bytes) : State :=
  let s := s.setVerify isB fun v => { v with bytes := putAt v.bytes (iova - v.base) data, got := v.got + data.length }
  if s.packageAsked isB then s
  else match s.basil.verify.find? (·.bankB == isB) with
    | none => s
    | some v =>
      let n := fieldLe v.bytes 4 4
      if v.admin.isSome || v.len != 256 || n ≤ 256 || n > 139891 then s
      else
        let s := s.setVerify isB fun v => { v with len := n, bytes := padTo n v.bytes }
        s.issue .read .metadata 0 (v.base + 256) (n - 256) [] fun _ => .package isB

/-- A read of a package has failed. -/
def State.packageFails (s : State) (isB : Bool) (st : Status) : State :=
  (s.killTxns fun t => t.purpose == .package isB).setVerify isB fun v => { v with failed := some (v.failed.getD st) }

/-- A signing key's digest in OTP agrees with the carried public key, and it is not revoked (step 6 of Table 8.11). -/
def State.packageKeyOk (s : State) (mlDsa : Bool) (id : Nat) (pk : Bytes) : Bool :=
  id < 4 && !s.lovage.keyRevoked mlDsa id && !s.lovage.digestBlank mlDsa id && s.lovage.keyDigest mlDsa id == some (digest 0x03 0 pk)

/-- ECDSA P-384 with SHA-384 under an uncompressed public key (step 7). -/
def packageEcdsaOk (pk signed sig : Bytes) : Bool :=
  byteAt pk 0 == 4 && match pointOk curveP384 (pk.drop 1) with
    | some q => ecdsaCheck curveP384 q (beNat (sig.take 48)) (beNat (sig.drop 48)) (digest 0x03 0 signed)
    | none => false

/-- "targal-ucode" in ASCII (R276). -/
def ucodeContext : Bytes := [0x74, 0x61, 0x72, 0x67, 0x61, 0x6C, 0x2D, 0x75, 0x63, 0x6F, 0x64, 0x65]

/-- ML-DSA-87 under the context string (step 8). -/
def packageMlDsaOk (pk signed sig : Bytes) : Bool :=
  mlDsaVerify 0x33 pk ([0, 12] ++ ucodeContext ++ signed) sig

/-- The checks of Table 8.11 in order; len is the length that the reader was given. -/
def State.packageCheck (s : State) (p : Bytes) (len : Nat) : Option Status :=
  let n := fieldLe p 20 4
  let svn := (byteAt p 8).toNat
  let kind := (byteAt p 9).toNat
  let signed := p.take (4096 + n)
  let ec := sub p 256 97
  let pq := sub p 384 2592
  let unsignedOk := s.lovage.life == .test || s.lovage.life == .develop
  if fieldLe p 0 4 != 0x00080001 || kind > 1 || svn > 64 || n % 16 != 0 || n < 16 || n > 131072
      || fieldLe p 4 4 != n + (if kind = 1 then 8819 else 4096) || fieldLe p 4 4 != len
      || !allZero (sub p 10 2) || !allZero (sub p 26 6) || !allZero (sub p 80 176) then some .malformed
  else if fieldLe p 16 4 != Config.hwId.toNat then some .unsupported
  else if kind = 0 && !unsignedOk then some .unsupported
  else if kind = 1 && svn < s.lovage.antiRollback then some .unsupported
  else if digest 0x03 0 (sub p 4096 n) != sub p 32 48 then some .authFail
  else if kind = 0 then none
  else if !s.packageKeyOk false (byteAt p 24).toNat ec || !s.packageKeyOk true (byteAt p 25).toNat pq then some .authFail
  else if !packageEcdsaOk ec signed (sub p (4096 + n) 96) then some .authFail
  else if !packageMlDsaOk pq signed (sub p (4192 + n) 4627) then some .authFail
  else none

/-- No bank is ACTIVE and none reloads: every public-key and time job whose operation does not run ends UNSUPPORTED (R274, R379, notes/assumptions/117). -/
def State.endUnbanked (s : State) : State :=
  let runs (j : Job) : Bool := s.basil.seqs.any fun o => o.any fun o => o.queue == j.queue && o.count == j.count
  let s := (s.fennel.jobs.filter fun j => j.status.isNone && (eOp j.entry == 0x60 || eOp j.entry == 0x70) && !runs j).foldl
    (fun s j => s.endJob j.queue j.count .unsupported) s
  { s with basil := { s.basil with waiting := [] } }

/-- After the reloads: the bank wanted becomes ACTIVE, or the other with event code 2, or none with code 3, failed naming the bank that failed last (R281, R379). -/
def State.reloadEnd (s : State) (wanted : Bool) (failed : Option Bool) : State :=
  let s := if s.basil.bankA.state == .active || s.basil.bankB.state == .active then s
    else if (s.basil.bank wanted).state == .standby then s.activateBank wanted
    else if (s.basil.bank (!wanted)).state == .standby && s.svnOk (s.basil.bank (!wanted)) then
      (s.activateBank (!wanted)).ucodeEvent (!wanted) 2 []
    else match failed with
      | some b => (s.ucodeEvent b 3 []).endUnbanked
      | none => s
  { s with mode := { s.mode with steps := { s.mode.steps with s6 := true } } }

/-- Bank that BS_CFG selects at start-up. -/
def State.bootBank (s : State) : Bool := (s.reg 0x60000).getLsbD 0

/-- The bank that a reload wants ACTIVE: the selected one at start-up, the reloaded one later. -/
def State.wantedBank (s : State) (isB : Bool) : Bool := if s.mode.steps.s6 then isB else s.bootBank

/-- A package's verification ends with a status, or passes (R277, R281). -/
def State.verified (s : State) (v : Verify) (r : Option Status) : State :=
  let s := { s with basil := { s.basil with verify := s.basil.verify.filter fun x => !(x.bankB == v.bankB) } }
  let s := s.setBank v.bankB fun _ => match r with
    | some _ => .none
    | none => { state := .standby, svn := (byteAt v.bytes 8).toNat, sigKind := (byteAt v.bytes 9).toNat,
                build := BitVec.ofNat 32 (fieldLe v.bytes 12 4) }
  match v.admin with
  | some c =>
    let b := s.basil.bank v.bankB
    let s := s.setJob 0 c fun j => { j with
      bytesDone := v.got,
      result0 := if r.isNone then BitVec.ofNat 64 (b.svn + 256 * b.build.toNat) else 0 }
    (s.endJob 0 c (r.getD .ok)).flow
  | none =>
    if s.reloading then s else s.reloadEnd (s.wantedBank v.bankB) (if r.isSome then some v.bankB else none)

/-- The oldest package that is read whole or has failed. -/
def State.verifyReady (s : State) : Option Verify := s.basil.verify.find? fun v => v.failed.isSome || !s.packageAsked v.bankB

/-- MICROCODE_VERIFICATION_END (R277): the verification of a package that has been read ends. -/
def execMicrocodeVerificationEnd (s : State) : Ans :=
  onSome (s.verifyReady.filter fun v => v.failed.isSome || s.verifierRuns (.bank v.bankB)) s fun v =>
    s.verified v (v.failed.or (s.packageCheck v.bytes v.len))

/-- Begin the reload of a bank whose registers name a package. -/
def State.reloadBank (s : State) (isB active : Bool) : State :=
  if s.bankAddr isB = 0 then s else s.startVerify isB none active (s.bankAddr isB) 256

/-- MICROCODE_RELOAD (R281, R481): step 6 of start-up begins once step 4 has ended and BS_CFG is locked. -/
def execMicrocodeReload (s : State) : Ans :=
  guarded (s.mode.mode == .startup && s.mode.fail == 0 && s.mode.steps.s4 && !s.mode.steps.s6 && !s.reloading
      && (s.reg 0x60000).getLsbD 31) s fun s =>
    let s := (s.reloadBank false false).reloadBank true false
    (if s.reloading then s else s.reloadEnd s.bootBank none).sendAll

/-- One uncorrectable word more in SN_UE_COUNT (Table 16.12). -/
def State.countUe (s : State) : State := { s with sorrel := { s.sorrel with ue := satInc s.sorrel.ue } }

/-- MICROCODE_BANK_UNCORRECTABLE (R379): an ACTIVE or STANDBY bank is emptied and reloaded. The operations that read the word fail their check at the end of the step, with TICK_BOUNDARY (notes/assumptions/117). -/
def execMicrocodeBankUncorrectable (bankB : Bool) (s : State) : Ans :=
  guarded (s.mainRuns && ((s.basil.bank bankB).state == .active || (s.basil.bank bankB).state == .standby)) s fun s =>
    let active := (s.basil.bank bankB).state == .active
    let s := s.countUe.setBank bankB fun _ => .none
    let s := s.reloadBank bankB active
    (if s.reloading then s else s.reloadEnd bankB (some bankB)).flow

end Sys2Proof.Machine
end

