-- ==== Sys2Proof/Machine/TimeForm.lean ====
section
/-! DEFINITION. The forms of Q1's blocks and messages: control blocks (Table 9.5), PTP messages (R302, R305, R306), NTP and NTS messages (R307, Table 9.8). The layouts of IEEE 1588, RFC 5905 and RFC 8915 that the spec names and does not repeat are notes/assumptions/37. -/

namespace Sys2Proof.Machine

/-! ## Control blocks -/

/-- A control block's cmd is assigned, its fields are in range and its reserved bytes zero (R299). -/
def controlOk (b : Bytes) : Bool :=
  let z (from' len : Nat) : Bool := allZero (sub b from' len)
  match (byteAt b 0).toNat with
  | 0x01 => z 1 7 && z 20 12
  | 0x02 => z 1 3 && byteAt b 4 ≤ 1 && z 5 3 && z 24 8
      && (if byteAt b 4 == 1 then decide (fieldLe b 10 4 < 1000000000) else z 16 4)
  | 0x03 => z 1 7
  | 0x04 => z 1 3 && byteAt b 4 ≤ 3 && z 5 27
  | 0x05 => z 1 3 && byteAt b 4 < 64 && byteAt b 5 ≤ 4 && byteAt b 6 ≤ 7 && byteAt b 7 == 0 && byteAt b 15 == 0 && z 19 13
      && (byteAt b 5 == 0 || byteAt b 5 == 3 || fieldLe b 16 3 == 0)
  | 0x06 => z 1 7 && byteAt b 10 ≤ 2 && byteAt b 11 == 0 && z 18 14
  | _ => false

/-! ## PTP -/

/-- Length of a PTP message before its TLVs, by messageType. -/
def ptpHead (t : Nat) : Nat :=
  match t with
  | 0x2 | 0x3 | 0x9 | 0xA => 54
  | 0xB => 64
  | 0xD => 48
  | _ => 44

/-- The offset of the last TLV from off on, if there is one; none when a TLV runs past the end. -/
def lastTlv (b : Bytes) : Nat → Nat → Option Nat → Option (Option Nat)
  | 0, _, r => some r
  | fuel + 1, off, r =>
    if off = b.length then some r
    else if b.length < off + 4 then none
    else lastTlv b fuel (off + 4 + beNat (sub b (off + 2) 2)) (some off)

/-- What a PTP message carries (R306). -/
inductive PtpForm where
  | malformed
  | plain
  /-- The last TLV is an AUTHENTICATION TLV that breaks R306. -/
  | badTlv
  | auth (icv keyId : Nat)
  deriving DecidableEq, Repr

/-- Read a message by R306. -/
def ptpForm (b : Bytes) : PtpForm :=
  let ver := (byteAt b 1).toNat
  if beNat (sub b 2 2) != b.length || bits ver 3 0 != 2 || bits ver 7 4 > 1 then .malformed
  else
    match lastTlv b b.length (ptpHead (bits (byteAt b 0).toNat 3 0)) none with
    | none => .malformed
    | some none => .plain
    | some (some o) =>
      if bits ver 7 4 = 1 && beNat (sub b o 2) == 0x8009 then
        if beNat (sub b (o + 2) 2) == 22 && byteAt b (o + 5) == 0 then .auth (o + 10) (beNat (sub b (o + 6) 4)) else .badTlv
      else .plain

/-- twoStepFlag of a message. -/
def ptpTwoStep (b : Bytes) : Bool := (byteAt b 6).getLsbD 1

/-- Add v to correctionField; none when it leaves the signed 64-bit range (R305). -/
def ptpCorrect (b : Bytes) (v : Int) : Option Bytes :=
  let u := beNat (sub b 8 8)
  let c : Int := (if u < 2 ^ 63 then (u : Int) else (u : Int) - 2 ^ 64) + v
  if -(2 ^ 63) ≤ c && c < 2 ^ 63 then some (putAt b 8 (beBytes 8 (c % 2 ^ 64).toNat)) else none

/-- Times written at T0 into an egress message, L and t2 in 2^-16 ns (R305). -/
def ptpStamp (mode l t2 : Nat) (b : Bytes) : Option Bytes :=
  match mode with
  | 0 => some b
  | 1 =>
    let ns := l / 65536
    ptpCorrect (putAt b 34 (beBytes 6 (ns / 1000000000) ++ beBytes 4 (ns % 1000000000))) (l % 65536)
  | _ => ptpCorrect b ((l : Int) - t2)

/-- Bytes that the ICV covers (R306). -/
def ptpCovered (cfZero : Bool) (b : Bytes) (icv : Nat) : Bytes :=
  (if cfZero then putAt b 8 (Machine.zeros 8) else b).take icv

/-- IV of a GMAC ICV (R302). -/
def ptpIv (b : Bytes) : Bytes :=
  sub b 20 8 ++ beBytes 2 (bits (byteAt b 0).toNat 3 0 * 4096 + beNat (sub b 28 2) % 4096) ++ sub b 30 2

/-- The ICV of a message under a key of an entry's kind (R306). -/
def ptpIcv (kind : BitVec 8) (cfZero : Bool) (key b : Bytes) (icv : Nat) : Bytes :=
  let m := ptpCovered cfZero b icv
  if kind == 1 then (hmac 0x02 key m).take 16 else gcmTag key (ptpIv b) m []

/-! ## NTS -/

/-- Extension fields from an offset on: type, offset and length of each; none when one is ill formed. -/
def extFields (b : Bytes) : Nat → Nat → Option (List (Nat × Nat × Nat))
  | 0, _ => some []
  | fuel + 1, off =>
    if off = b.length then some []
    else
      let n := beNat (sub b (off + 2) 2)
      if b.length < off + 4 || n < 4 || n % 4 != 0 || b.length < off + n then none
      else (extFields b fuel (off + n)).map fun r => (beNat (sub b off 2), off, n) :: r

/-- n rounded up to a multiple of 4. -/
def pad4 (n : Nat) : Nat := 4 * ceilDiv n 4

/-- An Authenticator field found: where it stands, its nonce and its ciphertext. -/
structure NtsAuth where
  off : Nat
  nonce : Bytes
  ct : Bytes
  deriving DecidableEq, Repr

/-- The NTS Authenticator and Encrypted Extension Fields field of a message. -/
def ntsAuth (b : Bytes) : Option NtsAuth :=
  match (extFields b b.length 48).bind fun fs => fs.find? (·.1 == 0x0404) with
  | none => none
  | some (_, o, n) =>
    let nn := beNat (sub b (o + 4) 2)
    let cn := beNat (sub b (o + 6) 2)
    if n < 8 + pad4 nn + pad4 cn || cn < 16 then none
    else some { off := o, nonce := sub b (o + 8) nn, ct := sub b (o + 8 + pad4 nn) cn }

/-- The value of the first extension field of a type that stands before an offset. -/
def extValue (b : Bytes) (typ limit : Nat) : Option Bytes :=
  ((extFields b b.length 48).bind fun fs => fs.find? fun f => f.1 == typ && f.2.1 < limit).map fun f => sub b (f.2.1 + 4) (f.2.2 - 4)

/-- AEAD_AES_SIV_CMAC_256: seal. -/
def sivSeal (key aad nonce pt : Bytes) : Bytes :=
  let v := sivTag key aad nonce pt
  v ++ sivCrypt key v pt

/-- AEAD_AES_SIV_CMAC_256: open. -/
def sivOpen (key aad nonce ct : Bytes) : Option Bytes :=
  let v := ct.take 16
  let p := sivCrypt key v (ct.drop 16)
  if ct.length ≥ 16 && sivTag key aad nonce p == v then some p else none

/-- A time of 2^-16 ns in NTP format, under utc_offset (R307). -/
def ntpTime (t : Nat) (utc : BitVec 16) : Bytes :=
  let ns := t / 65536
  beBytes 4 ((((ns / 1000000000 : Nat) : Int) - utc.toInt + 2208988800) % 2 ^ 32).toNat
  ++ beBytes 4 ((ns % 1000000000 * 65536 + t % 65536) * 2 ^ 32 / (1000000000 * 65536))

/-- An Authenticator field: type, length, nonce and ciphertext. -/
def authField (nonce ct : Bytes) : Bytes :=
  beBytes 2 0x0404 ++ beBytes 2 (8 + pad4 nonce.length + pad4 ct.length) ++ beBytes 2 nonce.length ++ beBytes 2 ct.length
  ++ padMul 4 nonce ++ padMul 4 ct

/-- The bytes of a client request that its authenticator covers: all but an Authenticator header that the driver has put at its end (notes/assumptions/38). -/
def requestAad (b : Bytes) : Bytes :=
  let n := b.length - 8
  if b.drop n == (authField (Machine.zeros 16) (Machine.zeros 16)).take 8 then b.take n else b

/-- Bytes 0 to 3 of a cookie: the key_id of its master entry (Table 9.8). -/
def cookieId (c : Bytes) : Nat := beNat (c.take 4)

/-- The C2S and S2C keys that a cookie holds under a master key (Table 9.8). -/
def openCookie (master c : Bytes) : Option (Bytes × Bytes) :=
  if c.length != 104 then none
  else match sivOpen master [] (sub c 4 16) (c.drop 20) with
    | none => none
    | some p => if p.take 4 == [0x00, 0x0F, 0x00, 0x00] then some (sub p 4 32, sub p 36 32) else none

/-- A cookie sealed under a master key. -/
def sealCookie (id : BitVec 32) (master nonce c2s s2c : Bytes) : Bytes :=
  beBytes 4 id.toNat ++ nonce ++ sivSeal master [] nonce ([0x00, 0x0F, 0x00, 0x00] ++ c2s ++ s2c)

end Sys2Proof.Machine
end

