-- ==== Sys2Proof/Machine/Transfers.lean ====
section
/-! DEFINITION. Responses of the memory ports: entries (R81, R97, R99, R375), aux blocks (R120), fragment tables (R135), payload and packages (R50, R277), write responses (R19, R146, R332, R447), completions (R105 to R109, R138, R203), interrupts and P2 notices (R106, R107, R467). -/

namespace Sys2Proof.Machine

/-! ## Transactions -/

/-- The outstanding read with a port and a tag. -/
def State.read? (s : State) (port tag : Nat) : Option Txn := (s.txn? port tag).filter (·.op == .read)

/-- The outstanding write with a port and a tag. -/
def State.write? (s : State) (port tag : Nat) : Option Txn := (s.txn? port tag).filter (·.op == .write)

/-- What a read has brought in all: the beats before a truncation and those of the reissue (R450). -/
def Txn.got (t : Txn) (d : ReadData) : Bytes := padTo t.len (t.data ++ d.bytes)

/-- The poison bits of the flits that a read has brought in all (R448). -/
def Txn.flits (t : Txn) (d : ReadData) : List Bool := t.poison ++ d.poison

/-- A flit of what a read has brought is poisoned (R375). -/
def Txn.poisoned (t : Txn) (d : ReadData) : Bool := (t.flits d).any id

/-- Bytes from an address to a transaction's, in the IOVA space (R29). -/
def Txn.past (t : Txn) (base : Nat) : Nat := (t.iova + 2 ^ 52 - base) % 2 ^ 52

/-- A job has a read of purpose p on its way. -/
def State.reading (s : State) (p : Purpose → Bool) : Bool := s.txns.any fun t => t.op == .read && !t.dead && p t.purpose

/-- Issue a transaction again with the same bytes, on another active port when there is one, or, when it has been cut short, on a spare port (R447, R452, R498); what a read has brought is kept. -/
def State.reissue (s : State) (port tag : Nat) (spare : Bool) (got : ReadData) : State :=
  let f (t : Txn) : Txn :=
    if t.port == port && t.tag == some tag then
      { t with tag := none, spare := spare, cut := t.cut || spare, avoid := if spare then none else some port, again := true,
               data := if t.op == .read then got.bytes else t.data, poison := if t.op == .read then got.poison else t.poison }
    else t
  { s with txns := s.txns.map f }

/-! ## Port suspension (R456, R457, R487) -/

/-- n bytes of the pattern that a port test draws from the free values, from the k-th on. -/
def patternBytes (k n : Nat) : Bytes := (List.range n).map fun i => Config.freeByte (k + i)

/-- SORREL's test of a suspended port: it writes patterns over the 64 KiB of the scratch region and reads them back; the patterns are free values (R456, notes/assumptions/36). -/
def State.testPort (s : State) (p : Nat) : State :=
  let a := s.regN 0x90080 % 2 ^ 52
  if a = 0 then s
  else
    let mk (op : RurenOp) (x : Nat × Nat) : Txn :=
      let k := s.free + (x.1 - a)
      { port := p, tag := none, op := op, cls := .maintenance, domain := 0, iova := x.1 % 2 ^ 52, len := x.2,
        data := if op == .write then patternBytes k x.2 else [],
        purpose := .portTest p k, pos := 0, spare := false, cut := false, avoid := none, again := false, poison := [], dead := false }
    let ps := split4k (splitFuel 65536) a 65536
    let s' : State := { s with txns := s.txns ++ ps.map (mk .write) ++ ps.map (mk .read) }
    (s'.setPort p fun x => { x with bad := false }).useFree 65536

/-- Some write or read of a port's test is waiting or outstanding. -/
def State.portTesting (s : State) (p : Nat) : Bool := s.anyTxn fun x => match x with
  | .portTest p' _ => p' == p
  | _ => false

/-- A read of a port's test is back: it is compared with what was written (R456). -/
def State.portCompare (s : State) (p k : Nat) (data : Bytes) : State :=
  if data == patternBytes k data.length then s else s.setPort p fun x => { x with bad := true }

/-- The test of a suspended port ends (R456): it becomes a spare port in service, or it is retired. -/
def State.portTested (s : State) (p : Nat) (pass : Bool) : State :=
  if (s.sorrel.ports[p]?).any fun x => x.role == .suspended then
    let keep (t : Txn) : Bool := match t.purpose with
      | .portTest p' _ => p' != p
      | _ => true
    let s : State := { s with txns := s.txns.filter keep }
    (s.setPort p fun x => { x with role := if pass then .spare else .retired }).unitEvent 0x05 p (if pass then 2 else 3)
  else s

/-- Suspend a port: it is tested, and its position waits for the lowest spare port where there is one (R456). -/
def State.suspendPort (s : State) (p : Nat) : State :=
  match s.sorrel.ports[p]? with
  | none => s
  | some x =>
    let s1 := s.setPort p fun x => { x with role := .suspended }
    let s1 := s1.unitEvent 0x05 p 1
    match x.role with
    | .position k =>
      let s1 := if s1.sparePort.isSome then s1.addChange (.position k) else s1
      s1.testPort p
    | .spare => s1.testPort p
    | _ => s

/-- A port takes a suspension count; the second of an epoch suspends it (R456). -/
def State.countPort (s : State) (p : Nat) : State :=
  let s := s.setPort p fun x => { x with counts := x.counts + 1 }
  if (s.sorrel.ports[p]?).any fun x => decide (x.counts ≥ 2) then s.suspendPort p else s

/-! ## The head of a queue -/

/-- A trigger of R106 holds. -/
def State.intDue (s : State) (x : Queue) : Bool :=
  x.coalCount != 0 && x.pendingInt != 0 && x.lastInt != some s.thyme.tick
  && (x.pendingInt ≥ x.coalCount.toNat || x.urgentDue
      || (x.coalTicks != 0 && x.firstPending.any fun f => f + x.coalTicks.toNat ≤ s.thyme.tick))

/-- Request the completion interrupt of a queue when one is due: at most one in a tick (R106, R107). -/
def State.queueInt (s : State) (q : Nat) : State :=
  match s.queue? q with
  | none => s
  | some x =>
    if s.intDue x then
      (s.setQueue q fun x => { x with pendingInt := 0, firstPending := none, urgentDue := false, lastInt := some s.thyme.tick }).irq
        x.domain x.vector
    else s

/-- Send notices while credits last (R467). -/
def sendNotices : Nat → State → State
  | 0, s => s
  | fuel + 1, s =>
    match s.fennel.p2Store with
    | n :: ns =>
      if s.fennel.p2Credits = 0 then s
      else
        let s' : State := { s with fennel := { s.fennel with p2Store := ns, p2Credits := s.fennel.p2Credits - 1, p2Dropped := false } }
        sendNotices fuel (s'.emit (.notice s.fennel.p2Dropped n))
    | [] => s

/-- The P2 domain of the PT_ registers, when P2 is enabled (Table 16.11). -/
def State.p2Domain (s : State) : Option Nat :=
  let r := s.regN 0x90000
  if bit r 9 then some (r % 512) else none

/-- Notice of a confirmed completion (R467): sent, stored, or dropped when the store is full. -/
def State.notify (s : State) (j : Job) : State :=
  if s.p2Domain != some j.domain then s
  else
    let st := j.status.getD .ok
    let n : Notice := { domain := j.domain, queue := j.queue, count := j.count, status := st,
                        detail := if st.bare then 0 else j.detail }
    if s.fennel.p2Store.length ≥ 256 then { s with fennel := { s.fennel with p2Dropped := true } }
    else sendNotices 1 { s with fennel := { s.fennel with p2Store := s.fennel.p2Store ++ [n] } }

/-- Confirmed completions at the head of a queue advance the count, in ring order (R20, R105, R106). They count as pending, and an urgent one as urgent, while coal_count is 0 too (DESIGN CHOICE, notes/assumptions/120). -/
def State.advanceHead (q : Nat) : Nat → State → State
  | 0, s => s
  | fuel + 1, s =>
    match s.queue? q with
    | none => s
    | some x =>
      match (s.job? q x.head).filter fun j => j.phase == .confirmed with
      | none => s
      | some j =>
        let urgent := x.urgent && (j.status != some .ok || j.deferredFlag)
        let s := s.setQueue q fun x => { x with
          head := x.head + 1, pendingInt := x.pendingInt + 1, firstPending := some (x.firstPending.getD s.thyme.tick),
          urgentDue := x.urgentDue || urgent }
        let s := (s.dropJob q j.count).notify j
        State.advanceHead q fuel (s.queueInt q)

/-! ## Entries -/

/-- A held copy enters FENNEL's store, unless one is there or the count is over. -/
def State.holdCopy (s : State) (q : Nat) (k : EntryCopy) : State :=
  s.setQueue q fun x =>
    let clear (c : BitVec 17) : Bool := c != k.count
    if (x.copy? k.count).isSome || x.copies.length ≥ 64 then x
    else { x with copies := x.copies ++ [k], stale := x.stale.filter clear }

/-- The count is not yet validated, and the ring has its entry (R79). -/
def Queue.ahead (x : Queue) (c : BitVec 17) : Bool :=
  decide ((x.validated - x.head).toNat ≤ (c - x.head).toNat) && decide ((c - x.head).toNat < 2 ^ x.n)

/-- The count is covered and not yet validated. -/
def Queue.awaits (x : Queue) (c : BitVec 17) : Bool := decide ((c - x.validated).toNat < (x.tail - x.validated).toNat)

/-- A covered count ends without being run: with the status of its failed read or its damaged mark (R97, R375, R449). -/
def State.failEntry (s : State) (q : Nat) (c : BitVec 17) (prefetch : Bool) (e : Bytes) (st : Status) : State :=
  match s.queue? q with
  | none => s
  | some x => if prefetch || !x.awaits c then s
    else s.holdCopy q { count := c, bytes := x.withPhase c e, express := false, bad := some st, checks := [], port := none }

/-- A covered entry reads stale: stall, its event, and a read at the next doorbell or push (R97). -/
def State.entryStale (s : State) (x : Queue) (c : BitVec 17) : State :=
  let s := s.setQueue x.num fun y => { y with stale := if y.stale.contains c then y.stale else y.stale ++ [c] }
  s.event x.domain 0x10 1 x.num (leBytes 4 c.toNat)

/-- A completion is confirmed, with the deferred flag that its record carries, and the head advances in ring order (R20, R105). -/
def State.confirm (s : State) (q : Nat) (c : BitVec 17) (record : Bytes) : State :=
  let s := s.setJob q c fun j => { j with phase := .confirmed, deferredFlag := (byteAt record 1).getLsbD 6 }
  (State.advanceHead q (s.fennel.jobs.filter (·.queue == q)).length s).disableIdle q

/-- An entry of a count in flight reads Completed when its queue's state has been rebuilt: it counts as confirmed (R378). Any other second read of such an entry confirms nothing: a write response does (R105). -/
def State.entryConfirmed (s : State) (q : Nat) (c : BitVec 17) (e : Bytes) : State :=
  let other (d : BitVec 17) : Bool := d != c
  if (s.queue? q).any (fun x => x.recheck.contains c) && (s.job? q c).any (·.phase == .completing) then
    (s.setQueue q fun x => { x with recheck := x.recheck.filter other }).confirm q c e
  else s

/-- An entry has been read (R81, R97, R99); a prefetched one whose count has been validated meanwhile, from a push, is not held (R100). -/
def State.entryBytes (s : State) (q : Nat) (c : BitVec 17) (prefetch : Bool) (e : Bytes) (port : Nat) : State :=
  match s.queue? q with
  | none => s
  | some x =>
    match x.judge c e with
    | .fresh => if x.awaits c || (prefetch && x.ahead c) then
        s.holdCopy q { count := c, bytes := e, express := false, bad := none, checks := flitChecks e, port := some port }
      else s
    | .stale => if prefetch || !x.awaits c || (x.copy? c).isSome then s else s.entryStale x c
    | .completed => if prefetch || x.awaits c then s.failEntry q c prefetch e .malformed else s.entryConfirmed q c e

/-- The entry of a count in the beat that holds it (R86). -/
def Queue.entryIn (x : Queue) (c : BitVec 17) (beat : Bytes) : Bytes := sub beat (x.addr c % 128) x.gen.size

/-- Counts whose entries lie in flits of the beat that a poison bit marks (R375). -/
def Queue.poisonedOf (x : Queue) (cs : List (BitVec 17)) (poison : List Bool) : List (BitVec 17) :=
  cs.filter fun c => (poison.drop (x.addr c % 128 / 64)).take ((x.gen.size + 63) / 64) |>.any id

/-- A beat of entries has arrived through a port (R86). -/
def State.beatBytes (s : State) (x : Queue) (cs : List (BitVec 17)) (prefetch : Bool) (beat : Bytes) (port : Nat) : State :=
  cs.foldl (fun s c => s.entryBytes x.num c prefetch (x.entryIn c beat) port) s

/-- The read of some entries has failed. -/
def State.failEntries (s : State) (q : Nat) (cs : List (BitVec 17)) (prefetch : Bool) (st : Status) : State :=
  cs.foldl (fun s c => s.failEntry q c prefetch [] st) s

/-- Entries that arrived poisoned are read once more; when they are poisoned again, their counts complete with POISONED (R375). -/
def State.beatPoisoned (s : State) (x : Queue) (cs : List (BitVec 17)) (prefetch again : Bool) : State :=
  if cs.isEmpty then s
  else if again then s.failEntries x.num cs prefetch .poisoned
  else s.readBeat x cs prefetch true

/-- ENTRY_READ_RESPONSE (R97, R375): the entries in clean flits are judged, those in poisoned ones are read once more. -/
def execEntryReadResponse (port tag : Nat) (data : ReadData) (s : State) : Ans :=
  onSome ((s.read? port tag).bind fun t => match t.purpose with
      | .entry q cs p a => some (t, q, cs, p, a)
      | _ => none) s fun x =>
    let (t, q, cs, p, again) := x
    let s := s.endTxn port tag
    (match (s.queue? q).filter fun _ => !t.dead with
     | none => s
     | some y =>
       let bad := y.poisonedOf cs (t.flits data)
       let good (c : BitVec 17) : Bool := !bad.contains c
       (s.beatBytes y (cs.filter good) p (t.got data) port).beatPoisoned y bad p again).flow

/-! ## Reads of a job -/

/-- AUX_BLOCK_READ_RESPONSE (R120, R375). -/
def execAuxBlockReadResponse (port tag : Nat) (data : ReadData) (s : State) : Ans :=
  onSome ((s.read? port tag).bind fun t => match t.purpose with
      | .aux q c => some (t, q, c)
      | _ => none) s fun x =>
    let (t, q, c) := x
    let s := s.endTxn port tag
    (if t.dead then s
     else if t.poisoned data then s.endJob q c .poisoned
     else
       let s := s.setJob q c fun j => { j with
         tableBuf := putAt (padTo (auxLen j.entry) j.tableBuf) (t.past (eAux j.entry)) (t.got data) }
       if s.reading fun p => p == .aux q c then s
       else match s.job? q c with
         | some j => s.auxBytes q c j.tableBuf
         | none => s).flow

/-- A read of a fragment table has failed: the job ends, with no zeros when an alarm had ended it. -/
def State.noTable (s : State) (q : Nat) (c : BitVec 17) (st : Status) : State :=
  if (s.job? q c).any fun j => j.status == some .tamperAbort then
    (s.setJob q c fun j => { j with phase := .writing }).settle q c
  else s.endJob q c st

/-- FRAGMENT_TABLE_READ_RESPONSE (R135, R375). -/
def execFragmentTableReadResponse (port tag : Nat) (data : ReadData) (s : State) : Ans :=
  onSome ((s.read? port tag).bind fun t => match t.purpose with
      | .table q c dst => some (t, q, c, dst)
      | _ => none) s fun x =>
    let (t, q, c, dst) := x
    let s := s.endTxn port tag
    (if t.dead then s
     else if t.poisoned data then s.noTable q c .poisoned
     else s.tableBytes q c dst (t.got data) port).flow

/-- A Q1 message is staged now; a control block is checked (R299, R303). -/
def State.messageStaged (s : State) (j : Job) : State :=
  if eSub j.entry == 0x10 && !controlOk j.image then s.endJob j.queue j.count .malformed
  else s.setJob j.queue j.count fun j => { j with stagedTick := s.thyme.tick }

/-- All bytes that slice i of a job was waiting for have arrived. -/
def State.payloadWhole (s : State) (q : Nat) (c : BitVec 17) (i : Nat) : State :=
  match s.job? q c with
  | none => s
  | some j =>
    if j.phase == .basil then s
    else if j.phase == .frags then s.curveBlock j
    else if eOp j.entry == 0x71 then s.messageStaged j
    else s.sliceStaged q c i

/-- The source bytes of a job with those that a read for slice i has brought. The 16 bytes before a slice of CBC decryption (R165) give way to those that its earlier slice has read: in place, that slice's plaintext can stand in memory by now (R129). -/
def Job.withBytes (j : Job) (i off : Nat) (data : Bytes) : List (Nat × Bytes) :=
  if eOp j.entry == 0x1D then
    let n := srcHead j.gen j.entry + 4096 * i - off
    (off, data.take n) :: j.data ++ [(off + min n data.length, data.drop n)]
  else j.data ++ [(off, data)]

/-- Payload bytes of a job have arrived (R50, R375). -/
def State.payloadBytes (s : State) (q : Nat) (c : BitVec 17) (i off : Nat) (data : Bytes) (poisoned : Bool) : State :=
  if poisoned then (s.stopUnits q c).endJob q c .poisoned
  else
    let s := s.setJob q c fun j => { j with data := j.withBytes i off data }
    if s.reading (fun p => match p with
      | .payload q' c' i' _ => q' == q && c' == c && i' == i
      | _ => false) then s
    else s.payloadWhole q c i

/-- The posted load of a number. -/
def State.load? (s : State) (n : BitVec 32) : Option PostedLoad := s.admin.loads.find? (·.load == n)

/-- A posted load fails: a deferred error, recorded or counted as lost, its events, and the domain's pending state; jobs that name the target are denied (R355, R356, R358). -/
def State.failLoad (s : State) (l : PostedLoad) (st : Status) : State :=
  let keep (x : PostedLoad) : Bool := x.load != l.load
  let e : DefErr := { load := l.load, domain := l.domain, status := st, count := l.count, tag := l.tag, handle := l.handle,
                      kek := l.kek, tick := s.thyme.tick }
  let a := s.admin
  let a : Admin := { a with loads := a.loads.filter keep }
  let a : Admin := if a.defLog.length < 256 then { a with defLog := a.defLog ++ [e] } else { a with defLost := a.defLost + 1 }
  let s : State := { s with admin := a }
  let s := s.setDomain l.domain fun x => { x with deferred := true }
  let s := s.eventDM l.domain 0x03 0 st.code (leBytes 4 l.load.toNat ++ leBytes 3 l.handle)
  (s.fennel.jobs.filter fun j => j.domain == l.domain && j.status.isNone && j.names l.handle).foldl
    (fun s j => s.endJob j.queue j.count .keyDenied) (s.dropLoadJob l.load)

/-- PAYLOAD_READ_RESPONSE (R50, R375): payload of a slice, an operand block, a Q1 message, a package or a debug response (R420); a poisoned one is never retried. -/
def execPayloadReadResponse (port tag : Nat) (data : ReadData) (s : State) : Ans :=
  onSome (s.read? port tag) s fun t =>
    let s' := s.endTxn port tag
    match t.purpose with
    | .payload q c i off => (if t.dead then s' else s'.payloadBytes q c i off (t.got data) (t.poisoned data)).flow
    | .package b =>
      (if t.dead then s' else if t.poisoned data then s'.packageFails b .poisoned else s'.packageBytes b t.iova (t.got data)).flow
    | .portTest p k => (s'.portCompare p k (t.got data)).sendAll
    | .response off =>
      (if t.dead then s'
       else
         let l := s'.lovage
         { s' with lovage := { l with resp := putAt l.resp off (t.got data),
                                      respFailed := l.respFailed || t.poisoned data } }).sendAll
    | _ => s

/-! ## Write responses -/

/-- A slice whose output has all been acknowledged is over (R168). -/
def State.slicesWritten (s : State) (q : Nat) (c : BitVec 17) : State :=
  let busy (i : Nat) : Bool := s.txns.any fun t => !t.dead && match t.purpose with
    | .output q' c' i' _ => q' == q && c' == c && i' == i
    | _ => false
  s.setJob q c fun j => { j with slices := j.slices.filter fun x => !(x.state == .writing && !busy x.index) }

/-- Output bytes of a job have been acknowledged (R19, R146). -/
def State.outputAcked (s : State) (q : Nat) (c : BitVec 17) (r : Option (Nat × Nat)) : State :=
  let s := s.setJob q c fun j => { j with acked := j.acked ++ r.toList }
  (s.slicesWritten q c).settle q c

/-- The last line of a save has been freed: the context is saved, and its on-die place is zeroed (R232, R237, R453). -/
def State.saveDone (s : State) (q : Nat) (c : BitVec 17) (older : Bool) : State :=
  if s.dill.lines.any fun l => l.queue == q && l.count == c && l.older == older then s
  else
    (s.setCtx q c older fun x => match x.place with
      | .saving r => { x with place := .saved r (fieldLe x.sealed 32 8), sealed := [], state := [], outer := [], carry := [] }
      | _ => x).retryCtxs

/-- Free a line (Table 15.7). -/
def State.freeLine (s : State) (l : WbLine) : State :=
  let keep (x : WbLine) : Bool := !(x.domain == l.domain && x.line == l.line)
  ({ s with dill := { s.dill with lines := s.dill.lines.filter keep } } : State).saveDone l.queue l.count l.older

/-- A transaction that was cut has its response: a job that an alarm has ended waits for the writes that it had sent, and a context line is free (R19, R111, R415). -/
def State.deadDone (s : State) (t : Txn) : State :=
  match t.purpose with
  | .output q c _ _ | .zero q c _ | .result q c => s.settle q c
  | .line .. => match s.line? t.domain (t.iova / 128) with
    | some l => s.freeLine l
    | none => s
  | _ => s

/-- The write was made: what it carried moves on. -/
def State.writeDone (s : State) (t : Txn) : State :=
  if t.dead then s.deadDone t
  else match t.purpose with
  | .output q c _ off => s.outputAcked q c (some (off, t.len))
  | .zero q c _ => s.settle q c
  | .result q c => (if q = 0 then s.setJob q c fun j => { j with bytesDone := j.bytesDone + t.len } else s).settle q c
  | .marker d => s.setDomain d fun x => if x.mig.marker == .issued then { x with mig := { x.mig with marker := .confirmed } } else x
  | _ => s

/-- The write's response belongs to WRITE_RESPONSE; completions and events have commands of their own. -/
def Purpose.plainWrite : Purpose → Bool
  | .output .. | .zero .. | .result .. | .dirty _ | .marker _ | .stamp _ | .portTest _ _ => true
  | _ => false

/-- WRITE_RESPONSE (R19): a write has its response. -/
def State.writeOk (s : State) (t : Txn) (port tag : Nat) : State := (((s.endTxn port tag).logTxn t).writeDone t).flow

/-! ## Completions -/

/-- COMPLETION_CONFIRM (R105): a completion's write response. -/
def execCompletionConfirm (port tag : Nat) (s : State) : Ans :=
  onSome ((s.write? port tag).bind fun t => match t.purpose with
      | .completion q c => some (t, q, c)
      | _ => none) s fun x =>
    let (t, q, c) := x
    let s := (s.endTxn port tag).logTxn t
    if t.dead then s.sendAll
    else (s.confirm q c t.data).flow

/-- COALESCING_TIMER (R106): a request whose trigger holds and that no tick has made yet. -/
def execCoalescingTimer (q : Nat) (s : State) : Ans :=
  onSome ((s.queue? q).filter s.intDue) s fun _ => s.queueInt q

/-- P2_CREDIT (R467): one credit more, and the notices that it lets out. -/
def execP2Credit (s : State) : Ans :=
  done (sendNotices 1 { s with fennel := { s.fennel with p2Credits := s.fennel.p2Credits + 1 } })

end Sys2Proof.Machine
end

