-- ==== Sys2Proof/Machine/Time.lean ====
section
/-! DEFINITION. Q1 (R297 to R308): control jobs (Table 9.5), the time key table (R300, R301), the authentication pipeline from T0 to T4 (R302 to R308), and fences and no-ops (R130). -/

namespace Sys2Proof.Machine

/-! ## Turns on Q1 -/

/-- A Q1 job whose block or message is staged and that no earlier Q1 message or control job precedes (R303). -/
def State.q1Turn (s : State) (c : BitVec 17) (p : Nat → Bool) : Option Job :=
  (s.job? 1 c).filter fun j =>
    eOp j.entry == 0x71 && p (eSub j.entry) && j.phase == .command && s.plansRun && !s.resetting j.domain && !s.fenced j
    && !(s.reading fun x => x.job? == some (1, c))
    && !(s.fennel.jobs.any fun x => x.queue == 1 && eOp x.entry == 0x71 && x.phase == .command && s.ringPos x < s.ringPos j)

/-- A control job of command cmd in its turn. -/
def State.controlJob (s : State) (c : BitVec 17) (cmd : Nat) : Option Job :=
  (s.q1Turn c (· == 0x10)).filter fun j => (byteAt j.image 0).toNat == cmd && controlOk j.image

/-- A control job completes with a status. -/
def State.controlEnds (s : State) (c : BitVec 17) (st : Status) : State := (s.endJob 1 c st).flow

/-- A control job is accepted: its change waits for the next boundary, and it completes OK (R299). -/
def State.controlDone (s : State) (c : BitVec 17) (x : TimeChange) : State :=
  (s.setSage fun g => { g with waiting := g.waiting ++ [x] }).controlEnds c .ok

/-- The servo mode with the changes that wait. -/
def Sage.modeSoon (g : Sage) : ServoMode :=
  g.waiting.foldl (fun m c => match c with
    | .servoMode n => n
    | _ => m) g.servoMode

/-- ADJUST (R299): in FW mode only. -/
def execAdjust (c : BitVec 17) (s : State) : Ans :=
  onSome (s.controlJob c 0x01) s fun j =>
    if s.sage.modeSoon == .fw then
      s.controlDone c (.adjust (fieldInt j.image 8 8) (BitVec.ofNat 32 (fieldLe j.image 16 4)))
    else s.controlEnds c .unsupported

/-- The target of a STEP block, in 2^-40 ns. -/
def stepTarget (b : Bytes) : StepTarget :=
  if byteAt b 4 == 1 then .absolute (timeOf (sub b 8 12)) else .offset (fieldInt b 8 8 * 2 ^ 24)

/-- STEP (R289, R299, R497): judged against the counter now; it replaces a pending step. -/
def execStep (c : BitVec 17) (s : State) : Ans :=
  onSome (s.controlJob c 0x02) s fun j =>
    let t := stepTarget j.image
    match t.time s.sage.now with
    | none => s.controlEnds c .malformed
    | some v =>
      if endTime ≤ v then s.controlEnds c .malformed
      else
        let p : PendingStep := { target := t, eStep := some (BitVec.ofNat 32 (fieldLe j.image 20 4)) }
        (s.setSage fun g => { g with pendingStep := some p }).controlEnds c .ok

/-- SAMPLE (R299, R309): not used while a step is pending. -/
def execSample (c : BitVec 17) (s : State) : Ans :=
  onSome (s.controlJob c 0x03) s fun j =>
    let b := j.image
    if s.sage.pendingStep.isSome then s.controlEnds c .ok
    else s.controlDone c (.sample (fieldInt b 8 8) (BitVec.ofNat 32 (fieldLe b 16 4)) (BitVec.ofNat 32 (fieldLe b 20 4)) (sub b 24 8))

/-- MODE (R299). -/
def execModeSelect (c : BitVec 17) (s : State) : Ans :=
  onSome (s.controlJob c 0x04) s fun j => s.controlDone c (.servoMode (servoModeOf (byteAt j.image 4).toNat))

/-- UTC (R299). -/
def execUtc (c : BitVec 17) (s : State) : Ans :=
  onSome (s.controlJob c 0x06) s fun j =>
    let b := j.image
    s.controlDone c (.utc (BitVec.ofNat 16 (fieldLe b 8 2)) (byteAt b 10) (BitVec.ofNat 48 (fieldLe b 12 6)))

/-! ## The time key table -/

/-- The entry that a KEY_ENTRY block makes; none for kind 0 (R299). -/
def timeKeyOf (b : Bytes) : Option TimeKey :=
  let f := (byteAt b 6).toNat
  if byteAt b 5 == 0 then none
  else some { index := (byteAt b 4).toNat, kind := byteAt b 5, tx := bit f 0, rx := bit f 1, cfZero := bit f 2,
              keyId := BitVec.ofNat 32 (fieldLe b 8 4), handle := fieldLe b 12 3, handle2 := fieldLe b 16 3,
              lastSeq := [], generations := 0 }

/-- The key entries with the changes that wait. -/
def Sage.keysSoon (g : Sage) : List TimeKey :=
  g.waiting.foldl (fun ks c => match c with
    | .keyEntry i k => ks.filter (fun x => x.index != i) ++ k.toList
    | _ => ks) g.keys

/-- Another entry carries the same key_id and a direction in common (R300). -/
def Sage.keyClash (g : Sage) (k : TimeKey) : Bool :=
  g.keysSoon.any fun x => x.index != k.index && x.keyId == k.keyId && ((x.tx && k.tx) || (x.rx && k.rx))

/-- Handles of an entry (Table 9.6). -/
def TimeKey.handles (k : TimeKey) : List Nat := if k.kind == 3 then [k.handle, k.handle2] else [k.handle]

/-- A handle's record suits the entry: class (Table 9.6), time bit (R297), and the bits of its directions (R301). -/
def TimeKey.suits (k : TimeKey) (r : KeyRec) : Bool :=
  let nts := k.kind == 3 || k.kind == 4
  let p := r.policy
  (r.typ == 0 || r.typ == 2) && p.getLsbD 9
  && (if k.kind == 1 then r.alg == 0x20 && r.hdigest == 0x02
      else if k.kind == 2 then r.alg == 0x01 || r.alg == 0x03
      else r.alg == 0x06)
  && (!k.tx || (p.getLsbD 2 && (!nts || p.getLsbD 0))) && (!k.rx || (p.getLsbD 3 && (!nts || p.getLsbD 1)))

/-- Keys of a job that names handles. -/
def handleKeys (hs : List Nat) : List JobKey := hs.eraseDups.map fun h => { role := .key, second := false, handle := h, failed := none }

/-- The job has passed check 2 of R194 for the handles, and their slots are still loaded: it runs to its end with them, whatever has been revoked since (R199, R203). -/
def State.keysKept (s : State) (j : Job) (hs : List Nat) : Bool :=
  j.found && hs.all fun h => j.keys.any (·.handle == h) && (s.recOf j.domain h).isSome

/-- The keys of a Q1 job are looked up in BAY (R194): once they are found, the job holds them. The last free slot is taken in its turn (R202). -/
def State.lookKeys (s : State) (j : Job) (hs : List Nat) : State × KeyStep :=
  let known (k : JobKey) : JobKey := (j.keys.find? (·.handle == k.handle)).getD k
  let ks := (handleKeys hs).map known
  let s' := s.setJob 1 j.count fun j => { j with keys := ks, found := false }
  if s.keysKept j hs then (s, .ok)
  else if !(hs.all fun h => (s.domain? j.domain).any fun x => inWindow x h) then (s, .fail .keyDenied)
  else if s.slotLast { j with keys := ks } then (s'.askLast 1 j.count, .wait)
  else match State.checkKeys j.domain (eOp j.entry) ks s' .ok with
    | (s, .ok) => (s.setJob 1 j.count fun j => { j with found := true }, .ok)
    | x => x

/-- KEY_ENTRY (R299 to R301): the entry's keys are loaded and checked first, and the job waits for them. -/
def execKeyEntry (c : BitVec 17) (s : State) : Ans :=
  onSome (s.controlJob c 0x05) s fun j =>
    let i := (byteAt j.image 4).toNat
    match timeKeyOf j.image with
    | none => s.controlDone c (.keyEntry i none)
    | some k =>
      if s.sage.keyClash k then s.controlEnds c .malformed
      else
        let (s, r) := s.lookKeys j k.handles
        match r with
        | .wait => s.flow
        | .fail _ => s.controlEnds c .keyDenied
        | .ok =>
          if k.handles.all fun h => (s.recOf j.domain h).any k.suits then s.controlDone c (.keyEntry i (some k))
          else s.controlEnds c .keyDenied

/-! ## T0 -/

/-- The entry of an identifier and a direction (R300). -/
def State.timeKey? (s : State) (id : Nat) (tx : Bool) : Option TimeKey :=
  s.sage.keys.find? fun k => k.keyId.toNat == id && (if tx then k.tx else k.rx)

/-- The entry of an identifier, a direction and one of some kinds, or KEY_DENIED (R300). -/
def State.needKey (s : State) (id : Nat) (tx : Bool) (kinds : List (BitVec 8)) : Except Status TimeKey :=
  match (s.timeKey? id tx).filter fun k => kinds.contains k.kind with
  | some k => .ok k
  | none => .error .keyDenied

/-- What a message takes at T0: its entry, the entry that seals a new cookie, and the handles it uses. -/
structure PipeNeeds where
  entry : Option TimeKey
  sealer : Option TimeKey
  handles : List Nat

/-- Needs of a PTP message under an entry. -/
def PipeNeeds.of (k : TimeKey) (h : Nat) : PipeNeeds := { entry := some k, sealer := none, handles := [h] }

/-- Message of a job: its source bytes. -/
def Job.message (j : Job) : Bytes := j.image.take (eLen j.entry)

/-- The request of a server exchange, and its response header template (Table 9.4). -/
def Job.exchange (j : Job) : Bytes × Bytes := let m := j.message; (m.take (m.length - 48), m.drop (m.length - 48))

/-- Byte n of time_param. -/
def Job.timeByte (j : Job) (n : Nat) : Nat := (byteAt (eTimeParam j.entry) n).toNat

/-- Needs of an egress PTP message (R305, R306). -/
def State.needsEgress (s : State) (j : Job) : Except Status PipeNeeds :=
  let b := j.message
  let form := ptpForm b
  if (form == .malformed || form == .badTlv) || (j.timeByte 1 != 0 && ptpTwoStep b) then .error .malformed
  else match form with
    | .auth _ id => do
      let k ← s.needKey id true [1, 2]
      return PipeNeeds.of k k.handle
    | _ => .ok { entry := none, sealer := none, handles := [] }

/-- Needs of an ingress PTP message (R306). -/
def State.needsIngress (s : State) (j : Job) : Except Status PipeNeeds :=
  match ptpForm j.message with
  | .malformed => .error .malformed
  | .auth _ id => do
    let k ← s.needKey id false [1, 2]
    return PipeNeeds.of k k.handle
  | _ => .error .keyDenied

/-- Needs of a server exchange: the cookie's master entry, and the master entry with tx set, the lowest index first (R307, notes/assumptions/39). -/
def State.needsServer (s : State) (j : Job) : Except Status PipeNeeds :=
  match ntsAuth j.exchange.1 with
  | none => .error .authFail
  | some a => match extValue j.exchange.1 0x0204 a.off with
    | none => .error .authFail
    | some ck => do
      let k ← s.needKey (cookieId ck) false [4]
      match (List.range 64).findSome? fun i => s.sage.keys.find? fun x => x.index == i && x.kind == 4 && x.tx with
      | some m => return { entry := some k, sealer := some m, handles := [k.handle, m.handle] }
      | none => .error .keyDenied

/-- Needs of a message by its subop (Table 9.4). -/
def State.pipeNeeds (s : State) (j : Job) : Except Status PipeNeeds :=
  let tp := eTimeParam j.entry
  match eSub j.entry with
  | 0x01 => s.needsEgress j
  | 0x02 => s.needsIngress j
  | 0x03 => do
    let k ← s.needKey (fieldLe tp 4 4) true [3]
    return PipeNeeds.of k k.handle
  | 0x04 => do
    let k ← s.needKey (fieldLe tp 0 4) false [3]
    return PipeNeeds.of k k.handle2
  | _ => s.needsServer j

/-- A subop that is launched. -/
def isEgress (sub : Nat) : Bool := sub == 0x01 || sub == 0x03 || sub == 0x05

/-- Launch time of an egress message that starts in tick n, in 2^-40 ns (R304). -/
def State.launch (s : State) (j : Job) (n : Nat) : Option Nat :=
  if isEgress (eSub j.entry) then
    some ((n + 4) * tickUnit + s.sg (0x108 + 0x20 * (j.timeByte 0 % 16)) * 2 ^ 24)
  else none

/-- The IV rule of a generating GMAC entry (R302): the status, or the entry after the message. -/
def gmacNext (k : TimeKey) (b : Bytes) : Except Status TimeKey :=
  let t := bits (byteAt b 0).toNat 3 0
  let q : BitVec 16 := BitVec.ofNat 16 (beNat (sub b 30 2))
  if k.generations ≥ 65535 then .error .keyExhausted
  else match k.lastSeq.lookup t with
    | some v => if q == v + 1 then .ok { k with lastSeq := assocSet k.lastSeq t q, generations := k.generations + 1 } else .error .keyDenied
    | none => .ok { k with lastSeq := assocSet k.lastSeq t q, generations := k.generations + 1 }

/-- A message starts in this tick, with a result when T0 has found it failing. -/
def State.startMessage (s : State) (j : Job) (n : PipeNeeds) (r : Option Status) : State :=
  let m : PipeMsg := { count := j.count, start := s.thyme.tick, entry := n.entry, sealer := n.sealer, launch := s.launch j s.thyme.tick,
                       adj := s.sage.adj, utc := s.sage.utcOffset,
                       abandoned := false, result := r.map fun st => (st, []) }
  let s := s.setJob 1 j.count fun j => { j with phase := .pipe }
  (s.setSage fun g => { g with pipe := g.pipe ++ [m] }).flow

/-- A message that fails at T0 runs its four ticks all the same (R303). -/
def State.startFailed (s : State) (j : Job) (st : Status) : State :=
  s.startMessage j { entry := none, sealer := none, handles := [] } (some st)

/-- Every key of the message has a use, or has none left to come (R197). -/
def State.usesKnown (s : State) (d : Nat) (hs : List Nat) : Bool :=
  hs.all fun h => (s.slot? d h).any fun x => x.hasUse || x.exhausted

/-- The checks of T0 once the keys are there: window and use (R301), then the charge and R302; a rerun was checked and charged before (notes/assumptions/40). -/
def State.startChecked (s : State) (j : Job) (n : PipeNeeds) : State :=
  let d := j.domain
  let hs := n.handles.eraseDups
  if j.charged then s.startMessage j n none
  else
    let gmac := eSub j.entry == 0x01 && n.entry.any fun k => k.kind == 2
    let next : Except Status (Option TimeKey) := match n.entry with
      | some k => if gmac then (gmacNext k j.message).map some else .ok none
      | none => .ok none
    match next with
    | .error st => s.startFailed j st
    | .ok k' =>
      if !(hs.all fun h => s.windowOk d h s.thyme.tick) then s.startFailed j .keyOutsideWindow
      else if !(hs.all fun h => s.useOk d h) then s.startFailed j .keyExhausted
      else
        let s := hs.foldl (fun s h => s.charge d h) s
        let s := match k' with
          | some k =>
            let put (x : TimeKey) : TimeKey := if x.index == k.index then k else x
            s.setSage fun g => { g with keys := g.keys.map put }
          | none => s
        (s.setJob 1 j.count fun j => { j with charged := true }).startMessage j n none

/-- A message staged in its turn that can start in this tick: staged before it, no other starts, no step is pending (R289, R303). -/
def State.startable (s : State) (c : BitVec 17) : Option Job :=
  (s.q1Turn c (· != 0x10)).filter fun j =>
    !s.repeats .sagePipe && j.stagedTick < s.thyme.tick && s.sage.pendingStep.isNone && s.sage.pipe.all fun m => m.start != s.thyme.tick

/-- PIPELINE_START (R303): T0 of a staged message; it waits for keys that are not there yet. -/
def execPipelineStart (c : BitVec 17) (s : State) : Ans :=
  onSome (s.startable c) s fun j =>
    match s.pipeNeeds j with
    | .error st => s.startFailed j st
    | .ok n =>
      let (s, r) := s.lookKeys j n.handles
      match r with
      | .wait => s.flow
      | .fail _ => s.startFailed j .keyDenied
      | .ok => if j.charged || s.usesKnown j.domain n.handles then s.startChecked j n else s.flow

/-! ## T0 to T3 -/

/-- A message in the pipeline without an outcome. -/
def State.inPipe (s : State) (c : BitVec 17) (sub : Nat) : Option (Job × PipeMsg) :=
  match (s.job? 1 c).filter fun j => j.phase == .pipe && eSub j.entry == sub, s.sage.pipe.find? (·.count == c) with
  | some j, some m => if m.result.isNone then some (j, m) else none
  | _, _ => none

/-- The outcome of a message is formed. -/
def State.formed (s : State) (c : BitVec 17) (st : Status) (out : Bytes) : State :=
  s.setSage fun g => { g with pipe := g.pipe.map fun m => if m.count == c then { m with result := some (st, out) } else m }

/-- L in 2^-16 ns. -/
def PipeMsg.launch16 (m : PipeMsg) : Nat := m.launch.getD 0 / 2 ^ 24

/-- Material of an entry's handle. -/
def State.entryKey (s : State) (j : Job) (k : Option TimeKey) : Bytes := (k.map fun k => s.matOf j.domain k.handle).getD []

/-- The ICV of a message under its latched entry. -/
def State.icvOf (s : State) (j : Job) (k : TimeKey) (b : Bytes) (icv : Nat) : Bytes :=
  ptpIcv k.kind k.cfZero (s.matOf j.domain k.handle) b icv

/-- PTP_EGRESS (R305, R306). -/
def execPtpEgress (c : BitVec 17) (s : State) : Ans :=
  onSome (s.inPipe c 0x01) s fun x =>
    let (j, m) := x
    let t2 := timeOf (sub (eTimeParam j.entry) 4 12) / 2 ^ 24
    match ptpStamp (j.timeByte 1) m.launch16 t2 j.message with
    | none => s.formed c .malformed []
    | some b => match m.entry, ptpForm b with
      | some k, .auth icv _ => s.formed c .ok (putAt b icv (s.icvOf j k b icv))
      | _, _ => s.formed c .ok b

/-- PTP_INGRESS_VERIFY (R306). -/
def execPtpIngressVerify (c : BitVec 17) (s : State) : Ans :=
  onSome (s.inPipe c 0x02) s fun x =>
    let (j, m) := x
    let b := j.message
    match m.entry, ptpForm b with
    | some k, .auth icv _ => s.formed c (if s.icvOf j k b icv == sub b icv 16 then .ok else .authFail) []
    | _, _ => s.formed c .keyDenied []

/-- A new nonce prefix, when one is due and LOVAGE's DRBG serves it (R264, R265, R307). -/
def State.drawPrefix (s : State) : State × Bool :=
  if !s.sage.ntsDue then (s, true)
  else
    let (s, served) := s.drbgRequest 16
    if !served then (s, false)
    else
      let v := BitVec.ofNat 64 (beNat (s.freeBytes 8))
      ((s.setSage fun g => { g with ntsPrefix := v, ntsCount := 0, ntsDue := false }).useFree 8, true)

/-- The next NTS nonce of domain d (R307); none when a prefix is due and refused. A count that wraps draws its new prefix at once. -/
def State.nextNonce (s : State) (d : Nat) : State × Option Bytes :=
  let (s, ok) := s.drawPrefix
  if !ok then (s, none)
  else
    let n := (s.ivOf d 0).take 4 ++ beBytes 8 s.sage.ntsPrefix.toNat ++ beBytes 4 s.sage.ntsCount.toNat
    ((s.setSage fun g => { g with ntsCount := g.ntsCount + 1, ntsDue := g.ntsCount == 0xFFFFFFFF }).drawPrefix.1, some n)

/-- A message with its transmit timestamp, under the utc_offset of T0 (R307). -/
def PipeMsg.stampNtp (m : PipeMsg) (b : Bytes) : Bytes := putAt b 40 (ntpTime m.launch16 m.utc)

/-- NTS_CLIENT_REQUEST (R307): the 32 bytes that it appends are the nonce and the tag (notes/assumptions/38). -/
def execNtsClientRequest (c : BitVec 17) (s : State) : Ans :=
  onSome (s.inPipe c 0x03) s fun x =>
    let (j, m) := x
    match s.nextNonce j.domain with
    | (s, none) => s.formed c .resourceBusy []
    | (s, some n) =>
      let b := m.stampNtp j.message
      s.formed c .ok (b ++ n ++ sivSeal (s.entryKey j m.entry) (requestAad b) n [])

/-- NTS_CLIENT_RESPONSE_VERIFY (R307); a failing message's output is as many zeros as the plaintext had. -/
def execNtsClientResponseVerify (c : BitVec 17) (s : State) : Ans :=
  onSome (s.inPipe c 0x04) s fun x =>
    let (j, m) := x
    let key := (m.entry.map fun k => s.matOf j.domain k.handle2).getD []
    let b := j.message
    match ntsAuth b with
    | none => s.formed c .authFail []
    | some a => match sivOpen key (b.take a.off) a.nonce a.ct with
      | some p => s.formed c .ok p
      | none => s.formed c .authFail (Machine.zeros (a.ct.length - 16))

/-- A request opened by the server: its C2S and S2C keys and its Unique Identifier field (R307). -/
def openRequest (master req : Bytes) : Option (Bytes × Bytes × Bytes) := do
  let a ← ntsAuth req
  let ck ← extValue req 0x0204 a.off
  let (c2s, s2c) ← openCookie master ck
  let _ ← sivOpen c2s (req.take a.off) a.nonce a.ct
  let uid := match extValue req 0x0104 a.off with
    | some v => beBytes 2 0x0104 ++ beBytes 2 (4 + v.length) ++ v
    | none => []
  return (c2s, s2c, uid)

/-- NTS_SERVER_EXCHANGE (R307): the cookie's nonce is formed first, then the response's (notes/assumptions/39). -/
def execNtsServerExchange (c : BitVec 17) (s : State) : Ans :=
  onSome (s.inPipe c 0x05) s fun x =>
    let (j, m) := x
    let (req, template) := j.exchange
    match openRequest (s.entryKey j m.entry) req with
    | none => s.formed c .authFail []
    | some (c2s, s2c, uid) =>
      match s.nextNonce j.domain with
      | (s, none) => s.formed c .resourceBusy []
      | (s, some n1) => match s.nextNonce j.domain with
        | (s, none) => s.formed c .resourceBusy []
        | (s, some n2) =>
          let id := (m.sealer.map (·.keyId)).getD 0
          let cookie := sealCookie id (s.entryKey j m.sealer) n1 c2s s2c
          let head := putAt template 32 (ntpTime (timeOf (sub (eTimeParam j.entry) 4 12) / 2 ^ 24) m.utc)
          let aad := m.stampNtp head ++ uid
          s.formed c .ok (aad ++ authField n2 (sivSeal s2c aad n2 (beBytes 2 0x0204 ++ beBytes 2 108 ++ cookie)))

/-! ## T4 -/

/-- s without the message of a count. -/
def State.leavePipe (s : State) (c : BitVec 17) : State :=
  let other (m : PipeMsg) : Bool := m.count != c
  s.setSage fun g => { g with pipe := g.pipe.filter other }

/-- A destination takes n bytes: it has an address when there are any, and its fragments hold as many (R116, R135). -/
def Job.dstFits (j : Job) (n : Nat) : Bool := (n == 0 || eDst j.entry != 0) && j.dstTable.all fun t => fragSum t == n

/-- The end of a message that ran: handover and destination write, or its failure (R304, R306, R307). The destination of a 0x04 or a 0x05 is judged when its length is known, before any output (notes/assumptions/106). -/
def State.finishMessage (s : State) (j : Job) (m : PipeMsg) (st : Status) (out : Bytes) (refused : Bool) : State :=
  let c := j.count
  let sub := eSub j.entry
  if (sub == 0x04 || sub == 0x05) && (st == .ok || !out.isEmpty) && !j.dstFits out.length then s.endJobZ 1 c .malformed 0
  else if st != .ok then s.endJobZ 1 c st (if sub == 0x04 then out.length else 0)
  else if isEgress sub && refused then
    (s.emit (.handoverRefused (j.timeByte 0 % 16) (m.launch.getD 0) (out.take 32))).endJob 1 c .resourceBusy
  else
    let s := if isEgress sub then s.emit (.handover (j.timeByte 0 % 16) (m.launch.getD 0) out) else s
    let s := s.setJob 1 c fun j => { j with time := m.launch, wroteOutput := !out.isEmpty }
    (s.writeDst j (s.payloadClass j.domain) 0 out fun o => .output 1 c 0 o).endJob 1 c .ok

/-- PIPELINE_HANDOVER (R304, R308, R469): T4 of a message whose outcome is formed. -/
def execPipelineHandover (c : BitVec 17) (refused verdictOk : Bool) (s : State) : Ans :=
  onSome (((s.sage.pipe.find? (·.count == c)).filter fun m => m.start + 4 ≤ s.thyme.tick).bind fun m =>
      (s.job? 1 c).bind fun j => m.result.map fun r => (m, j, r)) s fun x =>
    let (m, j, st, out) := x
    let s := s.leavePipe c
    if m.abandoned then (s.endJob 1 c .aborted).flow
    else if !verdictOk then (s.setJob 1 c fun j => { j with phase := .command, retried := true }).flow
    else (s.finishMessage j m st out refused).flow

/-! ## Fences and no-ops -/

/-- A 0x7F entry in its turn (R130). -/
def State.plainJob (s : State) (q : Nat) (c : BitVec 17) (fence : Bool) : Option Job :=
  (s.job? q c).filter fun j => q != 0 && eOp j.entry == 0x7F && j.phase == .command && bit (eSub j.entry) 0 == fence

/-- FENCE (R130): later entries of the queue wait for its completion, which the ring order puts behind every earlier one. -/
def execFence (q : Nat) (c : BitVec 17) (s : State) : Ans := onSome (s.plainJob q c true) s fun _ => (s.endJob q c .ok).flow

/-- NO_OP (R130). -/
def execNoOp (q : Nat) (c : BitVec 17) (s : State) : Ans := onSome (s.plainJob q c false) s fun _ => (s.endJob q c .ok).flow

end Sys2Proof.Machine
end

