-- ==== Sys2Proof/Machine/Sage.lean ====
section
/-! DEFINITION. SAGE's own events: holdover (R311, R312), temperature samples (R312), steps applied (R289, R34), leap seconds (R299), the initial time (R296), counters that return (R292), timestamps (R293, R294) and PPS outputs (R295). -/

namespace Sys2Proof.Machine

/-! ## The servo -/

/-- The frequency that has been requested is in force from the boundary that has just passed; the length of the tick that runs follows its addend (R32, R312). -/
def State.freqNow (s : State) : State :=
  let g := s.sage
  let adj := g.adjNext.getD g.adj
  let t := s.thyme
  let before := t.tickCycles * 2 ^ 24 + t.cycAcc - 256 * 2 ^ 24 * addend0.toNat / g.addend
  let (n, acc) := if t.short then (t.tickCycles, t.cycAcc) else tickLength (addend0 + adj).toNat before
  { s with sage := { g with adj := adj, adjNext := none, freq := g.freqNext.getD g.freq, freqNext := none }
           thyme := { t with tickCycles := n, cycAcc := acc } }

/-- HOLDOVER_ENTRY (R311, R312, R380): no accepted input for SG_HOLD_AFTER ticks; the addend follows the model from this boundary. -/
def execHoldoverEntry (s : State) : Ans :=
  guarded (s.timeRuns && s.sage.servoState != .freerun && s.sage.servoState != .holdover
      && s.sage.sinceInput.any fun n => decide (s.sg 0x18 ≤ n)) s fun s =>
    let s := if s.sage.model.isSet then s else s.resetModel
    let s := s.servoTo .holdover
    (s.requestFreq (s.sage.model.fNeed s.sage.theta)).freqNow

/-- TEMPERATURE_SAMPLE (R312), theta in quarters of a degree: due in the first tick after PD_TIME power-up and every 65,536 ticks; in HOLDOVER the addend follows it. -/
def execTemperatureSample (theta : Int) (s : State) : Ans :=
  guarded (s.timeRuns && s.sage.sampleIn == 0) s fun s =>
    let s := s.setSage fun g => { g with theta := theta, sampleIn := 65536, thetaSum := g.thetaSum + theta, thetaCnt := g.thetaCnt + 1 }
    if s.sage.servoState == .holdover then s.requestFreq (s.sage.model.fNeed theta) else s

/-! ## Steps -/

/-- THYME has no issue in this tick. -/
def State.noIssueNow (s : State) : Bool := s.thyme.issues.all fun i => i.gen != BitVec.ofNat 12 s.thyme.tick

/-- The three conditions of R289. -/
def State.stepFits (s : State) : Bool :=
  s.timeRuns && (s.mode.mode == .startup || (s.mode.mode == .quiesce && !s.basilRunning)) && s.sage.pipe.isEmpty && s.noIssueNow

/-- STEP_APPLIED (R289, R290, R34, R497): the pending step moves the counter; a target that has left the range of R497 is dropped. -/
def execStepApplied (s : State) : Ans :=
  onSome (s.sage.pendingStep.filter fun _ => s.stepFits) s fun p =>
    match (p.target.time s.sage.now).filter (· < endTime) with
    | some v => s.applyStep v p.eStep
    | none => s.setSage fun g => { g with pendingStep := none }

/-- SG_INIT_CTL.load: honoured in Start-up test only, for a target in range (R296, R497, Table 9.3). -/
def State.initLoad (s : State) : State :=
  let ns := s.regSoon 0x70010
  let v := (s.regSoon 0x70008 * 1000000000 + ns) * nsUnit
  if s.mode.mode != .startup || ns ≥ 1000000000 || endTime ≤ v then s
  else
    let p : PendingStep := { target := .absolute v, eStep := none }
    s.setSage fun g => { g with pendingStep := some p }

/-- SG_INIT_LOAD (R296, R497). -/
def execSgInitLoad (src : From) (s : State) : Ans :=
  guarded (s.unitWrite src && s.mode.mode == .startup) s fun s => s.inTurn (.write src 0x70014 4 1) State.initLoad

/-- LEAP (R299): at leap_at, utc_offset moves by one, up for an insertion. -/
def execLeap (s : State) : Ans :=
  guarded (s.timeRuns && s.sage.leap != 0 && decide (s.sage.leapAt.toNat * 1000000000 * nsUnit ≤ s.sage.now)) s fun s =>
    s.setSage fun g => { g with utcOffset := if g.leap == 1 then g.utcOffset + 1 else g.utcOffset - 1, leap := 0 }

/-! ## The counter pair -/

/-- COUNTER_RETURN (R292): a repaired counter has agreed for 65,536 ticks in a row. -/
def execCounterReturn (counterB : Bool) (s : State) : Ans :=
  let c := s.sage.counter counterB
  guarded (s.timeRuns && c.failed && !c.retired && decide (65536 ≤ c.agreed)) s fun s =>
    let s := s.setSage fun g => g.setCounter counterB fun c => { c with failed := false, agreed := 0 }
    s.event 0 0x19 1 (if counterB then 1 else 0) [2]

/-! ## Timestamps -/

/-- A setup register of a channel. -/
def State.channelReg (s : State) (c off : Nat) : Nat := s.sg (0x100 + 0x20 * c + off)

/-- The time of a strobe on a channel, in 2^-40 ns (R293). -/
def State.stampOf (s : State) (c : Nat) (x : Strobe) : Nat :=
  let a := s.sage.addend
  (((s.sage.now + x.period * a : Nat) : Int) - (x.phase * a / 16 : Nat) - (s.channelReg c 4 * 2 ^ 24 : Nat)).toNat

/-- The channel is enabled, and its ring is well formed (Table 9.3). -/
def State.channelOn (s : State) (c : Nat) : Bool := bit (s.channelReg c 0) 31

def State.channelOk (s : State) (c : Nat) : Bool :=
  let k := bits (s.channelReg c 0) 3 0
  8 ≤ k && k ≤ 12 && s.channelReg c 0x10 % 4096 == 0

/-- The record of Table 9.2. -/
def State.stampRecord (s : State) (c : Nat) (x : Strobe) (ts : Nat) : Bytes :=
  let k := bits (s.channelReg c 0) 3 0
  let seq := (nth s.sage.chSeq c 0).toNat
  let input := c < 16
  let head := (if seq / 2 ^ k % 2 = 0 then 128 else 0) + (if input && x.egress then 64 else 0)
    + (if s.sage.servoState == .holdover then 32 else 0)
  leBytes 1 head ++ leBytes 1 c ++ leBytes 2 (if input then x.frameId.toNat else 0) ++ leBytes 4 seq ++ timestamp ts
  ++ leBytes 8 s.thyme.tick ++ Machine.zeros 4

/-- PD_MAIN's memory ports take timestamp records: not in Sense, a sleep or Alarm (Table 14.1). -/
def State.portsRun (s : State) : Bool := s.mainRuns && !s.inAlarm

/-- SAGE stamps a strobe and writes its record under the domain of Q1's owner (R293, R294), unless its host link is down (R111); the stamp, when there is one. -/
def State.stamp (s : State) (c : Nat) (x : Strobe) : State × Option Nat :=
  if !s.timeRuns || s.inAlarm || !s.channelOn c then (s, none)
  else if !s.channelOk c then (s.event 0 0x24 2 c [], none)
  else
    let ts := s.stampOf c x
    let r := s.stampRecord c x ts
    let k := bits (s.channelReg c 0) 3 0
    let seq := nth s.sage.chSeq c 0
    let a := s.channelReg c 0x10 % 2 ^ 52 + seq.toNat % 2 ^ k * 32
    let s := s.setSage fun g => { g with chSeq := g.chSeq.set c (seq + 1) }
    (if s.portsRun && !s.linkOff s.q1Owner then (s.issue .write .metadata (bits (s.sg 0) 8 0) a 32 r fun _ => .stamp c).sendAll else s, some ts)

/-- TIMESTAMP_STROBE (R293). -/
def execTimestampStrobe (ch : Nat) (strobe : Strobe) (s : State) : Ans :=
  guarded (ch < 16) s fun s => (s.stamp ch strobe).1

/-- Offset of a stamp from the nearest whole TAI second, in 2^-16 ns (Table 9.10). -/
def ppsOffset (ts : Nat) : Int :=
  let second := 1000000000 * 65536
  let r := ts / 2 ^ 24 % second
  if 2 * r < second then r else (r : Int) - second

/-- A PPS input's edge is stamped, and is the servo's input in its mode (R293, R309). -/
def State.ppsEdge (s : State) (n : Nat) (x : Strobe) : State :=
  match s.stamp (16 + n) x with
  | (s, some ts) =>
    let o := ppsOffset ts
    if s.sage.servoMode == (if n = 0 then .pps0 else .pps1) then s.acceptInput o o.natAbs none else s
  | (s, none) => s

/-! ## PPS outputs -/

/-- The instant of output n's edge, in 2^-40 ns from the first ck_time edge of this tick: a whole second plus SG_PPSOFFn modulo one second, when it falls before the first edge of the next tick (R295). -/
def State.ppsDue (s : State) (n : Nat) : Option Nat :=
  let second := 1000000000 * nsUnit
  let v := s.sg (0x44 + 8 * n)
  let off : Int := if v < 2 ^ 31 then (v : Int) else (v : Int) - 2 ^ 32
  let at' := (off % 1000000000).toNat * nsUnit
  let wait := (at' + second - s.sage.now % second) % second
  if wait < s.sage.nextEdge - s.sage.now then some wait else none

/-- PPS_OUTPUT_EDGE (R295): the edge is given as sixteenths of ck_time periods from the start of the tick; the pulse lasts width ticks. -/
def execPpsOutputEdge (n : Nat) (s : State) : Ans :=
  onSome ((s.ppsDue n).filter fun _ => n < 2 && s.timeRuns && bit (s.sg (0x40 + 8 * n)) 31) s fun w =>
    let e := s.thyme.tick + bits (s.sg (0x40 + 8 * n)) 22 0
    let s := s.setSage fun g => if n = 0 then { g with ppsEnd0 := some e } else { g with ppsEnd1 := some e }
    s.emit (.pps n (16 * w / s.sage.addend))

end Sys2Proof.Machine
end

