-- ==== Sys2Proof/Machine/Mailbox.lean ====
section
/-! DEFINITION. Mailbox pages (R322 to R325, R329) and the end of a migration's source side (R333 to R336). -/

namespace Sys2Proof.Machine

/-! ## The areas' memory -/

/-- A byte of an area; an unlisted one reads zero. -/
def memGet (m : Memory) (a : Nat) : Byte := assocD m a 0

/-- Write one byte, keeping the canonical form. -/
def memSet : Memory → Nat → Byte → Memory
  | [], a, b => if b = 0 then [] else [(a, b)]
  | (x, y) :: m, a, b =>
    if a < x then (if b = 0 then (x, y) :: m else (a, b) :: (x, y) :: m)
    else if a = x then (if b = 0 then m else (a, b) :: m)
    else (x, y) :: memSet m a b

/-- Write bytes from an offset on. -/
def memWrite (m : Memory) (a : Nat) : Bytes → Memory
  | [] => m
  | b :: bs => memWrite (memSet m a b) (a + 1) bs

/-! ## Access -/

/-- Who may write a field of a mailbox page: the tenant whose page it is, or the manager (R322). -/
inductive Side where
  | tenant | manager
  deriving DecidableEq, Repr

/-- The domain that a side stands for on a page. -/
def Side.domain (x : Side) (page : Nat) : Nat :=
  match x with
  | .tenant => page
  | .manager => 0

/-- A mailbox access event (R322): the page's domain, the writing domain and the offset. Domain 0's page is reserved, and a write to it is ignored (R474); a domain that is being reset writes nothing (R327). -/
def State.mailboxAccess (s : State) (src : From) (page off : Nat) : State :=
  if page = 0 || s.resetting src.domain then s else s.event 0 0x14 1 page (leBytes 2 src.domain ++ leBytes 2 off)

/-- A write of a page's field reaches it from the domain that R322 names, not on P1 (R463), and not from a domain that is being reset (R327). -/
def State.mailboxField (s : State) (src : From) (page off : Nat) (side : Side) (f : Domain → State → State) : State :=
  if s.resetting src.domain then s
  else match (s.domain? page).filter fun _ => page != 0 && src.port != .p1 && src.domain == side.domain page with
    | some x => f x s
    | none => s.mailboxAccess src page off

/-- The event hold of a domain (R369). -/
def State.eventHold (s : State) (d : Nat) : Bool := (s.evq? d).any (·.hold)

/-- A write of a mailbox page that is no post arrives: Drain does not hold it (R369, R433). -/
def State.mailboxWrite (s : State) (src : From) (f : State → State) : Ans :=
  guarded ((s.pagesOpen || s.mode.mode == .drain) && !s.eventHold src.domain) s fun s => (f s).flow

/-- A post arrives: Drain and the event hold keep it at the port (R369, R433). -/
def State.mailboxPost (s : State) (src : From) (f : State → State) : Ans :=
  guarded (s.pagesOpen && !s.writeHeld src.domain) s fun s => (f s).flow

def State.setMailbox (s : State) (d : Nat) (f : Mailbox → Mailbox) : State := s.setDomain d fun x => { x with mailbox := f x.mailbox }

/-- The error bit of a side (Table 10.3). -/
def Mailbox.setErr (m : Mailbox) (x : Side) : Mailbox :=
  match x with
  | .tenant => { m with t2mErr := true }
  | .manager => { m with m2tErr := true }

/-- A discarded write: the sender's error bit and a mailbox error event (R323, R324; Table 11.13, type 0x26). -/
def State.mailboxError (s : State) (page : Nat) (side : Side) (why : Nat) : State :=
  (s.setMailbox page (·.setErr side)).event (side.domain page) 0x26 2 page [BitVec.ofNat 8 why]

/-! ## Posts and acks -/

/-- The area that a side writes is full. -/
def Mailbox.full (m : Mailbox) (x : Side) : Bool :=
  match x with
  | .tenant => m.t2mFull
  | .manager => m.m2tFull

/-- Set what an area holds: a message's tag and length, or none. -/
def Mailbox.setFull (m : Mailbox) (x : Side) (full : Bool) (tag : BitVec 16) (len : BitVec 11) : Mailbox :=
  match x with
  | .tenant => { m with t2mFull := full, t2mTag := tag, t2mLen := len }
  | .manager => { m with m2tFull := full, m2tTag := tag, m2tLen := len }

/-- The side that receives. -/
def Side.other : Side → Side
  | .tenant => .manager
  | .manager => .tenant

/-- Number of the direction that a side sends in (Table 11.13, types 0x25 and 0x27). -/
def Side.num : Side → Nat
  | .tenant => 0
  | .manager => 1

/-- A post by a side (R323); a tenant's takes its domain out of STOPPED (R336). -/
def State.post (s : State) (page : Nat) (side : Side) (w : BitVec 32) (x : Domain) : State :=
  let tag : BitVec 16 := BitVec.ofNat 16 (w.toNat / 65536)
  let len : BitVec 11 := w.setWidth 11
  if x.mailbox.enabled && !x.mailbox.full side && 1 ≤ len.toNat && len.toNat ≤ 1024 then
    let s := s.setMailbox page fun m => m.setFull side true tag len
    let s := s.event (side.other.domain page) 0x25 2 tag.toNat (leBytes 2 page ++ leBytes 2 len.toNat ++ leBytes 1 side.num)
    if side == .tenant then s.reenter page else s
  else s.mailboxError page side 1

/-- MB_T2M_DB (R323). -/
def execMbT2mDb (src : From) (page : Nat) (w : BitVec 32) (s : State) : Ans :=
  s.mailboxPost src fun s => s.mailboxField src page 0x800 .tenant fun x s => s.post page .tenant w x

/-- MB_M2T_DB (R323). -/
def execMbM2tDb (src : From) (page : Nat) (w : BitVec 32) (s : State) : Ans :=
  s.mailboxPost src fun s => s.mailboxField src page 0x804 .manager fun x s => s.post page .manager w x

/-- A disabling mailbox whose areas are both empty is idle (R325). -/
def Mailbox.settled (m : Mailbox) : Mailbox := if m.t2mFull || m.m2tFull then m else { m with disabling := false }

/-- A receiver acks the area that side writes (R324); an empty one is refused (R329). -/
def State.ack (s : State) (page : Nat) (side : Side) (x : Domain) : State :=
  if x.mailbox.full side then
    let s := s.setMailbox page fun m => (m.setFull side false 0 0).settled
    s.event (side.domain page) 0x27 2 page (leBytes 1 side.num)
  else (s.mailboxError page side.other 3).event 0 0x15 1 page [7]

/-- T2M_ACK: the manager has read the T2M message (R324). -/
def execT2mAck (src : From) (page : Nat) (s : State) : Ans :=
  s.mailboxWrite src fun s => s.mailboxField src page 0x808 .manager fun x s => s.ack page .tenant x

/-- M2T_ACK: the tenant has read the M2T message (R324). -/
def execM2tAck (src : From) (page : Nat) (s : State) : Ans :=
  s.mailboxWrite src fun s => s.mailboxField src page 0x808 .tenant fun x s => s.ack page .manager x

/-- A write of MB_CTL (R325). -/
def State.mailboxControl (s : State) (page : Nat) (w : BitVec 32) (x : Domain) : State :=
  let m := x.mailbox
  let idle := !m.t2mFull && !m.m2tFull
  match w.getLsbD 1, w.getLsbD 0 with
  | true, false => s.setMailbox page fun m => ({ m with enabled := false, disabling := true } : Mailbox).settled
  | false, true =>
    if idle && !m.enabled && !m.disabling then s.setMailbox page fun m => { m with enabled := true }
    else s.setMailbox page (·.setErr .manager)
  | true, true => s.setMailbox page (·.setErr .manager)
  | false, false => s

/-- MAILBOX_DISABLE (R325): a write of MB_CTL with the disable bit. -/
def execMailboxDisable (src : From) (page : Nat) (w : BitVec 32) (s : State) : Ans :=
  s.mailboxWrite src fun s => s.mailboxField src page 0x80C .manager fun x s => s.mailboxControl page (w ||| 2) x

/-- MAILBOX_ENABLE (R325): a write of MB_CTL with the enable bit. -/
def execMailboxEnable (src : From) (page : Nat) (w : BitVec 32) (s : State) : Ans :=
  s.mailboxWrite src fun s => s.mailboxField src page 0x80C .manager fun x s => s.mailboxControl page (w ||| 1) x

/-- The side whose area holds bytes off to off + n whole. -/
def areaSide (off n : Nat) : Option Side :=
  if off + n ≤ 0x400 then some .tenant else if 0x400 ≤ off && off + n ≤ 0x800 then some .manager else none

/-- MAILBOX_AREA_WRITE (R322, R324): applied whole, unless the area is frozen. -/
def execMailboxAreaWrite (src : From) (page offset : Nat) (data : Bytes) (s : State) : Ans :=
  s.mailboxWrite src fun s =>
    match areaSide offset data.length with
    | none => s.mailboxAccess src page offset
    | some side => s.mailboxField src page offset side fun x s =>
      if x.mailbox.full side then s.mailboxError page side 2
      else s.setMailbox page fun m => { m with area := memWrite m.area offset data }

/-! ## The dirty log -/

/-- DIRTY_LOG_RECORD_WRITE (R333): the record of the oldest closed run of a domain. -/
def execDirtyLogRecordWrite (domain : Nat) (s : State) : Ans :=
  guarded ((s.domain? domain).any fun x => !x.mig.closed.isEmpty) s fun s => (s.dirtyStep domain).sendAll

/-- OVERFLOW_CLEAR (R334): a write of 1 to DL_STATUS.overflow by the manager; recording resumes from the next tick. -/
def execOverflowClear (src : From) (page : Nat) (s : State) : Ans :=
  s.mailboxWrite src fun s => s.mailboxField src page 0x828 .manager fun _ s =>
    if (s.domain? page).any (·.mig.overflow) then
      (s.setDomain page fun x => { x with mig := { x.mig with overflow := false, paused := true } }).addChange (.resumeLog page)
    else s

/-- Every condition of R335 but the stop marker. -/
def State.stopReady (s : State) (x : Domain) : Bool :=
  let d := x.num
  x.mig.state == .stopping
  && (s.fennel.queues.all fun q => q.domain != d || (q.idle && !s.fennel.arrivals.any (·.queue == q.num)))
  && (s.fennel.jobs.all fun j => j.domain != d) && (s.thyme.issues.all fun i => i.role == .test || i.domain != d)
  && (s.keyBus.reqs.all fun r => !r.keyOf d) && (s.dill.ctxs.all fun c => c.domain != d)
  && (s.txns.all fun t => t.domain != d && t.purpose != .dirty d)
  && ((s.evq? d).all fun q => q.staged.isEmpty && q.held.isEmpty && q.gap = 0)
  && x.mig.openRun.isNone && x.mig.closed.isEmpty && !x.mig.overflow

/-- Issue the stop marker (R335, Table 10.7); a full ring drops it with overflow. -/
def State.writeMarker (s : State) (x : Domain) : State :=
  let d := x.num
  let s' := s.dirtyWrite d (x.mig.stopSeq + 1).toNat 0 1 (.marker d)
  s'.setDomain d fun y => if y.mig.overflow then y else { y with mig := { y.mig with marker := .issued } }

/-- STOPPED (R335): at a boundary with every condition met the marker is written, and at the first one after its confirmation the domain is STOPPED. -/
def execStopped (domain : Nat) (s : State) : Ans :=
  onSome ((s.domain? domain).filter s.stopReady) s fun x =>
    match x.mig.marker with
    | .none => (s.writeMarker x).sendAll
    | .issued => s
    | .confirmed =>
      let n := x.mig.stopSeq + 1
      let s := s.setDomain domain fun y => { y with mig := { y.mig with state := .stopped, stopSeq := n, marker := .none } }
      s.event 0 0x1A 1 domain (leBytes 1 3 ++ Machine.zeros 3 ++ leBytes 4 n.toNat)

end Sys2Proof.Machine
end

