-- ==== Sys2Proof/Machine/Admin.lean ====
section
/-! DEFINITION. The admin commands that build and describe (R343 to R349, R357, R360): Identify, Get Log Page, Get and Set Features, Create and Delete Queue, the domain commands (R317 to R321) and the microcode commands (R277, R279, R280). -/

namespace Sys2Proof.Machine

/-! ## Taking effect -/

/-- The admin entry of a count that waits to take effect, when it is the named command with an option that p accepts (R343). -/
def State.adminJob (s : State) (c : BitVec 17) (op : Nat) (p : Nat → Bool) : Option Job :=
  (s.job? 0 c).filter fun j => j.phase == .command && j.status.isNone && eOp j.entry == op && p (eSub j.entry) && s.plansRun

/-- The entry takes effect. -/
def State.adminDo (s : State) (c : BitVec 17) (op : Nat) (p : Nat → Bool) (f : Job → State) : Ans :=
  onSome (s.adminJob c op p) s fun j => (f j).flow

/-- s as the next boundary will have it, for checks of what exists. -/
def State.soon (s : State) : State := s.applyChanges

/-! ## Identify -/

/-- Codes of the operating modes (Table 14.1). -/
def modeNum : Mode → Nat
  | .cold => 0
  | .sense => 1
  | .startup => 2
  | .provisioning => 3
  | .service => 4
  | .degraded => 5
  | .drain => 6
  | .quiesce => 7
  | .lightSleep => 8
  | .deepSleep => 9
  | .authDebug => 10
  | .alarm => 11

/-- Codes of the bank states (Table 8.9). -/
def bankNum : BankState → Nat
  | .empty => 0
  | .verifying => 1
  | .standby => 2
  | .active => 3
  | .draining => 4

/-- A bank in Identify. -/
def Bank.identify (b : Bank) : Bytes := leBytes 1 (bankNum b.state) ++ leBytes 1 b.svn ++ leBytes 1 b.sigKind ++ [0] ++ leBytes 4 b.build.toNat

/-- Operation codes accepted on data queues, as a bit field of 32 bytes (R123). -/
def opcodeBits : Bytes :=
  (List.range 32).map fun i => BitVec.ofNat 8 (((List.range 8).filter fun k =>
    opcodeOk 2 .a (8 * i + k) || opcodeOk 2 .b (8 * i + k) || opcodeOk 2 .c (8 * i + k)).map (2 ^ ·)).sum

/-- Key-bus lanes in service. -/
def State.lanesUp (s : State) : Nat := (s.sorrel.kb.filter (·.health == .healthy)).length

/-- Spare ports in service. -/
def State.sparePorts (s : State) : Nat := (s.sorrel.ports.filter (·.role == .spare)).length

/-- The attestation public key and its key_id; zero where there is no key (R282, R397). -/
def State.attestation (s : State) : Bytes × Bytes :=
  match s.lovage.attKey with
  | some d => (attestPublic d, (digest 0x03 0 (attestPublic d)).take 8)
  | none => (Machine.zeros 97, Machine.zeros 8)

/-- The mode that Duern reports (R423): from the latch of an alarm until the ports stop, the mode of the latch, since Duern is in Alarm only then (R415). -/
def State.reportedMode (s : State) : Nat := if s.mode.aborting then s.aon.alarmMode.toNat else modeNum s.mode.mode

/-- Identify data (Table 11.11). -/
def State.identify (s : State) : Bytes :=
  let (pk, id) := s.attestation
  padTo 4096 (
    leBytes 4 0x000B0001 ++ leBytes 4 Config.hwId.toNat ++ leBytes 4 (s.lovage.instanceId.getD 0)
    ++ leBytes 1 (lifeNum s.lovage.life) ++ leBytes 1 s.reportedMode ++ Machine.zeros 2
    ++ leBytes 1 s.healthyLanes.length ++ leBytes 1 s.reserveLanes.length ++ leBytes 1 s.healthyDill
    ++ leBytes 1 s.litBasil ++ leBytes 1 s.reserveSeqs.length ++ leBytes 1 s.activePorts ++ leBytes 1 s.sparePorts
    ++ leBytes 1 s.lanesUp
    ++ leBytes 2 1024 ++ leBytes 2 512 ++ leBytes 4 65536
    ++ s.basil.bankA.identify ++ s.basil.bankB.identify ++ leBytes 1 s.lovage.antiRollback ++ Machine.zeros 3
    ++ leBytes 4 131072 ++ Machine.zeros 24 ++ pk ++ Machine.zeros 7 ++ id ++ opcodeBits)

/-- IDENTIFY (R360). -/
def execIdentify (c : BitVec 17) (s : State) : Ans := s.adminDo c 0x01 (· == 0) fun j => s.adminWrite j s.identify 0 0

/-! ## Log pages -/

/-- A Get Log Page (R357). -/
def State.getLog (s : State) (c : BitVec 17) (page : Nat) : Ans := s.adminDo c 0x02 (· == page) fun _ => s.askPage c

/-- GET_LOG_DEFERRED_ERROR (R356, R358). -/
def execGetLogDeferredError (c : BitVec 17) (s : State) : Ans := s.getLog c 1

/-- GET_LOG_PLAN (R359). -/
def execGetLogPlan (c : BitVec 17) (s : State) : Ans := s.getLog c 2

/-- GET_LOG_MIGRATION_STATE (R337): of a domain that exists (R344). -/
def execGetLogMigrationState (c : BitVec 17) (s : State) : Ans :=
  s.adminDo c 0x02 (· == 3) fun j => s.onTarget j fun _ => s.askPage c

/-- GET_LOG_SELF_TEST (R359). -/
def execGetLogSelfTest (c : BitVec 17) (s : State) : Ans := s.getLog c 4

/-! ## Features -/

/-- The queue that an entry names, when the target domain owns it (R349). -/
def State.namedQueue (s : State) (j : Job) (off : Nat) : Option Queue :=
  (s.queue? (fieldLe j.entry off 2)).filter (·.domain == j.target)

/-- An entry that names a queue of its target domain, or is malformed (R344, R349). -/
def State.onQueue (s : State) (j : Job) (off : Nat) (f : Queue → State) : State :=
  s.onTarget j fun _ => match s.namedQueue j off with
    | some x => f x
    | none => s.adminFail j.count .malformed off

/-- GET_FEATURES_INTERRUPT_COALESCING (R349): laid out as in Create Queue. -/
def execGetFeaturesInterruptCoalescing (c : BitVec 17) (s : State) : Ans :=
  s.adminDo c 0x03 (· == 1) fun j => s.onQueue j 32 fun x =>
    s.adminWrite j (padTo 32 (leBytes 2 x.num ++ leBytes 1 (genNum x.gen) ++ leBytes 1 x.n ++ leBytes 2 x.vector.toNat
      ++ leBytes 1 x.coalCount.toNat ++ leBytes 1 (if x.urgent then 1 else 0) ++ leBytes 2 x.coalTicks.toNat)) 0 0

/-- GET_FEATURES_EVENT_QUEUE (R349): Table 11.8. -/
def execGetFeaturesEventQueue (c : BitVec 17) (s : State) : Ans :=
  s.adminDo c 0x03 (· == 2) fun j => s.onTarget j fun x =>
    let data := match s.evq? x.num with
      | some q => leBytes 8 q.base ++ leBytes 2 q.vector.toNat ++ leBytes 1 q.intPrio.toNat ++ [0] ++ leBytes 2 q.timeout.toNat
          ++ leBytes 1 q.hwm.toNat ++ leBytes 1 q.lwm.toNat
      | none => []
    s.adminWrite j (padTo 32 data) 0 0

/-- GET_FEATURES_MIGRATION_CONTROL (Table 11.5): stop_seq stands at byte 44 of the entry's layout, over the upper part of the ring base (notes/assumptions/41). -/
def execGetFeaturesMigrationControl (c : BitVec 17) (s : State) : Ans :=
  s.adminDo c 0x03 (· == 3) fun j => s.onTarget j fun x =>
    let m := x.mig
    s.adminWrite j (padTo 32 ([0] ++ leBytes 1 (migNum m.state) ++ Machine.zeros 6 ++ leBytes 4 m.base ++ leBytes 4 m.stopSeq.toNat
      ++ leBytes 1 m.k)) 0 0

/-- SET_FEATURES_INTERRUPT_COALESCING (R349, Table 3.6). -/
def execSetFeaturesInterruptCoalescing (c : BitVec 17) (s : State) : Ans :=
  s.adminDo c 0x04 (· == 1) fun j => s.onQueue j 32 fun x =>
    let e := j.entry
    (s.addChange (.interrupts x.num (BitVec.ofNat 16 (fieldLe e 36 2)) (byteAt e 38) (BitVec.ofNat 16 (fieldLe e 40 2))
      ((byteAt e 39).getLsbD 0))).adminOk c 0

/-- Event queue settings of a domain at an offset of an entry; none when they break Table 11.8. -/
def eventSettings (d : Nat) (e : Bytes) (o : Nat) (restart : Bool) : Option Change :=
  let base := fieldLe e o 8
  let hwm := byteAt e (o + 14)
  let lwm := byteAt e (o + 15)
  if base % 4096 = 0 && base < 2 ^ 52 && 1 ≤ hwm.toNat && hwm.toNat ≤ stagingSize d && lwm.toNat < hwm.toNat then
    some (.events d base (BitVec.ofNat 16 (fieldLe e (o + 8) 2)) ((byteAt e (o + 10)).setWidth 2)
      (BitVec.ofNat 16 (fieldLe e (o + 12) 2)) hwm lwm restart)
  else none

/-- SET_FEATURES_EVENT_QUEUE (R328, R367). -/
def execSetFeaturesEventQueue (c : BitVec 17) (s : State) : Ans :=
  s.adminDo c 0x04 (· == 2) fun j => s.onTarget j fun x =>
    match eventSettings x.num j.entry 32 true with
    | some ch => (s.addChange ch).adminOk c 0
    | none => s.adminFail c .malformed 32

/-! ## Migration control (Table 10.6) -/

/-- A Migration control action on its domain: domain 0 is never migrated (R317), and an unknown action is malformed. -/
def State.migrationDo (s : State) (c : BitVec 17) (action : Nat) (f : Job → Domain → State) : Ans :=
  onSome ((s.adminJob c 0x04 (· == 3)).filter fun j => (byteAt j.entry 32).toNat == action) s fun j =>
    (s.onTarget j fun x => if x.num = 0 then s.adminFail c .malformed 24 else f j x).flow

/-- The action takes effect on the domain's migration state; result0 is stop_seq after it. -/
def State.migrationSet (s : State) (c : BitVec 17) (x : Domain) (m : Migration) : State :=
  (s.setDomain x.num fun x => { x with mig := m }).adminOk c m.stopSeq.toNat

/-- LOG_START (R331). -/
def execLogStart (c : BitVec 17) (s : State) : Ans :=
  s.migrationDo c 1 fun j x =>
    let base := fieldLe j.entry 40 8
    let k := (byteAt j.entry 48).toNat
    if s.q1Owner == x.num then s.adminRefuse c .unsupported
    else if base % 4096 != 0 then s.adminFail c .malformed 40
    else if k < 8 || 20 < k then s.adminFail c .malformed 48
    else if x.mig.state != .normal then s.adminRefuse c .resourceBusy
    else s.migrationSet c x { x.mig with
      state := .logging, base := base, k := k, head := 0, tail := 0, overflow := false, overflowed := false, paused := false,
      marker := .none, ending := false }

/-- STOP (R331, R335). -/
def execStop (c : BitVec 17) (s : State) : Ans :=
  s.migrationDo c 2 fun _ x =>
    if x.mig.state == .logging then s.migrationSet c x { x.mig with state := .stopping } else s.adminRefuse c .resourceBusy

/-- LOG_END (R331, R333). -/
def execLogEnd (c : BitVec 17) (s : State) : Ans :=
  s.migrationDo c 3 fun _ x =>
    if x.mig.state == .normal then s.adminRefuse c .resourceBusy else s.migrationSet c x x.mig.logOff

/-- Set the counts of a queue (R338). -/
def Queue.restored (q : Queue) (n : BitVec 17) : Queue := { q with head := n, tail := n, validated := n }

/-- RESTORE_COUNT (R338). -/
def execRestoreCount (c : BitVec 17) (s : State) : Ans :=
  s.migrationDo c 4 fun j x =>
    match s.namedQueue j 34 with
    | none => s.adminFail c .malformed 34
    | some q =>
      if x.mig.state != .normal || q.head != 0 || q.tail != 0 || q.used then s.adminRefuse c .resourceBusy
      else (s.setQueue q.num (·.restored (BitVec.ofNat 17 (fieldLe j.entry 36 4)))).adminOk c x.mig.stopSeq.toNat

/-! ## Queues -/

/-- A queue as Create Queue makes it (R77, R346): its counts and page at their Reset columns. -/
def newQueue (num domain : Nat) (g : Gen) (n base : Nat) (e : Bytes) : Queue :=
  { num := num, domain := domain, gen := g, n := n, base := base, vector := BitVec.ofNat 16 (fieldLe e 36 2), coalCount := byteAt e 38,
    coalTicks := BitVec.ofNat 16 (fieldLe e 40 2), urgent := (byteAt e 39).getLsbD 0, head := 0, tail := 0, enabled := true,
    disabling := false, stale := [], recheck := [], unsound := [], dbError := false, pushDiscard := false, linkDown := false, pendingInt := 0, firstPending := none,
    lastInt := none, urgentDue := false, copies := [], validated := 0, pushHalf := none, chainLen := 0,
    chainBroken := false, used := false }

/-- Generation of a code (Table 11.4). -/
def genOf (n : Nat) : Option Gen :=
  match n with
  | 0 => some .a
  | 1 => some .b
  | 2 => some .c
  | _ => none

/-- CREATE_QUEUE (R74, R76, R297, R346). -/
def execCreateQueue (c : BitVec 17) (s : State) : Ans :=
  s.adminDo c 0x08 (· == 0) fun j => s.onTarget j fun x =>
    let e := j.entry
    let q := fieldLe e 32 2
    let n := (byteAt e 35).toNat
    let base := fieldLe e 48 8
    match genOf (byteAt e 34).toNat with
    | none => s.adminFail c .malformed 34
    | some g =>
      if n < 4 || 16 < n then s.adminFail c .malformed 35
      else if q = 0 || (q = 1 && bits (s.sg 0) 8 0 != x.num) then s.adminRefuse c .unsupported
      else if (s.soon.queue? q).isSome then s.adminRefuse c .resourceBusy
      else if q = 1 && g != .c then s.adminFail c .malformed 34
      else if base = 0 || base % 4096 != 0 || 2 ^ 52 < base + 2 ^ n * g.size then s.adminFail c .malformed 48
      else (s.addChange (.addQueue (newQueue q x.num g n base e))).adminOk c 0

/-- s without a queue: writes to its page are discarded from now on (R87, R347). -/
def State.deleteQueue (s : State) (q : Nat) : State :=
  let other (x : Queue) : Bool := x.num != q
  let s := s.killTxns fun t => match t.purpose with
    | .entry k _ _ _ => k == q
    | _ => false
  let s := s.dropArrivals (· == q)
  { s with fennel := { s.fennel with queues := s.fennel.queues.filter other } }

/-- DELETE_QUEUE (R108, R347). -/
def execDeleteQueue (c : BitVec 17) (s : State) : Ans :=
  s.adminDo c 0x09 (· == 0) fun j =>
    s.onTarget j fun _ =>
    if fieldLe j.entry 32 2 = 0 then s.adminRefuse c .unsupported
    else s.onQueue j 32 fun x =>
      if !x.idle then s.adminRefuse c .resourceBusy else (s.deleteQueue x.num).adminOk c 0

/-! ## Domains -/

/-- Settings of Domain Create and Domain Resize (Table 11.4). -/
structure DomainSettings where
  plan : PlanRec
  nsBase : Nat
  nsLog2 : Nat
  slotRes : Nat
  saveBase : Nat
  saveCount : Nat
  events : Change
  deriving DecidableEq, Repr

/-- The settings of an entry for domain d, or the offset of the first field that is out of range (R41, R318, R348). -/
def domainSettings (d : Nat) (e : Bytes) (restart : Bool) : DomainSettings ⊕ Nat :=
  let base := fieldLe e 48 3
  let k := (byteAt e 51).toNat
  match parsePlan (sub e 32 16) with
  | none => .inr 32
  | some r =>
    if 24 < k then .inr 51
    else if 2 ^ 24 < base + 2 ^ k then .inr 48
    else if 65536 < fieldLe e 52 4 then .inr 52
    else if fieldLe e 56 8 % 4096 != 0 then .inr 56
    else match eventSettings d e 72 restart with
      | none => .inr 72
      | some ev => .inl { plan := r, nsBase := base, nsLog2 := k, slotRes := fieldLe e 52 4, saveBase := fieldLe e 56 8,
                          saveCount := fieldLe e 64 2, events := ev }

/-- Slot reservations of every domain but d. -/
def State.otherSlots (s : State) (d : Nat) : Nat := ((s.domains.filter fun x => !(x.num == d)).map (·.slotRes)).sum

/-- Stage a domain's record (R59, R60). -/
def State.stageRecord (s : State) (d : Nat) (r : PlanRec) : State :=
  let s := s.stagePlan d (some r)
  { s with thyme := { s.thyme with revisions := assocSet s.thyme.revisions d r.revision } }

/-- Migration state after Domain Create (R335, Table 10.3). -/
def Migration.fresh : Migration :=
  { state := .normal, base := 0, k := 0, head := 0, tail := 0, overflow := false, overflowed := false, paused := false, stopSeq := 0, openRun := none,
    closed := [], marker := .none, ending := false }

/-- A domain as Domain Create makes it (R318). -/
def newDomain (d : Nat) (x : DomainSettings) : Domain :=
  { num := d, nsBase := x.nsBase, nsLog2 := x.nsLog2, slotRes := x.slotRes, saveBase := x.saveBase, saveCount := x.saveCount,
    deferred := false, resetting := none, deleting := false, linkDown := false, mailbox := .fresh, mig := .fresh, resetFlags := 0 }

/-- An event queue with no record. -/
def newEventQ (d base : Nat) (vector : BitVec 16) (intPrio : BitVec 2) (timeout : BitVec 16) (hwm lwm : BitVec 8) (tick : Nat) : EventQ :=
  { domain := d, base := base, vector := vector, intPrio := intPrio, timeout := timeout, hwm := hwm, lwm := lwm, count := 0, headWord := 0,
    staged := [], gap := 0, gapTick := 0, lastStaged := tick, lastHeadRead := 0, hold := false, recovering := false, held := [],
    lastInt := none }

/-- The event queue of settings. -/
def eventQOf (ch : Change) (tick : Nat) : Option EventQ :=
  match ch with
  | .events d b v p t h l _ => some (newEventQ d b v p t h l tick)
  | _ => none

/-- DOMAIN_CREATE (R317, R318). -/
def execDomainCreate (c : BitVec 17) (s : State) : Ans :=
  s.adminDo c 0x0C (· == 0) fun j =>
    let d := j.target
    if d = 0 then s.adminFail c .malformed 24
    else match domainSettings d j.entry true with
    | .inr off => s.adminFail c .malformed off
    | .inl x =>
      let t := s.soon
      let used := (t.domain? d).isSome || (s.thyme.plan.lookup d).isSome || s.thyme.staged.any (·.domain == d)
      match eventQOf x.events s.thyme.tick with
      | none => s
      | some ev =>
        if used || !s.wouldAdmit d x.plan || 65536 < t.otherSlots d + x.slotRes then s.adminRefuse c .resourceBusy
        else ((s.stageRecord d x.plan).addChange (.addDomain (newDomain d x) ev)).adminOk c s.effectEpoch

/-- The domain holds a saved context record. -/
def State.holdsSaved (s : State) (d : Nat) : Bool := s.dill.ctxs.any fun x => x.domain == d && x.place != .onDie

/-- DOMAIN_RESIZE (R319, R320, R348, Table 10.2): every setting takes effect or none; a saved context record refuses it. -/
def execDomainResize (c : BitVec 17) (s : State) : Ans :=
  s.adminDo c 0x0D (· == 0) fun j => s.onTarget j fun y =>
    let d := y.num
    match domainSettings d j.entry false with
    | .inr off => s.adminFail c .malformed off
    | .inl x =>
      if !s.wouldAdmit d x.plan || 65536 < s.soon.otherSlots d + x.slotRes || x.slotRes < s.pinnedOf d
          || s.holdsSaved d then s.adminRefuse c .resourceBusy
      else
        let s' := (s.stageRecord d x.plan).addChange (.settings d x.nsBase x.nsLog2 x.slotRes x.saveBase x.saveCount)
        (s'.addChange x.events).adminOk c s.effectEpoch

/-- A domain reset that Q0 asks for, with or without delete (R317, R321, R327, R345). -/
def State.adminResetDomain (s : State) (c : BitVec 17) (delete : Bool) : Ans :=
  onSome ((s.adminJob c 0x0E (· == if delete then 1 else 0)).filter fun j => !j.resetMark) s fun j =>
    (s.onTarget j fun x =>
      if x.num = 0 then s.adminFail c .malformed 24
      else
        let s := s.setJob 0 c fun j => { j with resetMark := true }
        let s := s.setDomain x.num fun x => { x with deleting := x.deleting || delete }
        s.triggerReset x.num s.thyme.tick).flow

/-- DOMAIN_RESET (R327): it completes with the reset. -/
def execDomainReset (c : BitVec 17) (s : State) : Ans := s.adminResetDomain c false

/-- DOMAIN_DELETE: Domain Reset with its delete option (R321). -/
def execDomainDelete (c : BitVec 17) (s : State) : Ans := s.adminResetDomain c true

/-! ## Microcode -/

/-- Bank that a microcode command names. -/
def Job.bankB (j : Job) : Bool := bit (eSub j.entry) 0

/-- MICROCODE_DOWNLOAD (R277): the bank becomes VERIFYING and its package is read; a length that no package has fails step 1 of Table 8.11. -/
def execMicrocodeDownload (c : BitVec 17) (s : State) : Ans :=
  onSome ((s.adminJob c 0x05 anySub).filter fun _ => s.basil.verify.all fun v => v.admin != some c) s fun j =>
    let b := j.bankB
    let st := (s.basil.bank b).state
    (if (st != .empty && st != .standby) || s.switching b then s.adminRefuse c .resourceBusy
     else if eLen j.entry < 4112 || 139891 < eLen j.entry then (s.setBank b fun _ => .none).adminFail c .malformed 8
     else s.startVerify b (some c) false j.buffer (eLen j.entry)).flow

/-- MICROCODE_ACTIVATE (R279, R280): the switch takes place in the next tick; until then its bank takes no other command (notes/assumptions/79). -/
def execMicrocodeActivate (c : BitVec 17) (s : State) : Ans :=
  s.adminDo c 0x06 anySub fun j =>
    let b := j.bankB
    if (s.basil.bank b).state != .standby || s.switching b then s.adminRefuse c .resourceBusy
    else if !s.svnOk (s.basil.bank b) then s.adminRefuse c .unsupported
    else ({ s with basil := { s.basil with switch := some (b, bit (eSub j.entry) 1) } } : State).adminOk c (s.thyme.tick + 1)

end Sys2Proof.Machine
end

