-- ==== Sys2Proof/Machine/Lines.lean ====
section
/-! DEFINITION. Context lines on the fabric (R237, R453, Table 15.7): claims, evictions and snoops, and the restore of a saved context (R236). -/

namespace Sys2Proof.Machine

/-- Poison bits with which a line leaves the writeback buffer: of the flits that fail their check there (R448). -/
def WbLine.poison (l : WbLine) : List Bool := flitFails l.checks l.data

/-- The outstanding transaction of a line. -/
def State.lineTxn? (s : State) (port tag : Nat) (op : RurenOp) : Option (Txn × WbLine) :=
  match (s.txn? port tag).filter (·.op == op) with
  | none => none
  | some t => (s.line? t.domain (t.iova / 128)).map fun l => (t, l)

/-- CLAIM_RESPONSE (R453): the line is owned, and its EVICT is issued; after the loss of the host link the line is freed (R111). -/
def execClaimResponse (port tag : Nat) (s : State) : Ans :=
  onSome (s.lineTxn? port tag .claim) s fun x =>
    let (t, l) := x
    if t.dead then ((s.endTxn port tag).freeLine l).flow
    else
    let s := (s.endTxn port tag).setLine l.domain l.line fun l => { l with state := .owned }
    ((s.issue .evict .metadata l.domain (128 * l.line) 128 l.data fun _ => t.purpose).lastTxn fun t => { t with poison := l.poison }).flow

/-- EVICT_RESPONSE (R453, Table 15.7): OK and SUPERSEDED both free the line, and the write is logged whatever its response (R332). -/
def execEvictResponse (port tag : Nat) (_superseded : Bool) (s : State) : Ans :=
  onSome (s.lineTxn? port tag .evict) s fun x =>
    (((s.endTxn port tag).logTxn x.1).freeLine x.2).flow

/-- The EVICT of a line has been sent. -/
def State.evictSent (s : State) (l : WbLine) : Bool :=
  s.txns.any fun t => t.op == .evict && t.domain == l.domain && t.iova == 128 * l.line && t.tag.isSome

/-- SNOOP (R237, R447, Table 15.7): answered on the port that carried it; a snoop whose check fails is ignored and counts against the port. -/
def execSnoop (port stag domain line : Nat) (checkOk : Bool) (s : State) : Ans :=
  if !checkOk then done (s.countPort port)
  else match s.line? domain line with
    | none => done (s.emit (.snoopMiss port stag))
    | some l => match l.state with
      | .owned =>
        let s := s.emit (.snoopData port stag l.data l.poison)
        if s.evictSent l then done (s.setLine domain line fun l => { l with state := .passed })
        else
          let keep (t : Txn) : Bool := !(t.op == .evict && t.domain == domain && t.iova == 128 * line)
          done (({ s with txns := s.txns.filter keep } : State).freeLine l).flow
      | _ => done (s.emit (.snoopMiss port stag))

/-! ## Restores -/

/-- The context of a job that is being restored. -/
def State.restoring? (s : State) (q : Nat) (c : BitVec 17) (older : Bool) : Option (Ctx × Nat × Nat) :=
  (s.dill.ctxs.find? fun x => x.queue == q && x.count == c && x.older == older).bind fun x =>
    match x.place with
    | .restoring r n => some (x, r, n)
    | _ => none

/-- The IV of a saved record (R235). -/
def saveIv (d r n : Nat) : Bytes := beBytes 4 (r * 512 + d) ++ beBytes 8 n

/-- The state that a restored record holds: running state, outer state and carried bytes (Table 7.2). -/
def State.ctxOpen (s : State) (j : Job) (x : Ctx) (r n : Nat) (b : Bytes) : Ctx :=
  let p := gcmCrypt (s.dill.sealKey.getD []) (saveIv x.domain r n) (sub b 48 568)
  let m := (digestIv j.dillSel).length
  { x with place := .onDie, sealed := [], lru := s.thyme.tick, state := p.take m,
           outer := if j.dillKeyed then sub p 200 m else [], carry := sub p 400 (x.absorbed % digestBlock j.dillSel) }

/-- A record that has come back passes the checks of R236: its tag, bytes 0 to 31 against the index entry, and save_ctr. -/
def State.restoreOk (s : State) (j : Job) (x : Ctx) (r n : Nat) (b : Bytes) : Bool :=
  let key := s.dill.sealKey.getD []
  let want := s.ctxImage j x r n
  sub b 0 40 == sub want 0 40 && gcmTag key (saveIv x.domain r n) (sub b 0 48) (sub b 48 568) == sub b 616 16

/-- The record of a saved context has come back whole (R236). -/
def State.restored (s : State) (q : Nat) (c : BitVec 17) (older : Bool) : State :=
  match s.job? q c, s.restoring? q c older with
  | some j, some (x, r, n) =>
    if s.restoreOk j x r n x.sealed then s.setCtx q c older fun y => s.ctxOpen j y r n x.sealed
    else
      let s := s.eventDM j.domain 0x05 0 q (leBytes 4 c.toNat)
      (s.dropCtxs q c).endJob q c .poisoned
  | _, _ => s

/-- CONTEXT_RESTORE (R236, R375, Table 7.6): a read of a saved record returns. -/
def execContextRestore (port tag : Nat) (data : ReadData) (s : State) : Ans :=
  onSome ((s.read? port tag).bind fun t => match t.purpose with
      | .restore q c o => some (t, q, c, o)
      | _ => none) s fun x =>
    let (t, q, c, older) := x
    let s := s.endTxn port tag
    (if t.dead then s
     else if t.poisoned data then (s.dropCtxs q c).endJob q c .poisoned
     else match s.restoring? q c older with
       | none => s
       | some (y, r, _) =>
         let s := s.setCtx q c older fun z => { z with
           sealed := putAt (padTo 640 y.sealed) (t.past (s.recordAddr y.domain r)) (t.got data) }
         if s.reading fun p => p == .restore q c older then s else s.restored q c older).flow

end Sys2Proof.Machine
end

