-- ==== Sys2Proof/Machine/Faults.lean ====
section
/-! DEFINITION. Faults on the memory ports: FAULT and ERROR (R449, Table 15.6, Table 7.6), truncation (R450 to R452), CHECK (R498), egress failures (R374), suspended ports and port_rst (R454, R456, R457). -/

namespace Sys2Proof.Machine

/-! ## Transfers that fail -/

/-- A write of a job's output has failed: the job completes with FABRIC_ERROR (Table 15.6), after zero fill over the whole destination when it is an authenticated decrypt (R149, R170). -/
def State.failOutput (s : State) (q : Nat) (c : BitVec 17) : State :=
  match s.job? q c with
  | none => s
  | some j =>
    if j.status.isNone then s.endJob q c .fabricError
    else if j.phase != .writing then s
    else if j.status == some .tamperAbort then s.settle q c
    else
      let s := if j.status == some .ok && q != 0 && eChain j.entry then s.setQueue q fun x => { x with chainBroken := true } else s
      let fill := isAuthDec (eOp j.entry) (eSub j.entry) && j.status == some .ok && q != 0
      let s := if fill then s.dropOuts q c else s
      (s.setJob q c fun j => { j with status := some .fabricError, outTag := [],
                                      slices := if fill then j.slices.filter (·.state == .writing) else j.slices,
                                      zeros := if fill then j.zeroPieces (eLen j.entry) else j.zeros }).settle q c

/-- A completion write has failed: its queue alone is handled as after a link loss, and the owner's event goes out at once (Table 15.6). -/
def State.completionLost (s : State) (q : Nat) : State :=
  match s.queue? q with
  | some x => (s.releaseRange x false).banksDrained
  | none => s

/-- A dirty-log write has failed: overflow is set (R334, Table 15.6). -/
def State.dirtyLost (s : State) (d : Nat) : State :=
  match s.domain? d with
  | none => s
  | some x =>
    let s := s.setDomain d fun x => { x with mig := { x.mig with
      overflow := true, overflowed := true, closed := [], marker := if x.mig.marker == .issued then .none else x.mig.marker } }
    s.event 0 0x08 0 d (leBytes 4 x.mig.tail.toNat)

/-- A save or a restore has failed: the job's contexts are cleared and it completes with FABRIC_ERROR (Table 7.6). -/
def State.ctxLost (s : State) (q : Nat) (c : BitVec 17) : State :=
  match s.job? q c with
  | some j => if j.status.isSome then s else (s.dropCtxs q c).endJob q c .fabricError
  | none => s

/-- First position of a failed event write; a write to a ring that has been replaced since leaves the new ring's count (R367). -/
def State.eventsFirst (s : State) (d iova first : Nat) : Nat :=
  match s.evq? d with
  | some q => if q.base ≤ iova && iova < q.base + 0x2000 then first else q.count.toNat
  | none => first

/-- What a transfer that ended with FAULT or ERROR leaves, by what it carried (Tables 15.6 and 7.6); t is no longer outstanding. -/
def State.failTransfer (s : State) (t : Txn) : State :=
  if t.dead then s.deadDone t
  else match t.purpose with
  | .entry q cs p _ => s.failEntries q cs p .fabricError
  | .aux q c => s.endJob q c .fabricError
  | .table q c _ => s.noTable q c .fabricError
  | .payload q c _ _ => (s.stopUnits q c).endJob q c .fabricError
  | .restore q c _ => s.ctxLost q c
  | .package b => s.packageFails b .fabricError
  | .response _ => { s with lovage := { s.lovage with respFailed := true } }
  | .headWord _ => s
  | .output q c _ _ => s.failOutput q c
  | .zero q c _ => s.failOutput q c
  | .result q c => s.failOutput q c
  | .completion q _ => s.completionLost q
  | .events d f n _ => s.eventsLost d (s.eventsFirst d t.iova f) n
  | .dirty d => s.dirtyLost d
  | .marker d => s.dirtyLost d
  | .stamp _ => s
  | .line q c _ _ => match s.line? t.domain (t.iova / 128) with
    | some l => (s.freeLine l).ctxLost q c
    | none => s.ctxLost q c
  | .portTest p _ => s.portTested p false

/-- End an outstanding transfer that has failed. -/
def State.failTxn (s : State) (t : Txn) : State :=
  let drop (x : Txn) : Bool := !(x == t)
  (({ s with txns := s.txns.filter drop } : State).logTxn t).failTransfer t

/-- FABRIC_ERROR_RESPONSE (R449): FAULT, ERROR or a reserved code ends a transfer; it is never retried. -/
def execFabricErrorResponse (port tag : Nat) (s : State) : Ans :=
  onSome (s.txn? port tag) s fun t => (s.failTxn t).flow

/-! ## Truncation -/

/-- The line of an EVICT that a snoop has answered from the buffer: the write-back is superseded and is not sent again (R237). -/
def State.superseded? (s : State) (t : Txn) : Option WbLine :=
  if t.op == .evict then (s.line? t.domain (t.iova / 128)).filter fun l => l.state == .passed else none

/-- A transaction that is not sent again ends; beats of it may have left, so it is logged (R332). -/
def State.endLogged (s : State) (t : Txn) (g : Nat) : State := (s.endTxn t.port g).logTxn t

/-- A transfer has been cut short: it goes out again on a spare port in service, or it fails, as it does when it is cut short again (R450 to R452); a port test fails. -/
def State.truncated (s : State) (t : Txn) (got : ReadData) : State :=
  if t.dead || t.cls == .maintenance then s.failTxn t
  else match t.tag with
    | some g => match s.superseded? t with
      | some l => (s.endLogged t g).freeLine l
      | none => if t.cut || s.sparePort.isNone then s.failTxn t else s.reissue t.port g true got
    | none => s.failTxn t

/-- What a transaction keeps when it is issued again whole. -/
def Txn.kept (t : Txn) : ReadData := { bytes := t.data, poison := t.poison }

/-- Bytes that the first beats of a read carry. -/
def Txn.beatBytes (t : Txn) (beats : Nat) : Nat := if beats = 0 then 0 else min t.len (128 * beats - t.iova % 128)

/-- What a READ that is cut short has brought: the beats before the cut, with their poison bits (R448, R450). -/
def Txn.cutOff (t : Txn) (beats : Nat) (data : ReadData) : ReadData :=
  { bytes := t.data ++ data.bytes.take (t.beatBytes beats - t.data.length), poison := t.poison ++ data.poison }

/-- READ_TRUNCATED (R447, R450, R451): beats arrived before the cut; byCheck says that a beat failed its check, which counts against the port. -/
def execReadTruncated (port tag beats : Nat) (data : ReadData) (byCheck : Bool) (s : State) : Ans :=
  onSome (s.read? port tag) s fun t =>
    let s := s.truncated t (t.cutOff beats data)
    (if byCheck then s.countPort port else s).flow

/-- WRITE_TRUNCATED (R452): a WRITE or EVICT goes out again whole on a spare port, or it fails. -/
def execWriteTruncated (port tag : Nat) (s : State) : Ans :=
  onSome ((s.txn? port tag).filter fun t => t.op == .write || t.op == .evict) s fun t => (s.truncated t t.kept).flow

/-! ## Checks -/

/-- A transaction goes out again on the active port that takes over from its own, or on the same port (R447, R498); one that a reset or an alarm has cut ends, an EVICT that a snoop has superseded frees its line, and a port test fails. -/
def State.sendAgain (s : State) (t : Txn) : State :=
  match t.tag with
  | some g => match s.superseded? t with
    | some l => (s.endLogged t g).freeLine l
    | none => if t.dead then (s.endLogged t g).deadDone t else if t.cls == .maintenance then s.failTxn t else s.reissue t.port g false t.kept
  | none => s

/-- WRITE_RESPONSE (R19, R447): a response that fails its check, of a WRITE, a CLAIM or an EVICT, has it issued again on another port, and counts against the port. -/
def execWriteResponse (port tag : Nat) (checkFails : Bool) (s : State) : Ans :=
  onSome ((s.txn? port tag).filter fun t => t.op != .read && (checkFails || (t.op == .write && t.purpose.plainWrite))) s fun t =>
    if checkFails then ((s.sendAgain t).countPort port).flow else s.writeOk t port tag

/-- CHECK_RESPONSE (R498): the whole transaction is issued again, and the port takes a count (R456). -/
def execCheckResponse (port tag : Nat) (s : State) : Ans :=
  onSome (s.txn? port tag) s fun t => ((s.sendAgain t).countPort port).flow

/-- A flit of a slice's output has failed at egress: the slice is issued again as after a failed issue, unless the job has failed meanwhile, when its bytes go out again (R374, R184). -/
def State.egressSlice (s : State) (t : Txn) (q : Nat) (c : BitVec 17) (i : Nat) : State :=
  match s.job? q c with
  | none => s.sendAgain t
  | some j =>
    if !(j.status.isNone || j.status == some .ok) || (j.slice? i).isNone then s.sendAgain t
    else
      let s := s.endTxn t.port (t.tag.getD 0)
      let again := (j.slice? i).any (·.retry)
      let other (k : Nat) : Bool := k != i
      let s := s.setJob q c fun j => { j with status := none, phase := .slices, retried := true,
                                              deliveredIdx := j.deliveredIdx.filter other }
      let s := s.setSlice q c i fun x => { x with state := .staged, fails := x.fails + 1, retry := true, eligible := s.thyme.tick + 1 }
      if ((s.job? q c).bind (·.slice? i)).any (·.fails ≥ 3) then s.endJob q c .flitCheckFail
      else if again then s.restage q c i
      else s

/-- An EVICT with both flits of its line marked poisoned, since the command names neither (R448, notes/assumptions/138). -/
def State.poisonLine (s : State) (t : Txn) : State :=
  let mark (x : Txn) : Txn := if x == t then { x with poison := [true, true] } else x
  { s with txns := s.txns.map mark }

/-- EGRESS_CHECK_FAIL (R374, R448): the port has not issued the write: a slice's output is made again, a context line goes out poisoned, a record is written again, both through another active port, and the port takes a count (R456). -/
def execEgressCheckFail (port tag : Nat) (s : State) : Ans :=
  onSome (s.txn? port tag |>.filter fun t => t.op == .write || t.op == .evict) s fun t =>
    let s := s.setPort port fun x => { x with egress := x.egress + 1 }
    let s := match t.purpose with
      | .output q c i _ => if t.dead then (s.endLogged t tag).deadDone t else s.egressSlice t q c i
      | .line .. => (s.poisonLine t).sendAgain { t with poison := [true, true] }
      | _ => s.sendAgain t
    (s.countPort port).flow

/-! ## Ports -/

/-- PORT_TEST_RESULT (R456, R487): every write and read of a suspended port's test has returned, and SORREL's comparison gives the outcome; without a scratch region no test has run. -/
def execPortTestResult (port : Nat) (pass : Bool) (s : State) : Ans :=
  guarded ((s.sorrel.ports[port]?).any (fun x => x.role == .suspended && pass != x.bad) && s.regN 0x90080 % 2 ^ 52 != 0
      && !s.portTesting port) s fun s => (s.portTested port pass).flow

/-- Transactions that are outstanding on a port. -/
def State.outstandingOn (s : State) (p : Nat) : List Txn := s.txns.filter fun t => t.port == p && t.tag.isSome

/-- Every read of a port counts as truncated, and its writes are issued again (Table 15.8, port_rst row). -/
def State.portCut (s : State) (p : Nat) : State := (s.outstandingOn p).foldl (fun s t => s.truncated t t.kept) s

/-- SUSPENDED_PORT_READ_TIMEOUT (Table 15.8): transfers that a suspended port has not answered in 4,096 cycles are handled as under port_rst. -/
def execSuspendedPortReadTimeout (port : Nat) (s : State) : Ans :=
  guarded ((s.sorrel.ports[port]?).any fun x => x.role == .suspended || x.role == .retired) s fun s => (s.portCut port).flow

/-- PORT_RST (R450, R452, R454, R456): a memory port is reset. -/
def execPortRst (port : Nat) (s : State) : Ans :=
  guarded (decide (port < 10)) s fun s => ((s.portCut port).countPort port).flow

end Sys2Proof.Machine
end

