-- ==== Sys2Proof/Machine/Links.lean ====
section
/-! DEFINITION. Partner-port messages: host links (R111 to R114, R369, R465), requester resets (R93), function-level resets (R327, R465), and the completion of a domain reset (R328, R321, R333). -/

namespace Sys2Proof.Machine

/-- LINK_DOWN (R111, R465): the host link of a host function's domain is down; R111 applies from the next tick. -/
def execLinkDown (domain : Nat) (s : State) : Ans :=
  guarded (s.mainRuns && s.isHost domain && (s.domain? domain).isSome) s fun s => s.addChange (.linkDown domain)

/-- A link that falls and returns within one tick is down first (notes/assumptions/20). -/
def State.linkSettled (s : State) (d : Nat) : State :=
  if s.admin.changes.contains (.linkDown d) then
    { s with admin := { s.admin with changes := s.admin.changes.filter (· != Change.linkDown d) } }.linkLost d
  else s

/-- LINK_UP (R113, R369, R465): the queues continue from their tails, the held events are posted, and recovery begins. -/
def execLinkUp (domain : Nat) (s : State) : Ans :=
  guarded (s.mainRuns && s.isHost domain && ((s.linkSettled domain).domain? domain).any (·.linkDown)) s fun s =>
    let s := (s.linkSettled domain).setDomain domain fun x => { x with linkDown := false }
    let up (x : Queue) : Queue := if x.domain == domain then { x with linkDown := false } else x
    let s := { s with fennel := { s.fennel with queues := s.fennel.queues.map up } }
    let held := ((s.evq? domain).map (·.held)).getD []
    let s := s.setEvq domain fun q => { q with held := [] }
    let s := held.foldl (fun s e => s.postEvent domain e) s
    ((s.setEvq domain fun q => { q with recovering := true }).checkHold domain).flow

/-- REQUESTER_RESET (R93, Table 15.8): a requester's pending first halves are discarded. -/
def execRequesterReset (src : From) (s : State) : Ans :=
  guarded s.mainRuns s fun s =>
    (s.fennel.queues.filter fun x => x.pushHalf.any fun h => h.src == src).foldl (fun s x => s.dropHalf x 5) s

/-- FLR (R327, R465): a function-level reset of the host function that carries a domain triggers its reset in the next tick. -/
def execFlr (domain : Nat) (s : State) : Ans :=
  guarded (s.mainRuns && s.isHost domain) s fun s => s.addChange (.flr domain)

/-- The domain leaves with its queues, and its plan record leaves at the next epoch boundary (R62, R321). -/
def State.removeDomain (s : State) (d : Nat) : State :=
  let q (x : Queue) : Bool := x.domain != d
  let e (x : EventQ) : Bool := x.domain != d
  let x (x : Domain) : Bool := x.num != d
  let c (x : Staged) : Bool := x.domain != d
  { s with
    fennel := { s.fennel with queues := s.fennel.queues.filter q }
    parsley := { qs := s.parsley.qs.filter e }
    domains := s.domains.filter x
    thyme := { s.thyme with staged := s.thyme.staged.filter c ++ [{ domain := d, plan := none, epoch := s.thyme.tick / 65536 + 1 }] } }

/-- The Domain Reset entry of a domain that waits on Q0 (R345). -/
def State.resetJob (s : State) (d : Nat) : Option Job :=
  s.fennel.jobs.find? fun j => j.queue == 0 && j.phase == .command && j.status.isNone && j.resetMark && fieldLe j.entry 24 2 == d

/-- DOMAIN_RESET_COMPLETE (R328): every transaction of the domain has returned: its remaining runs are logged (R333), migration state is NORMAL, the reset event is posted, and the admin command completes; with delete, the domain leaves (R321). -/
def execDomainResetComplete (domain : Nat) (s : State) : Ans :=
  onSome ((s.domain? domain).filter fun _ => s.resetting domain && s.domainQuiet domain) s fun x =>
    let s := s.flushDirty domain
    let s := s.setDomain domain fun x => { x with
      resetting := none, resetFlags := 0, mig := x.mig.afterReset }
    let s := (s.clearEvents domain).eventDM domain 0x02 0 domain (leBytes 1 x.resetFlags.toNat)
    let job := s.resetJob domain
    let s := if x.deleting then s.removeDomain domain else s
    (match job with
      | some j => s.endJob 0 j.count .ok
      | none => s).flow

end Sys2Proof.Machine
end

