-- ==== Sys2Proof/Machine/KeyBus.lean ====
section
/-! DEFINITION. The key bus: loads (R187, R194, R199, R257 to R259), use blocks (R197, R198), revocation (R203), slot switches (R208), lost requests and errors (R460), and the lanes (R461, R462). -/

namespace Sys2Proof.Machine

/-- A request is raised again with a new req_id, on the other lane when it is in service (R460); in Alarm it is dropped (R415). -/
def State.kbAgain (s : State) (r : KbReq) (errors : Nat) : State :=
  if s.inAlarm then s.kbEnd r.serial else (s.kbEnd r.serial).kbRaise r.kind r.domain r.handle r.dest (some r.lane) errors

/-! ## Loads -/

/-- A load of (d, h) has been denied: the slot is freed, the jobs that wait for it complete with KEY_DENIED, and a posted load of it fails (R187, R191, R356). -/
def State.denyLoad (s : State) (d h : Nat) : State :=
  let s := s.dropSlot d h
  let mark (k : JobKey) : JobKey := if k.handle == h then { k with failed := some .keyDenied } else k
  let deny (j : Job) : Job := if j.domain == d && (j.phase == .keys || (j.queue == 1 && j.phase == .command)) then { j with keys := j.keys.map mark } else j
  let s := { s with fennel := { s.fennel with jobs := s.fennel.jobs.map deny } }
  let member (l : PostedLoad) : Bool := l.kind == .handle && l.domain == d && (s.recOf d l.handle).any fun r => r.typ == 1 && (r.newer == h || r.older == h)
  let hit (l : PostedLoad) : Bool := (l.domain == d && l.handle == h) || (l.kind != .handle && d == 0 && l.kek == h) || member l
  let s := if d = 0 && s.dill.rp.opening && s.rpNames h then s.rpFail .keyDenied else s
  ((s.admin.loads.filter hit).foldl (fun s l => s.failLoad l .keyDenied) s).keyRetry

/-- A granted record has come for a slot that is loading (R187, R199, R213). -/
def State.slotLoaded (s : State) (d h : Nat) (payload : Bytes) : State :=
  if !(s.slot? d h).any (·.loading) then s
  else
    let r := parseRec payload
    if 128 ≤ payload.length && recordOk r then ((s.fillSlot d h r).mintOnLoad d h).keyRetry else s.denyLoad d h

/-- The key-use warning of a grant (R198, Table 11.13). -/
def State.useWarning (s : State) (d h limit at' g : Nat) : State :=
  let t := useThreshold limit
  if at' ≤ t && t < at' + g then
    s.eventDM d 0x21 2 g (leBytes 3 h ++ [0] ++ leBytes 8 at' ++ leBytes 8 limit)
  else s

/-- The warning of a public-key job's one use, once its record and its index are both there. -/
def State.pkWarning (s : State) (q : Nat) (c : BitVec 17) : State :=
  match s.job? q c with
  | some j => match j.pk, j.pkUse with
    | some r, some n => s.useWarning j.domain (eKey j.entry) (parseRec r).useLimit n 1
    | _, _ => s
  | none => s

/-- A granted type 0x3 record has come for a public-key job: R258, then checks 3 and 4 of R194 (R259). -/
def State.pkLoaded (s : State) (q : Nat) (c : BitVec 17) (payload : Bytes) : State :=
  match s.job? q c with
  | none => s
  | some j =>
    let b := j.aux.getD []
    let sub := eSub j.entry
    let rec' := payload.take (128 + fieldLe payload 64 2)
    let p := (parseRec rec').policy
    let k := fieldLe rec' 66 2 / 8
    if !s.pkRecordOk sub b rec' || !pkPolicyOk sub b p || p.getLsbD 9 then s.endJob q c .keyDenied
    else if sub == 0x01 && (!rsaPrivateOk b k (eLen j.entry) || j.dstTable.any fun t => fragSum t != k) then s.endJob q c .malformed
    else (s.setJob q c fun j => { j with pk := some rec' }).pkWarning q c

/-- KEY_LOAD_RESPONSE (R187, R257 to R259, R460). -/
def execKeyLoadResponse (reqId : BitVec 16) (outcome : KbOutcome) (payload : Bytes) (s : State) : Ans :=
  onSome ((s.kbReq? reqId).filter (·.kind == .keyLoad)) s fun r =>
    if s.resetting r.domain then s.kbEnd r.serial
    else match outcome, r.dest with
      | .error, _ => (s.kbAgain r r.errors).flow
      | .granted, .slot => ((s.kbEnd r.serial).slotLoaded r.domain r.handle payload).flow
      | .granted, .job q c => ((s.kbEnd r.serial).pkLoaded q c payload).flow
      | _, .slot => ((s.kbEnd r.serial).denyLoad r.domain r.handle).flow
      | _, .job q c => ((s.kbEnd r.serial).endJob q c .keyDenied).flow
      | _, _ => s.kbEnd r.serial

/-- SLOT_WAIT_RETRY (R200): a job that waits for a slot tries again. -/
def execSlotWaitRetry (q : Nat) (c : BitVec 17) (s : State) : Ans :=
  onSome ((s.job? q c).filter fun j => j.phase == .keys) s fun _ => (s.keyProgress q c).flow

/-! ## Uses -/

/-- A grant of uses to a slot: the block follows on; none left exhausts it (R197, R198). -/
def State.slotGrant (s : State) (d h at' g : Nat) : State :=
  let s := s.setSlot d h fun x =>
    let x := { x with useAsked := false }
    if g = 0 then { x with exhausted := true }
    else if x.useNext < x.useEnd then { x with useEnd := x.useEnd + g }
    else { x with useNext := at', useEnd := at' + g }
  match s.recOf d h with
  | some r => if g = 0 then s else s.useWarning d h r.useLimit at' g
  | none => s

/-- A grant of one use to a public-key job (R259). -/
def State.jobGrant (s : State) (q : Nat) (c : BitVec 17) (at' g : Nat) : State :=
  if g = 0 then s.endJob q c .keyExhausted
  else (s.setJob q c fun j => { j with pkUse := some at' }).pkWarning q c

/-- USE_RESERVE_RESPONSE (R197, R198, R460): s is the store's count before the request, g the grant; a refusal grants nothing. -/
def execUseReserveResponse (reqId : BitVec 16) (outcome : KbOutcome) (at' g : Nat) (start : State) : Ans :=
  onSome ((start.kbReq? reqId).filter fun r => match r.kind with
      | .useReserve _ => true
      | _ => false) start fun r =>
    let s := start
    let n := if outcome == .granted then g else 0
    if s.resetting r.domain then s.kbEnd r.serial
    else match outcome, r.dest with
      | .error, _ => (s.kbAgain r r.errors).flow
      | _, .slot => ((s.kbEnd r.serial).slotGrant r.domain r.handle at' n).flow
      | _, .job q c => ((s.kbEnd r.serial).jobGrant q c at' n).flow
      | _, _ => s.kbEnd r.serial

/-! ## Revocation and slot switches -/

/-- KEY_REVOKE (R203): the store revokes a handle; its slots are marked, jobs are denied from the next tick, and every copy is acknowledged (R460). -/
def execKeyRevoke (handle : Nat) (destroyed : Bool) (s : State) : Ans :=
  guarded s.mainRuns s fun s =>
    let newly := s.bay.slots.filter fun x => x.handle == handle && !x.revoked
    let rev (x : KeySlot) : KeySlot := if x.handle == handle then { x with revoked := true, newKey := none } else x
    let gone (r : CtrRec) : CtrRec := if destroyed && r.handle == handle then { r with removal := true } else r
    let s : State := { s with bay := { s.bay with slots := s.bay.slots.map rev } }
    let s := s.setMint fun m => { m with records := m.records.map gone }
    let s := newly.foldl (fun s x => s.addChange (.revoked x.domain handle)) s
    ((s.keyRetry).emit (.revokeAck handle)).flow

/-- A job other than the unwrap that made the waiting key holds the slot (R208). -/
def State.heldByOther (s : State) (d h : Nat) : Bool :=
  s.fennel.jobs.any fun j => j.holds d h
    && !((eOp j.entry == 0x25 || eOp j.entry == 0x60) && j.mainKey true == some h && j.status == some .ok)

/-- UNWRAP_SLOT_SWITCH (R208): a slot switches to the key that waits beside it. -/
def execUnwrapSlotSwitch (domain handle : Nat) (s : State) : Ans :=
  onSome ((s.slot? domain handle).bind fun x => if x.revoked || s.heldByOther domain handle then none else x.newKey) s fun m =>
    let put (r : KeyRec) : KeyRec := { r with klen := m.length }
    ((s.setSlot domain handle fun x => { x with material := some m, newKey := none, record := x.record.map put }).keyRetry).flow

/-! ## Lanes -/

def State.setKb (s : State) (l : Nat) (f : KbLane → KbLane) : State :=
  { s with sorrel := { s.sorrel with kb := s.sorrel.kb.modify l f } }

/-- One ECHO frame of a lane's test (R461). -/
def State.sendEcho (s : State) (l : Nat) : State :=
  let r : KbReq := { serial := s.keyBus.serial, reqId := 0, frame := none, lane := l, kind := .echo (((s.sorrel.kb[l]?).map (·.echoes)).getD 0), domain := 0, handle := 0, dest := .lane l,
                     tick := s.thyme.tick, errors := 0 }
  { s with keyBus := { s.keyBus with reqs := s.keyBus.reqs ++ [r], serial := s.keyBus.serial + 1 }.send r.serial r.tick }

/-- With neither lane in service, everything that needs a KEY_LOAD or a USE_RESERVE is denied (R462); journal requests wait. -/
def State.kbDown (s : State) : State :=
  if s.laneUp 0 || s.laneUp 1 then s
  else
    let keys := s.keyBus.reqs.filter fun r => match r.kind with
      | .keyLoad => true
      | .useReserve _ => true
      | _ => false
    let s := keys.foldl (fun s r =>
      let s := s.kbEnd r.serial
      match r.kind, r.dest with
      | .keyLoad, .slot => s.denyLoad r.domain r.handle
      | _, .slot => s.setSlot r.domain r.handle fun x => { x with useAsked := false }
      | _, .job q c => s.endJob q c .keyDenied
      | _, _ => s) s
    let lost (j : Job) : Bool := j.phase != .keys && j.status.isNone && !j.charged && j.chargeKeys.any fun k =>
      (s.slot? j.domain k.handle).any fun x => !x.hasUse && !x.exhausted && x.record.isSome
    (s.fennel.jobs.filter lost).foldl (fun s j => s.endJob j.queue j.count .keyDenied) s

/-- A lane leaves service and is tested: its outstanding requests count as lost and are raised again (R460, R461). -/
def State.suspendKb (s : State) (l : Nat) : State :=
  if !s.laneUp l then s
  else
    let s := (s.setKb l fun x => { x with health := .suspended, echoes := 0 }).unitEvent 0x08 l 1
    let s := (s.keyBus.reqs.filter (·.lane == l)).foldl (fun s r => s.kbAgain r r.errors) s
    (s.sendEcho l).kbDown

/-- Every resident slot that has 2,048 unused indices or fewer asks for its block (R197): a slot asks for none while no lane is in service. -/
def State.askAll (s : State) : State := (s.bay.slots.filter (·.record.isSome)).foldl (fun s x => s.askUses x.domain x.handle) s

/-- A lane's test ends: it returns and takes waiting requests, or it is retired (R461). -/
def State.endKb (s : State) (l : Nat) (pass : Bool) : State :=
  let other (r : KbReq) : Bool := !(r.dest == .lane l)
  let s := { s with keyBus := { s.keyBus with reqs := s.keyBus.reqs.filter other } }
  if pass then
    let s := ((s.setKb l fun x => { x with health := .healthy, echoes := 0 }).unitEvent 0x08 l 2).askAll
    (s.keyBus.reqs.filter fun r => !s.laneUp r.lane && !(r.dest == .lane r.lane)).foldl (fun s r => s.kbAgain r r.errors) s
  else (s.setKb l fun x => { x with health := .retired }).unitEvent 0x08 l 3

/-- Requests lost on a lane, and frames received on it that fail their check: two of either in an epoch suspend it (R461). -/
def State.countLoss (s : State) (l lost bad : Nat) : State :=
  let s := s.setKb l fun x => { x with losses := x.losses + lost, badFrames := x.badFrames + bad }
  if (s.sorrel.kb[l]?).any fun x => decide (x.losses ≥ 2) || decide (x.badFrames ≥ 2) then s.suspendKb l else s

/-- A request is lost (R460): raised again, but for an ECHO, whose lane has failed its test, and for keys of a domain in a reset. -/
def State.kbLost (s : State) (r : KbReq) : State :=
  match r.dest with
  | .lane l => s.endKb l false
  | _ => if s.resetting r.domain then s.kbEnd r.serial else s.kbAgain r r.errors

/-- KEY_BUS_REQUEST_LOST (R460): no response within 6,250 ticks of the request, or, before they are over, one whose check fails. -/
def execKeyBusRequestLost (reqId : BitVec 16) (s : State) : Ans :=
  onSome (s.kbReq? reqId) s fun r => ((s.kbLost r).countLoss r.lane 1 (if s.thyme.tick < r.tick + 6250 then 1 else 0)).flow

/-- KB_RST (R461): the lane's outstanding requests, each of them once, count as lost. -/
def execKbRst (lane : Nat) (s : State) : Ans :=
  guarded (s.mainRuns && decide (lane < 2)) s fun s =>
    let lost := s.keyBus.reqs.filter fun r => r.lane == lane && r.frame.isSome
    ((lost.foldl State.kbLost s).countLoss lane lost.length 0).flow

/-- LINK_UP_LOW (R461): a lane's link_up input is low. -/
def execLinkUpLow (lane : Nat) (s : State) : Ans := guarded (s.mainRuns && decide (lane < 2)) s fun s => (s.suspendKb lane).flow

/-- A frame of a lane's test is back: the next one, or the end of the test (R461). -/
def State.echoBack (s : State) (r : KbReq) (lane : Nat) (intact : Bool) : State :=
  let s := s.kbEnd r.serial
  if !intact then s.endKb lane false
  else
    let s := s.setKb lane fun x => { x with echoes := x.echoes + 1 }
    if (s.sorrel.kb[lane]?).any fun x => decide (x.echoes ≥ 256) then (s.endKb lane true).flow else s.sendEcho lane

/-- ECHO_RESPONSE (R461): a frame of a lane's test is back. On a lane without an ECHO outstanding, a frame that is not intact is one that answers no request, such as a KEY_REVOKE, and fails its check (DESIGN CHOICE, notes/assumptions/131). -/
def execEchoResponse (lane : Nat) (intact : Bool) (s : State) : Ans :=
  match s.keyBus.reqs.find? fun r => r.dest == .lane lane with
  | some r => done (s.echoBack r lane intact)
  | none => guarded (s.mainRuns && decide (lane < 2) && !intact) s fun s => (s.countLoss lane 0 1).flow

end Sys2Proof.Machine
end

