-- ==== Sys2Proof/Machine/JournalRun.lean ====
section
/-! DEFINITION. The commands of the journal: write, read and erase responses (R212, R216, R460), compaction (R218, R495, R496) and recovery (R219, R220, R431). -/

namespace Sys2Proof.Machine

/-- Jobs that wait for a reservation draw again (R213). -/
def State.retryDraws (s : State) : State :=
  (s.fennel.jobs.filter (·.phase == .ivWait)).foldl (fun s j => s.drawIv j.queue j.count) s

/-- A request of the journal of one kind. -/
def State.jReq? (s : State) (id : BitVec 16) (p : KbKind → Bool) : Option KbReq := (s.kbReq? id).filter fun r => r.dest == .mint && p r.kind

/-- A journal write has failed with outcome 3: it is made again; the third time MINT refuses reservations (R460). -/
def State.jWriteError (s : State) (r : KbReq) : State :=
  let s := s.kbAgain r (r.errors + 1)
  if r.errors + 1 ≥ 3 then s.setMint fun m => { m with refusing := true } else s

/-- The writes and erases that end a recovery or a format have all returned. -/
def State.recoverySettled (s : State) : State := if s.mint.recovery == .erasing && !s.jBusy then s.recoveryDone else s

/-- JNL_WRITE_RESPONSE (R212, R216, R460): the bytes are durable. -/
def execJnlWriteResponse (reqId : BitVec 16) (outcome : KbOutcome) (s : State) : Ans :=
  onSome (s.jReq? reqId fun k => match k with
      | .jnlWrite .. => true
      | _ => false) s fun r =>
    if outcome != .granted then (s.jWriteError r).flow
    else
      let s := (s.kbEnd r.serial).setMint fun m => { m with refusing := false }
      (if r.isAppend then s.appendReturned.retryDraws else s.recoverySettled).flow

/-- Every write of the part before has returned, and before step 4 of R218 the appends to both logs among them; the table is written once no record has to be read again (Table 12.2). -/
def State.partReturned (s : State) (c : Compaction) : Bool :=
  !s.jBusy && (c.step != 2 || s.mint.records.all fun r => !r.unread) && (c.step != 5 || s.mint.appends.all (·.waiting.isNone))

/-- COMPACTION_STEP (R218): the next part of a compaction, once every write of the part before has returned. -/
def execCompactionStep (s : State) : Ans :=
  onSome (s.mint.compaction.filter s.partReturned) s fun c => (s.compactNext c).flow

/-- JNL_READ_RESPONSE (R219): bytes of the journal for the recovery, or a record that is read again (Table 12.2). A response without bytes is the one of outcome 3, and the read is issued again (R460, DESIGN CHOICE, notes/assumptions/132). -/
def execJnlReadResponse (reqId : BitVec 16) (data : Bytes) (s : State) : Ans :=
  onSome (s.jReq? reqId fun k => match k with
      | .jnlRead .. => true
      | _ => false) s fun r =>
    if data.isEmpty then (s.kbAgain r r.errors).flow
    else
    let s := s.kbEnd r.serial
    State.flow (match r.kind with
    | .jnlRead t off n => if [Recovery.headers, .reading, .scanning].contains s.mint.recovery then s.recoverBytes t off (padTo n data)
      else (s.reread t off (padTo n data)).retryDraws
    | _ => s)

/-- JNL_ERASE_RESPONSE (R218, R219, R460): the target reads all 0xFF. -/
def execJnlEraseResponse (reqId : BitVec 16) (outcome : KbOutcome) (s : State) : Ans :=
  onSome (s.jReq? reqId fun k => match k with
      | .jnlErase _ => true
      | _ => false) s fun r =>
    if outcome != .granted then (s.kbAgain r r.errors).flow
    else
      let s := s.kbEnd r.serial
      State.flow (match r.kind with
      | .jnlErase t => if s.mint.recovery == .erasing then s.recoverErased t else s
      | _ => s)

/-- JOURNAL_RECOVERY (R219, R431, R481): step 8 begins once step 4 has ended and BY_CFG is locked. -/
def execJournalRecovery (s : State) : Ans :=
  guarded (s.mode.mode == .startup && s.mode.fail == 0 && s.mode.steps.s4 && !s.mode.steps.s8 && !s.mode.formatWait
      && s.mint.recovery == .idle && (s.reg 0x40000).getLsbD 31) s fun s => s.recoverStart.flow

end Sys2Proof.Machine
end

