-- ==== Sys2Proof/Machine/SelfTest.lean ====
section
/-! DEFINITION. Self-Test (R350 to R352, Tables 11.7 and 11.7a): its nine commands, and the start, the time-out and the end of a test. -/

namespace Sys2Proof.Machine

/-- Highest index of a unit kind (Table 11.7). -/
def lastIndex (kind : Nat) : Nat :=
  match kind with
  | 1 => 71
  | 2 => 8
  | 3 => 15
  | 4 => 15
  | 5 => 9
  | 8 => 1
  | _ => 0

/-- The unit is retired: a bunch with all its lanes (R351). Kinds without a retired state of their own have a standby partner instead. -/
def State.unitRetired (s : State) (kind i : Nat) : Bool :=
  let gone (x : Option UnitState) : Bool := x.any (·.health == .retired)
  match kind with
  | 1 => gone (s.sorrel.lanes[i]?)
  | 2 => (bunchLanes i).all fun l => gone (s.sorrel.lanes[l]?)
  | 3 => gone (s.sorrel.dill[i]?)
  | 4 => gone (s.sorrel.basil[i]?)
  | 5 => (s.sorrel.ports[i]?).any (·.role == .retired)
  | 8 => (s.sorrel.kb[i]?).any (·.health == .retired)
  | _ => false

/-- A Self-Test of a unit is accepted (R350, R351). -/
def State.selfTest (s : State) (c : BitVec 17) (kind : Nat) : Ans :=
  onSome ((s.adminJob c 0x10 (· == kind)).filter fun _ => s.sorrel.tests.all fun t => t.count != c) s fun j =>
    let i := fieldLe j.entry 32 2
    (if lastIndex kind < i then s.adminFail c .malformed 32
     else if s.unitRetired kind i then s.adminOk c 2
     else
       let t : SelfTest := { kind := kind, index := i, accepted := s.thyme.tick, started := false, second := false, count := c }
       { s with sorrel := { s.sorrel with tests := s.sorrel.tests ++ [t] } }).flow

/-- SELF_TEST_CHIVE_LANE. -/
def execSelfTestChiveLane (c : BitVec 17) (s : State) : Ans := s.selfTest c 1
/-- SELF_TEST_BUNCH. -/
def execSelfTestBunch (c : BitVec 17) (s : State) : Ans := s.selfTest c 2
/-- SELF_TEST_DILL_LANE. -/
def execSelfTestDillLane (c : BitVec 17) (s : State) : Ans := s.selfTest c 3
/-- SELF_TEST_BASIL_SEQUENCER. -/
def execSelfTestBasilSequencer (c : BitVec 17) (s : State) : Ans := s.selfTest c 4
/-- SELF_TEST_MEMORY_DATA_PORT. -/
def execSelfTestMemoryDataPort (c : BitVec 17) (s : State) : Ans := s.selfTest c 5
/-- SELF_TEST_SAGE_STANDBY_COUNTER. -/
def execSelfTestSageStandbyCounter (c : BitVec 17) (s : State) : Ans := s.selfTest c 6
/-- SELF_TEST_THYME_LOCKSTEP_PAIR. -/
def execSelfTestThymeLockstepPair (c : BitVec 17) (s : State) : Ans := s.selfTest c 7
/-- SELF_TEST_KEY_BUS_LANE. -/
def execSelfTestKeyBusLane (c : BitVec 17) (s : State) : Ans := s.selfTest c 8
/-- SELF_TEST_ENTROPY_SOURCE. -/
def execSelfTestEntropySource (c : BitVec 17) (s : State) : Ans := s.selfTest c 9

/-- The halves of a lockstep unit. -/
def State.halvesOf (s : State) (u : LockUnit) : Half × Half := (s.sorrel.halves.lookup u).getD (.inPair, .inPair)

def State.setHalves (s : State) (u : LockUnit) (h : Half × Half) : State :=
  { s with sorrel := { s.sorrel with halves := assocSet s.sorrel.halves u h } }

/-- The condition of Table 11.7a for the test of a unit to start. -/
def State.testCanStart (s : State) (kind i : Nat) : Bool :=
  match kind with
  | 1 => (s.sorrel.lanes[i]?).any (·.health == .healthy) && !s.reserveLanes.isEmpty
  | 2 =>
    let mapped := (s.thyme.laneOf.filter fun l => l.any fun l => (bunchLanes i).contains l).length
    let others := (s.reserveLanes.filter fun l => l / 8 != i).length
    (mapped ≤ others || i == s.thyme.epoch % 9) && (bunchLanes i).any fun l => (s.sorrel.lanes[l]?).any (·.health == .healthy)
  | 3 => (s.sorrel.dill[i]?).any (·.health == .healthy)
  | 4 => (s.sorrel.basil[i]?).any (·.health == .healthy) && s.seqFree i && !s.freeReserveSeqs.isEmpty
  | 5 => s.sparePort.isSome && s.regN 0x90080 % 2 ^ 52 != 0 && (s.sorrel.ports[i]?).any fun p => p.role != .suspended && p.role != .retired
  | 6 => (s.sage.counter (!s.sage.activeB)).usable
  | 7 => s.halvesOf .thyme == (.inPair, .inPair)
  | 8 => s.laneUp (1 - i) && s.laneUp i
  | _ => s.sorrel.cells == [true, true]

/-- Connect or disconnect a noise cell (R393). -/
def State.setCell (s : State) (cell : Nat) (on : Bool) : State := { s with sorrel := { s.sorrel with cells := s.sorrel.cells.set cell on } }

/-- A half of THYME leaves its pair, or rejoins it, with its unit event (R381, Table 11.7a). -/
def State.setThymeHalf (s : State) (second : Bool) (x : Half) : State :=
  let h := s.halvesOf .thyme
  (s.setHalves .thyme (if second then (h.1, x) else (x, h.2))).unitEvent 0x07 0 (match x with
    | .left => 1
    | .inPair => 2
    | .retired => 3)

/-- A unit is taken out of service for its test, as Table 11.7a gives for its kind: a DILL lane keeps its position and runs its whole set again, the standby counter cannot become active, and of a pair the first half or cell leaves. -/
def State.beginTest (s : State) (kind i : Nat) : State :=
  match kind with
  | 1 => s.suspendLane i
  | 2 => s.suspendBunch i
  | 3 => s.setDillLane i fun x => { x with tested := 0 }
  | 4 => s.suspendSeq i
  | 5 => s.suspendPort i
  | 6 => s.setSage fun g => g.setCounter (!g.activeB) fun c => { c with testing := true }
  | 7 => s.setThymeHalf false .left
  | 8 => s.suspendKb i
  | _ => s.setCell 0 false

/-- The test of a unit that has not started, or a DILL lane's that has not ended. -/
def State.test? (s : State) (kind i : Nat) (started : Bool) : Option SelfTest :=
  s.sorrel.tests.find? fun t => t.kind == kind && t.index == i && t.started == started

/-- SELF_TEST_START (R352): from the tick after acceptance, at the first tick at which the condition holds, and within 65,536 ticks of acceptance (R351). -/
def execSelfTestStart (kind index : Nat) (s : State) : Ans :=
  onSome ((s.test? kind index false).filter fun t => s.plansRun && decide (t.accepted < s.thyme.tick)
      && decide (s.thyme.tick ≤ t.accepted + 65536) && s.testCanStart kind index) s fun t =>
    let s := s.beginTest kind index
    let on (x : SelfTest) : SelfTest := if x == t then { x with started := true } else x
    ({ s with sorrel := { s.sorrel with tests := s.sorrel.tests.map on } }).flow

/-- s without a test. -/
def State.dropTest (s : State) (t : SelfTest) : State :=
  let other (x : SelfTest) : Bool := x.count != t.count
  { s with sorrel := { s.sorrel with tests := s.sorrel.tests.filter other } }

/-- SELF_TEST_TIMEOUT (R351): the condition has not been met within 65,536 ticks of acceptance; for a DILL lane, the ticks for the whole set have not come. -/
def execSelfTestTimeout (kind index : Nat) (s : State) : Ans :=
  onSome (((s.test? kind index false).or (if kind = 3 then s.test? kind index true else none)).filter fun t =>
      s.plansRun && decide (t.accepted + 65536 < s.thyme.tick)) s fun t =>
    let s := s.dropTest t
    (if s.unitRetired kind index then s.adminOk t.count 2
     else if kind ≤ 5 then s.adminRefuse t.count .resourceBusy
     else s.adminOk t.count 3).flow

/-- Record a test that has ended, the newest of at most 64 last (R351, R359), and complete its command. -/
def State.logTest (s : State) (t : SelfTest) (outcome : Nat) : State :=
  let e : TestLogEntry := { tick := s.thyme.tick, kind := t.kind, outcome := outcome, index := t.index, count := t.count }
  let log := s.sorrel.testLog ++ [e]
  let s := s.dropTest t
  ({ s with sorrel := { s.sorrel with testLog := log.drop (log.length - 64) } }).adminOk t.count outcome

/-- A unit's test has ended: it returns to service, or it is retired, also by its third suspension in the epoch (R389, Table 11.7a). A unit that its own test results have already returned or retired is left as it is; of a pair, the half or cell under test. -/
def State.finishTest (s : State) (t : SelfTest) (pass : Bool) : State :=
  let i := t.index
  let held (x : Option UnitState) : Bool := x.any (·.health == .suspended)
  let fewer (x : Option UnitState) : Bool := x.any fun x => decide (x.suspensions < 3)
  let lane (s : State) (l : Nat) : State :=
    if !held (s.sorrel.lanes[l]?) then s else if pass && fewer (s.sorrel.lanes[l]?) then s.returnLane l else s.retireLane l
  match t.kind with
  | 1 => lane s i
  | 2 => (bunchLanes i).foldl lane s
  | 3 => if pass || (s.sorrel.dill[i]?).any (·.health == .retired) then s else s.endDill i false
  | 4 => if held (s.sorrel.basil[i]?) then s.endSeq i (pass && fewer (s.sorrel.basil[i]?)) else s
  | 5 => s.portTested i pass
  | 6 =>
    let b := !s.sage.activeB
    let s := s.setSage fun g => g.setCounter b fun c => { c with testing := false, failed := c.failed || !pass, retired := c.retired || !pass }
    if pass then s else s.event 0 0x19 1 (if b then 1 else 0) [3]
  | 7 => s.setThymeHalf t.second (if pass then .inPair else .retired)
  | 8 => if (s.sorrel.kb[i]?).any (·.health == .suspended) then s.endKb i pass else s
  | _ => if pass then s.setCell (if t.second then 1 else 0) true else s.unitEvent 0x09 0 3

/-- The other half of THYME, or the other noise cell, can be tested next: the first has passed, and the second is in service (Table 11.7a). -/
def State.turnNext (s : State) (t : SelfTest) (pass : Bool) : Bool :=
  pass && !t.second && ((t.kind == 7 && (s.halvesOf .thyme).2 == .inPair) || (t.kind == 9 && s.sorrel.cells == [false, true]))

/-- The second half or cell of a pair takes the place of the first under test. -/
def State.nextTurn (s : State) (t : SelfTest) : State :=
  let on (x : SelfTest) : SelfTest := if x.count == t.count then { x with second := true } else x
  let s : State := { s with sorrel := { s.sorrel with tests := s.sorrel.tests.map on } }
  if t.kind == 7 then s.setThymeHalf true .left else s.setCell 1 false

/-- The test has run as the outcome says: a DILL lane that passes has run its whole set, in ticks that its position leaves free (R388); a memory port's outcome is SORREL's comparison, or what a failed transfer has made of the port (R456). -/
def State.setRun (s : State) (t : SelfTest) (pass : Bool) : Bool :=
  match t.kind with
  | 3 => !pass || (s.sorrel.dill[t.index]?).any fun x => x.health == .retired || decide (testSet .dill ≤ x.tested)
  | 5 => (s.sorrel.ports[t.index]?).any fun x => match x.role with
    | .suspended => !s.portTesting t.index && pass != x.bad
    | .retired => !pass
    | _ => pass
  | _ => true

/-- SELF_TEST_END (R350, R351): the test set has run; outcome 1 when the unit is retired by it. The first half or cell of a pair that passes gives its place to the second, and the test goes on. -/
def execSelfTestEnd (kind index : Nat) (pass : Bool) (s : State) : Ans :=
  onSome ((s.test? kind index true).filter fun t => s.plansRun && s.setRun t pass) s fun t =>
    let next := s.turnNext t pass
    let s := s.finishTest t pass
    (if next then s.nextTurn t else s.logTest t (if pass && !s.unitRetired kind index then 0 else 1)).flow

end Sys2Proof.Machine
end

