-- ==== Sys2Proof/Machine/Power.lean ====
section
/-! DEFINITION. What each reset kind and each sleep loses and keeps (Table 14.6, R437 to R440), the way into Sense (R438, R439), and what every alarm clears (R416). -/

namespace Sys2Proof.Machine

/-- Change the mode unit. -/
def State.setMode (s : State) (f : ModeUnit → ModeUnit) : State := { s with mode := f s.mode }

/-! ## OTP -/

/-- The copy that is being programmed when power goes: some of its bits are set, and whether it decodes is open (R410); no operation is left. -/
def State.tearOtp (s : State) : State :=
  match s.lovage.op.map (·.steps) with
  | some (st :: _) =>
    let some' := st.bits &&& Config.freeValue 32 s.free
    let s := s.setLovage fun l => { l.program st some' (Config.freeValue 1 (s.free + 1) == 1) with op := none }
    s.useFree 2
  | _ => s.setLovage fun l => { l with op := none }

/-! ## Setup registers -/

/-- PD_AON holds a copy of the cell (R437): every cell but GL_SETUP_ERR and the write-only LC_PROG_DATA. -/
def retained (a : Nat) : Bool := a != 0x20 && !(0x80040 ≤ a && a < 0x80070)

/-- The cell lies in the SG_ window. -/
def inSg (a : Nat) : Bool := 0x70000 ≤ a && a < 0x80000

/-- Setup registers at their Reset columns, but for the cells that keep holds, which take their value in old. -/
def restoreRegs (keep : Nat → Bool) (old : RegFile) : RegFile :=
  regsReset.map fun x => if keep x.1 then (x.1, assocD old x.1 x.2) else x

/-- Registers after a deep sleep (R438): the retention copy, except SG_INIT_SEC, SG_INIT_NS and SG_CFG.lock. -/
def deepRegs (copy : RegFile) : RegFile :=
  let regs := restoreRegs (fun a => retained a && a != 0x70008 && a != 0x70010) copy
  assocSet regs 0x70000 (assocD regs 0x70000 0 &&& 0x7FFFFFFF)

/-! ## Power domains -/

/-- SORREL as PD_MAIN's loss leaves it: the retirement map is rebuilt at start-up (R391); the ck_time PLLs lie in PD_TIME. -/
def Sorrel.lost (x : Sorrel) : Sorrel := { Sorrel.reset with pllTime := x.pllTime }

/-- LOVAGE as PD_MAIN's loss leaves it: OTP, the state derived from it and the comparators stay (R418, R421, R422). -/
def Lovage.lost (l : Lovage) : Lovage :=
  { l with opDone := false, opResult := 0, opCode := 0, hit := 0, dbgClass := 0, retArmed := false, chal := none, checking := none,
           resp := [], respFailed := false, granted := none, dbgResult := 0, dbgClosed := false, attKey := none }

/-- THYME as PD_MAIN's loss leaves it: the tick number is SAGE's (R30). -/
def Thyme.lost (t : Thyme) : Thyme :=
  { Thyme.reset with tick := t.tick, epoch := t.epoch, epochDue := t.epochDue, tickCycles := t.tickCycles, cycAcc := t.cycAcc, short := t.short }

/-- A write of a cell of the SG_ window that waits for its boundary: the cell lies in PD_TIME. -/
def Change.isSg : Change → Bool
  | .setup a _ => inSg a
  | _ => false

/-- PD_MAIN is switched off: everything on it is gone (Table 14.6). -/
def State.losePdMain (s : State) : State :=
  let s := s.tearOtp
  { s with
    lovage := s.lovage.lost, sage := { s.sage with pipe := [] }, thyme := s.thyme.lost, sorrel := s.sorrel.lost, fennel := .reset,
    txns := [], bay := .reset, keyBus := .reset, mint := .reset, dill := .reset, basil := .reset,
    parsley := { qs := [] }, domains := [], shown := [], admin := { Admin.reset with changes := s.admin.changes.filter Change.isSg } }

/-- PD_TIME is switched off: SAGE's state is lost, and its counter starts at 0 on power-up (R290, Table 14.6). -/
def State.losePdTime (s : State) : State :=
  { s with sage := .reset, thyme := .reset, admin := .reset, sorrel := { s.sorrel with pllTime := false }, lovage := { s.lovage with chal := none } }

/-! ## Into Sense -/

/-- Mode control at the start of Sense; s1 says that PD_TIME kept running. -/
def ModeUnit.sense (s1 fromLight : Bool) : ModeUnit :=
  { ModeUnit.reset with steps := { ModeUnit.reset.steps with s1 := s1 }, fromLight := fromLight }

/-- One bit of a cause register. -/
def causeBit (n i : Nat) : BitVec n := BitVec.ofNat n (2 ^ i)

/-- A reset kind that keeps PD_TIME or not enters Sense (R439); cause is its bit of GL_RESET_CAUSE. -/
def State.resetTo (s : State) (cause : Nat) (keepTime : Bool) : State :=
  let s := s.losePdMain
  let s := if keepTime then s else s.losePdTime
  let regs := if keepTime then restoreRegs inSg s.regs else regsReset
  { s with
    regs := regs, mode := .sense (keepTime && s.mode.steps.s1) false,
    aon := { s.aon with resetCause := s.aon.resetCause ||| causeBit 6 cause, retention := regs } }

/-- Wake from a sleep (R438): light sleep keeps SAGE and returns every register; cause is the bit of GL_WAKE_CAUSE. -/
def State.wake (s : State) (cause : Nat) : State :=
  let light := s.mode.mode == .lightSleep
  let regs := if light then restoreRegs retained s.aon.retention else deepRegs s.aon.retention
  { s with
    regs := regs, mode := { ModeUnit.sense (light && s.mode.steps.s1) light with recovery := true },
    aon := { s.aon with
      wakeCause := s.aon.wakeCause ||| causeBit 4 cause, resetCause := s.aon.resetCause ||| causeBit 6 (if light then 4 else 5),
      retention := regs } }

/-! ## Clearing -/

/-- GL_STARTUP at the end of a start-up: ticks from the start of PD_MAIN power-up (Table 14.2). -/
def State.endStartup (s : State) : State := s.setMode fun m => { m with startup := BitVec.ofNat 32 (s.thyme.tick - m.step3Tick) }

/-- A debug class or a return authorisation that waits for its tick. -/
def Change.isDebug : Change → Bool
  | .debug .. => true
  | _ => false

/-- The clearing of R416: the open class, the return authorisation, and one that waits for its tick, with it; a journal write on its way is left to return (R415), and accesses held at the port are none of Duern's. -/
def State.clearSecrets (s : State) : State :=
  let jnl (r : KbReq) : Bool := match r.kind with
    | .jnlWrite .. => true
    | _ => false
  { s with
    bay := .reset, mint := .reset, basil := .reset
    dill := { s.dill with ctxs := [], sealKey := none, rp := { RegPath.reset with held := s.dill.rp.held } }
    admin := { s.admin with changes := s.admin.changes.filter fun c => !c.isDebug }
    sage := { s.sage with pipe := [] }
    thyme := { s.thyme with issues := [], outs := [] }
    keyBus := { s.keyBus with reqs := s.keyBus.reqs.filter jnl }
    lovage := { s.lovage with attKey := none, dbgClass := 0, retArmed := false, granted := none, checking := none } }

end Sys2Proof.Machine
end

