-- ==== Sys2Proof/Machine/Alarm.lean ====
section
/-! DEFINITION. The alarm latch and the response to it: which sources are enabled (R412), what is latched (R413), and what Duern does by the mode of the latch (R414, R415). -/

namespace Sys2Proof.Machine

/-- Sources that can latch an alarm: all in SECURED and RETURNED, whatever LC_TAMPER_EN holds, and none in SCRAPPED, where Duern never leaves Alarm (R398, R412, Table 13.1). -/
def State.tamperEnabled (s : State) : BitVec 12 :=
  match s.lovage.life with
  | .secured | .returned => BitVec.allOnes 12
  | .scrapped => 0
  | _ => (s.reg 0x80080).setWidth 12

/-- A job is in flight: validated, and its completion not issued (R415). -/
def Job.inFlight (j : Job) : Bool := !j.issued

/-- What is left of a job that an alarm ends: its entry, its destination and the status TAMPER_ABORT (R415). -/
def Job.aborted (j : Job) : Job :=
  { j with
    status := some .tamperAbort, iv := none, detail := 0, time := none, outTag := [], acked := [], slices := [], zeros := [], data := [],
    bytesDone := 0, result0 := 0, result1 := 0, adminDetail := 0xFFFF, firstTick := none, hasRecord := false, keys := [],
    tableBuf := [] }

/-- One in-flight job is aborted: the table of its destination is read first when its bytes are known only from it (R415). -/
def State.abortJob (s : State) (q : Nat) (c : BitVec 17) : State :=
  match s.job? q c with
  | none => s
  | some j =>
    let s := s.setJob q c Job.aborted
    if j.queue != 0 && eDstInd j.entry && eDst j.entry != 0 && j.dstTable.isNone then
      (s.setJob q c fun j => { j with phase := .frags }).readTable j.aborted true
    else
      let n := s.abortLen j
      let s := s.setJob q c fun j => { j with phase := .writing }
      (s.writeDst j (s.payloadClass j.domain) 0 (Machine.zeros n) fun o => .zero q c o).settle q c

/-- Transactions that an alarm stops: all but completions, the dirty log, timestamps, context lines, and event writes that have gone out. -/
def Txn.stops (t : Txn) : Bool :=
  match t.purpose with
  | .completion .. | .dirty _ | .marker _ | .stamp _ | .line .. => false
  | .events .. => t.tag.isNone
  | _ => true

/-- Staged events and posted loads are dropped (R415). -/
def State.dropStaged (s : State) : State :=
  let f (q : EventQ) : EventQ := { q with staged := [], gap := 0, held := [] }
  let s := s.admin.loads.foldl (fun s l => s.dropLoadJob l.load) s
  let s := { s with parsley := { qs := s.parsley.qs.map f }, admin := { s.admin with loads := [] } }
  s.parsley.qs.foldl (fun s q => s.checkHold q.domain) s

/-- Context lines on their way to the fabric carry zeros from the latch on: a line that Duern owns is evicted with zero data before the ports stop (Table 15.8). -/
def State.zeroLines (s : State) : State :=
  let clear (t : Txn) : Txn := match t.purpose with
    | .line .. => { t with data := t.data.map (fun _ => 0), poison := [] }
    | _ => t
  let zero (l : WbLine) : WbLine := { l with data := Machine.zeros 128, checks := flitChecks (Machine.zeros 128) }
  { s with txns := s.txns.map clear, dill := { s.dill with lines := s.dill.lines.map zero } }

/-- Steps 1 and 2 of R415, and the writes of step 3, which go out from the next tick: the reported mode stays until the ports stop. -/
def State.beginAbort (s : State) : State :=
  let s := (s.killTxns Txn.stops).zeroLines.dropStaged
  let s := (s.fennel.jobs.filter (·.inFlight)).foldl (fun s j => s.abortJob j.queue j.count) s
  s.clearSecrets.setMode fun m => { m with
    mode := .alarm, aborting := true, reqErr := m.reqErr || m.resume || (m.target != 0 && m.mode != .drain), target := 0, hold := false,
    quiet := false, resume := false, latched := none }

/-- OTP as every Sense reads it, when the alarm comes before step 2 has (R396, R412): source 10 joins the latch when a word's copies are at odds. -/
def State.senseInAlarm (s : State) : State :=
  let s := s.setLovage Lovage.atSense
  if !s.lovage.controlTorn then s
  else
    let m : BitVec 12 := causeBit 12 10
    let s := s.setLovage fun l => { l with hit := l.hit ||| m, firing := l.firing ||| m }
    if s.tamperEnabled &&& m != 0 then { s with aon := { s.aon with alarmSources := s.aon.alarmSources ||| m } } else s

/-- Start-up stops: R416, then Alarm (Table 13.11); a GO or PROVISION that was latched is dropped (R426). -/
def State.alarmInStartup (s : State) : State :=
  let s := if s.mode.steps.s2 then s.endStartup else s.senseInAlarm
  s.clearSecrets.setMode fun m => { m with
    mode := .alarm, mainOn := true, reqErr := m.reqErr || m.target != 0, target := 0, hold := false, latched := none }

/-- The response to an alarm that has just latched (Table 13.11). -/
def State.alarmResponse (s : State) : State :=
  match s.mode.mode with
  | .cold => s
  | .alarm => s
  | .sense => s.alarmInStartup
  | .startup => s.alarmInStartup
  | .lightSleep => (s.setSage fun g => { g with pipe := [] }).wake 3
  | .deepSleep => s.wake 3
  | _ => s.beginAbort

/-- The OTP operation that runs ends with the copy in progress (R409). -/
def Lovage.halt (l : Lovage) : Lovage := { l with op := l.op.map fun o => { o with halted := decide (1 < o.steps.length), steps := o.steps.take 1 } }

/-- LC_ALARM, LC_ALARM_TICK and LC_ALARM_AON at the latch (R413, Table 13.7). -/
def State.latchedAon (s : State) (sources : BitVec 12) : Aon :=
  let deep := s.mode.mode == .deepSleep
  { s.aon with
    alarmLatched := true, alarmMode := BitVec.ofNat 4 (modeNum s.mode.mode), alarmSources := sources, alarmNow := s.timeRuns
    alarmTick := BitVec.ofNat 64 (if deep then s.aon.deepTick else s.thyme.tick)
    alarmAon := if deep then BitVec.ofNat 48 s.aon.aonCount else 0 }

/-- The alarm latches for some sources, or they are added to a latch that is set (R412 to R414). -/
def State.latchAlarm (s : State) (sources : BitVec 12) : State :=
  if s.mode.mode == .cold then s
  else if s.aon.alarmLatched then { s with aon := { s.aon with alarmSources := s.aon.alarmSources ||| sources } }
  else ({ s with aon := s.latchedAon sources, lovage := s.lovage.halt } : State).alarmResponse

/-- A source fires: its hit bit is set, and the alarm latches when the source is enabled, or latches whatever LC_TAMPER_EN holds (R412, R499). -/
def State.fire (s : State) (source : Nat) (always : Bool) : State :=
  let m : BitVec 12 := causeBit 12 source
  let s := s.setLovage fun l => { l with hit := l.hit ||| m, firing := l.firing ||| m }
  if always || s.tamperEnabled &&& m != 0 then s.latchAlarm m else s

end Sys2Proof.Machine
end

