-- ==== Sys2Proof/Machine/Modes.lean ====
section
/-! DEFINITION. Mode control in service (14_modes_power_startup.md): the setup checks (Table 16.3), the requests of GL_MODE_CTL (R425, R428, R432 to R437, R484), the drained point (R434), the drain limit (R435), wake causes (R438), and the PPS input edge that is one of them (R293). -/

namespace Sys2Proof.Machine

/-! ## Setup checks -/

/-- The extents [a, a + m) and [b, b + n) share no address. -/
def apart (a m b n : Nat) : Bool := a + m ≤ b || b + n ≤ a

/-- Bytes of a journal copy (Table 16.3). -/
def copyBytes : Nat := 8392704

/-- The checks of Table 16.3 in bit order, over the values that firmware has written (notes/assumptions/43). -/
def State.setupChecks (s : State) : List Bool :=
  let r (a : Nat) : Nat := s.regSoon a
  let n := r 0x20010 % 32
  let q0 := r 0x20008 % 2 ^ 52
  let hwm := bits (r 0x1C) 15 8
  let a := r 0x40010 % 2 ^ 48
  let b := r 0x40018 % 2 ^ 48
  let m := r 0x40020 % 2 ^ 48
  let save := r 0x50008 % 2 ^ 52
  [ q0 != 0 && q0 % 4096 == 0 && q0 + 2 ^ n * 128 ≤ 2 ^ 52 && 4 ≤ n && n ≤ 16,
    r 0x10 % 4096 == 0 && 1 ≤ hwm && hwm ≤ 64 && bits (r 0x1C) 7 0 < hwm,
    bits (r 0x40008) 28 24 ≤ 24 && r 0x40008 % 2 ^ 24 + 2 ^ bits (r 0x40008) 28 24 - 1 ≤ 0xFFFFFF,
    r 0x4000C % 2 ^ 17 ≤ 65536,
    save % 4096 == 0 && (save != 0 || r 0x50010 % 65536 == 0),
    !bit (r 0x40000) 0 || (a % 65536 == 0 && b % 65536 == 0 && m % 64 == 0 && apart a copyBytes b copyBytes
      && apart a copyBytes m 64 && apart b copyBytes m 64),
    r 0x60008 % 16 == 0 && r 0x60010 % 16 == 0,
    r 0x90080 % 65536 == 0 ]

/-- GL_SETUP_ERR.failed: bit i says that check i failed. -/
def State.setupErr (s : State) : Nat := ((List.range 8).filter fun i => !nth s.setupChecks i true).map (2 ^ ·) |>.sum

/-- GL_SETUP_ERR after the checks (R484). -/
def State.recordChecks (s : State) : State := s.setReg 0x20 (BitVec.ofNat 64 s.setupErr)

/-! ## Requests -/

/-- A write of a request to GL_MODE_CTL reaches mode control in its turn (R425, R475, R477); a start-up that has failed answers only RESET (R430). -/
def State.modeWrite (s : State) (src : From) (req : BitVec 64) (f : State → State) : Ans :=
  guarded (s.windowWrite src && (req == 8 || s.mode.fail == 0)) s fun s => s.inTurn (.write src 0x100 4 req) f

/-- A refused request (R425). -/
def State.refuseMode (s : State) : State := s.setMode fun m => { m with reqErr := true }

/-- A request is taken up in some modes, while no other is being carried out; else it is refused (R425). -/
def State.request (s : State) (modes : List Mode) (f : State → State) : State :=
  if modes.contains s.mode.mode && s.mode.target == 0 then f s else s.refuseMode

/-- GO is allowed from Provisioning (R432). -/
def Lovage.goAllowed (l : Lovage) : Bool :=
  match l.life with
  | .test => true
  | .provisioned | .secured | .develop => l.instConfirmed
  | _ => false

/-- GO is latched when every check passes (R428, R484). -/
def State.latchGo (s : State) : State :=
  if s.setupErr = 0 then s.setMode fun m => { m with latched := some .go, target := 1 } else s.refuseMode

/-- GO: every check of Table 16.3 runs when it is written; it is latched in the setup hold, or in Provisioning under the conditions of R432 (R428, R484). -/
def State.goRequest (s : State) : State :=
  s.recordChecks.request [.startup, .provisioning] fun s =>
    if (if s.mode.mode == .startup then s.mode.hold else s.lovage.goAllowed) then s.latchGo else s.refuseMode

/-- GO (R428, R432, R484). -/
def execGo (src : From) (s : State) : Ans := s.modeWrite src 1 State.goRequest

/-- PROVISION: latched in the setup hold, with no check. -/
def State.provisionRequest (s : State) : State :=
  s.request [.startup] fun s => if s.mode.hold then s.setMode fun m => { m with latched := some .provision, target := 7 } else s.refuseMode

/-- PROVISION (R428, R431). -/
def execProvision (src : From) (s : State) : Ans := s.modeWrite src 7 State.provisionRequest

/-- RESUME: Duern returns to service at the next tick boundary. In Drain, target stays DRAIN, and from a Drain that began in Provisioning Duern reaches Service as GO would take it there, under GO's conditions (R432, DESIGN CHOICE, notes/assumptions/133). -/
def State.resumeRequest (s : State) : State :=
  if s.mode.mode == .quiesce && s.mode.target == 0 then s.setMode fun m => { m with target := 2 }
  else if s.mode.mode == .drain && s.mode.target == 3 then
    if !s.mode.fromProv then s.setMode fun m => { m with resume := true }
    else
      let s := s.recordChecks
      if s.lovage.goAllowed && s.setupErr == 0 then s.setMode fun m => { m with resume := true } else s.refuseMode
  else s.refuseMode

/-- RESUME (R434, R436). -/
def execResume (src : From) (s : State) : Ans := s.modeWrite src 2 State.resumeRequest

/-- Modes from which Drain is entered (Table 14.3). -/
def drainFrom : List Mode := [.provisioning, .service, .degraded, .quiesce]

/-- Enter Drain with a target (R433). -/
def State.enterDrain (s : State) (target : BitVec 4) : State :=
  (s.setMode fun m => { m with
    mode := .drain, target := target, quiet := false, drainTick := s.thyme.tick, fromProv := m.mode == .provisioning, resume := false,
    drainedPt := false }).releaseHolds

/-- DRAIN, LIGHT_SLEEP or DEEP_SLEEP: Drain is entered with that target (R433). -/
def State.drainRequest (target : BitVec 4) (s : State) : State := s.request drainFrom (·.enterDrain target)

/-- DRAIN (R433). -/
def execDrain (src : From) (s : State) : Ans := s.modeWrite src 3 (State.drainRequest 3)

/-- LIGHT_SLEEP (R437). -/
def execLightSleep (src : From) (s : State) : Ans := s.modeWrite src 5 (State.drainRequest 5)

/-- DEEP_SLEEP (R437). -/
def execDeepSleep (src : From) (s : State) : Ans := s.modeWrite src 6 (State.drainRequest 6)

/-- QUIESCE: entered at the next tick boundary. -/
def State.quiesceRequest (s : State) : State := s.request [.service, .degraded] fun s => s.setMode fun m => { m with target := 4 }

/-- QUIESCE (R436). -/
def execQuiesce (src : From) (s : State) : Ans := s.modeWrite src 4 State.quiesceRequest

/-! ## The drained point -/

/-- Duern is at the drained point of this Drain: it was reached at a tick boundary (R434). -/
def State.atDrainedPoint (s : State) : Bool := s.mode.mode == .drain && s.mode.drainedPt

/-- Mode control in a sleep. -/
def ModeUnit.asleep (mode : Mode) (timeOn s1 : Bool) : ModeUnit :=
  { ModeUnit.sense s1 false with mode := mode, timeOn := timeOn }

/-- Entry into light sleep: PD_MAIN goes off and SAGE runs on (R437). -/
def State.enterLight (s : State) : State := { s.losePdMain with mode := .asleep .lightSleep true s.mode.steps.s1 }

/-- Entry into deep sleep: the tick of entry is latched and PD_TIME goes off as well (R437). -/
def State.enterDeep (s : State) : State :=
  { s.losePdMain.losePdTime with mode := .asleep .deepSleep false false, aon := { s.aon with deepTick := s.thyme.tick, aonCount := 0 } }

/-- Entry into Authorised debug: the clearing of R416, the key bus closed, the class open (R421). -/
def State.enterDebug (s : State) : State :=
  let g := s.lovage.granted.getD (0, false)
  let s := s.clearSecrets.setMode fun m => { m with mode := .authDebug, target := 0 }
  (s.setLovage fun l => { l with dbgClosed := true, dbgClass := g.1, retArmed := g.2 }).releaseHolds

/-- DRAINED_POINT (R434, R437, R421): with target DRAIN Duern stays in Drain. -/
def execDrainedPoint (s : State) : Ans :=
  guarded s.atDrainedPoint s fun s =>
    match s.mode.target with
    | 5 => s.enterLight
    | 6 => s.enterDeep
    | 9 => s.enterDebug
    | _ => s

/-- DRAIN_LIMIT_EXPIRY (R435): the remaining jobs end as a domain reset ends them, with no completion, and posted loads with them. -/
def execDrainLimitExpiry (s : State) : Ans :=
  guarded (s.mode.mode == .drain && s.drainLimit) s fun s =>
    let s := s.fennel.jobs.foldl (fun s j => s.abandonJob j.queue j.count) s
    ({ s with admin := { s.admin with loads := [] } }).banksDrained

/-- RESET: a main reset, from the modes of Table 14.3, while no other request is being carried out but DRAIN (R425); the alarm latch of the same tick overtakes it (R426). -/
def State.resetRequest (s : State) : State :=
  let ok := match s.mode.mode with
    | .startup | .provisioning | .authDebug => s.mode.target == 0
    | .alarm => !s.mode.aborting && !s.aon.alarmNow
    | .drain => s.mode.target == 3 && s.atDrainedPoint
    | _ => false
  if ok then s.resetTo 3 true else s.refuseMode

/-- RESET (R439). -/
def execReset (src : From) (s : State) : Ans := s.modeWrite src 8 State.resetRequest

/-- A value of GL_MODE_CTL.req (Table 14.2): a request, or a value that is refused (R425). -/
def State.modeRequest (s : State) (req : Nat) : State :=
  match req with
  | 1 => s.goRequest
  | 2 => s.resumeRequest
  | 3 => State.drainRequest 3 s
  | 4 => s.quiesceRequest
  | 5 => State.drainRequest 5 s
  | 6 => State.drainRequest 6 s
  | 7 => s.provisionRequest
  | 8 => s.resetRequest
  | _ => s.refuseMode

/-! ## Wakes -/

/-- A sleep, in which a wake cause is enabled by a bit of GL_WAKE_CTL. -/
def State.wakeEnabled (s : State) (i : Nat) : Bool :=
  (s.mode.mode == .lightSleep || s.mode.mode == .deepSleep) && bit (s.regN 0x108) i

/-- A period of ck_aon in deep sleep, which LOVAGE counts (R437); the table has no command for it, so it is what the block does when no command waits (DESIGN CHOICE, notes/assumptions/8). -/
def State.idle (s : State) : State :=
  if s.mode.mode == .deepSleep then { s with aon := { s.aon with aonCount := s.aon.aonCount + 1 } } else s

/-- WAKE_TIMER (Table 14.5): in light sleep at the boundary of the tick number in GL_WAKE_TIMER, in deep sleep when its low 48 bits are the ck_aon periods since the entry. -/
def execWakeTimer (s : State) : Ans :=
  guarded (s.wakeEnabled 0 && (if s.mode.mode == .deepSleep then s.aon.aonCount % 2 ^ 48 == s.regN 0x110 % 2 ^ 48 else s.thyme.tick == s.regN 0x110))
    s (·.wake 0)

/-- WAKE_IN (Table 14.5). -/
def execWakeIn (s : State) : Ans := guarded (s.wakeEnabled 1) s (·.wake 1)

/-- PPS_INPUT_EDGE (R293, R309, Table 14.5): stamped, used by a PPS servo mode, and on input 0 a wake cause of light sleep. -/
def execPpsInputEdge (n : Nat) (strobe : Strobe) (s : State) : Ans :=
  guarded (n < 2) s fun s =>
    let s := s.ppsEdge n strobe
    if s.mode.mode == .lightSleep && n == 0 && s.wakeEnabled 2 then s.wake 2 else s

end Sys2Proof.Machine
end

