-- ==== Sys2Proof/Machine/Startup.lean ====
section
/-! DEFINITION. Resets and start-up (14_modes_power_startup.md): the reset kinds (R439, R440), Sense (R396, R401, R402, R410, R417), the steps of Table 14.4, start-up failures (R430), and the entry into Service or Provisioning (R427, R431, R480, R483, R484). -/

namespace Sys2Proof.Machine

/-! ## Resets -/

/-- What survives without the PD_AON supply: OTP; the model's outbox, counter and queue are no part of the block. -/
def State.onlyOtp (s : State) (m : ModeUnit) (cause : BitVec 6) : State :=
  { State.reset with
    mode := m, aon := { Aon.reset with resetCause := cause }
    lovage := { Lovage.reset with mono := s.lovage.mono, vals := s.lovage.vals }
    outbox := s.outbox, free := s.free, pending := s.pending }

/-- POWER_ON_RESET (R439): the release of PD_AON power-on reset, from Cold. -/
def execPowerOnReset (s : State) : Ans := guarded (s.mode.mode == .cold) s fun s => s.onlyOtp .reset 1

/-- PD_AON_SUPPLY_LOSS (R426): to Cold from any mode. -/
def execPdAonSupplyLoss (s : State) : Ans := done (s.tearOtp.onlyOtp { ModeUnit.reset with mode := .cold, timeOn := false } 0)

/-- A reset input acts in any mode but Cold, unless the alarm latch of the same tick overtakes it (R426). -/
def State.resetInput (s : State) : Bool := s.mode.mode != .cold && !s.aon.alarmNow

/-- DEVICE_RESET (R439). -/
def execDeviceReset (s : State) : Ans := guarded s.resetInput s (·.resetTo 1 false)

/-- MAIN_RESET (R439): rst_main. -/
def execMainReset (s : State) : Ans := guarded s.resetInput s (·.resetTo 2 true)

/-! ## Sense -/

/-- A step of Table 14.4 has ended. -/
def State.endStep (s : State) (f : Steps → Steps) : State := s.setMode fun m => { m with steps := f m.steps }

/-- TIME_GOOD (R427): step 1 ends. -/
def execTimeGood (s : State) : Ans :=
  guarded (s.mode.mode == .sense && s.mode.timeOn && !s.mode.steps.s1) s (·.endStep fun t => { t with s1 := true })

/-- MAIN_GOOD (R427, R471): step 3 ends. -/
def execMainGood (s : State) : Ans :=
  guarded (s.mode.mode == .sense && s.mode.steps.s2 && s.mode.mainOn && !s.mode.steps.s3) s (·.endStep fun t => { t with s3 := true })

/-- Step 2 of Table 14.4: OTP is read, and PD_MAIN is switched on (step 3); which sources still fire is open to the model (notes/assumptions/47). -/
def State.readOtp (s : State) : State :=
  let still := Config.freeValue 12 s.free
  let s := (s.setLovage fun l => { l.atSense with firing := l.firing &&& still }).useFree 1
  let s := s.setMode fun m => { m with steps := { m.steps with s2 := true }, mainOn := true, step3Tick := s.thyme.tick }
  if s.lovage.controlTorn then s.fire 10 false else s

/-- Event queue settings of domain 0 (Table 16.3a). -/
def State.evq0 (s : State) : EventQ :=
  newEventQ 0 0 (BitVec.ofNat 16 (bits (s.regSoon 0x18) 31 16)) (BitVec.ofNat 2 (bits (s.regSoon 0x18) 1 0))
    (BitVec.ofNat 16 (bits (s.regSoon 0x1C) 31 16)) (BitVec.ofNat 8 (bits (s.regSoon 0x1C) 15 8)) (BitVec.ofNat 8 (bits (s.regSoon 0x1C) 7 0)) s.thyme.tick

/-- Sense sends Duern to Alarm (R398, R417). -/
def State.senseToAlarm (s : State) : Bool :=
  s.lovage.life == .scrapped || s.aon.alarmLatched || s.lovage.firing &&& s.tamperEnabled != 0

/-- Rows that step 4 has found bad are mapped to spare rows, four of a memory at most (R377, R427): which, is open to the model. -/
def State.mapSpares (s : State) : State :=
  let take (rs : List (Nat × Nat)) (r : Nat × Nat) : List (Nat × Nat) :=
    if (rs.filter fun v => v.1 == r.1).length < 4 && !rs.contains r then rs ++ [r] else rs
  let rows := (Config.badRows s.free).foldl take []
  let x := s.sorrel
  ({ s with sorrel := { x with spareRows := rows, spared := rows.foldl (fun n _ => satInc n) x.spared } } : State).useFree 1

/-- Step 4 of Table 14.4 ends: Start-up test, with its setup hold but after a light sleep (R428), or Alarm. -/
def State.endSense (s : State) : State :=
  let s := s.mapSpares.endStep fun t => { t with s4 := true }
  if s.senseToAlarm then s.alarmInStartup
  else
    let s := s.setMode fun m => { m with mode := .startup, hold := !m.fromLight }
    { s with parsley := { qs := [s.evq0] } }

/-- SENSE (R396, R417, R427): OTP is read (step 2); once PD_MAIN is up, its memories are zeroed and tested (step 4). -/
def execSense (s : State) : Ans :=
  guarded (s.mode.mode == .sense) s fun s =>
    let t := s.mode.steps
    if !t.s2 then s.readOtp
    else if t.s1 && t.s3 && !t.s4 then s.endSense
    else s

/-! ## Start-up test -/

/-- An instance after its instantiation (R264). -/
def Drbg.fresh : Drbg := { instantiated := true, requests := 0, refusing := false }

/-- The attestation scalar of the states that Table 13.1 gives one, when the secret is readable (R282, R406). -/
def Lovage.deriveKey (l : Lovage) : Option Nat :=
  match l.life with
  | .provisioned | .secured | .develop => l.secret.map Config.attestationScalar
  | _ => none

/-- ENTROPY_START_UP_TESTS_END (R427): DRBGs, attestation key (R282) and sealing key (R235), drawn from LOVAGE's instance. -/
def execEntropyStartUpTestsEnd (s : State) : Ans :=
  guarded (s.mode.mode == .startup && s.mode.fail == 0 && s.mode.steps.s4 && !s.mode.steps.s5) s fun s =>
    let s := { s with basil := { s.basil with drbgs := List.replicate 17 Drbg.fresh } }
    let s := (s.drbgRequest 16).1
    let s := { s with dill := { s.dill with sealKey := some (s.freeBytes 32), saveCtr := 0 } }
    ((s.setLovage fun l => { l with attKey := l.deriveKey }).useFree 32).endStep fun t => { t with s5 := true }

/-- Units of a list with some retired. -/
def retireIn (l : List UnitState) (bad : List Nat) : List UnitState :=
  bad.foldl (fun l i => l.modify i fun x => { x with health := .retired }) l

/-- Roles of the ports: the eight lowest healthy ones serve the positions, the rest are spares (R455). -/
def portRoles (bad : List Nat) : List PortState :=
  let ok := (List.range 10).filter fun p => !bad.contains p
  (List.range 10).map fun p =>
    { role := match ok.findIdx? (· == p) with
        | some k => if k < 8 then .position k else .spare
        | none => .retired
      counts := 0, egress := 0, bad := false }

/-- The retirement map of step 7 (R391, R429); a clock whose running PLL has failed runs on the other one. -/
def Sorrel.mapOf (x : Sorrel) (f : StartupFindings) : Sorrel :=
  let half (bad : Bool) : Half := if bad then .retired else .inPair
  let other (core now : Bool) : Bool := if f.plls.contains (core, now) then !now else now
  let kb (i : Nat) (k : KbLane) : KbLane := if f.kb.contains i then { k with health := .retired } else k
  { x with
    lanes := retireIn x.lanes f.chive, dill := retireIn x.dill f.dill, basil := retireIn x.basil f.basil, ports := portRoles f.ports
    kb := x.kb.mapIdx kb
    cells := x.cells.mapIdx fun i ok => ok && !f.cells.contains i
    halves := x.halves.map fun h => (h.1, half (f.halves.contains (h.1, false)), half (f.halves.contains (h.1, true)))
    pllBad := f.plls, pllCore := other true x.pllCore, pllTime := other false x.pllTime }

/-- The counter pair after step 7 (R291). -/
def Sage.tested (g : Sage) (a b : Bool) : Sage :=
  let bad (x : Bool) (c : Counter) : Counter := if x then { c with failed := true, retired := true } else c
  { g with ctrA := bad a g.ctrA, ctrB := bad b g.ctrB, activeB := if a then true else if b then false else g.activeB }

/-- The lowest failure code of Table 14.3a, 0 for none. -/
def failureCode (f : StartupFindings) : Nat :=
  let all (n : Nat) (l : List Nat) : Bool := (List.range n).all l.contains
  let lost (u : LockUnit) : Bool := f.halves.contains (u, false) && f.halves.contains (u, true)
  let clock (core : Bool) : Bool := f.plls.contains (core, false) && f.plls.contains (core, true)
  ([(1, all 2 f.cells), (2, lost .thyme), (3, ([.fennel, .bay, .mint, .parsley, .sorrel, .sagePipe] : List LockUnit).any lost),
    (4, all 10 f.ports), (5, all 2 f.kb), (6, f.sageA && f.sageB), (7, clock true || clock false)] : List (Nat × Bool)).findSome? (fun x => if x.2 then some x.1 else none) |>.getD 0

/-- STARTUP_TESTS_END (R429, R430): step 7 ends: the units that failed are retired, or start-up fails. -/
def execStartupTestsEnd (found : StartupFindings) (s : State) : Ans :=
  guarded (s.mode.mode == .startup && s.mode.fail == 0 && s.mode.steps.s5 && s.mode.steps.s6 && !s.mode.steps.s7) s fun s =>
    let s := { s with sorrel := s.sorrel.mapOf found, sage := s.sage.tested found.sageA found.sageB }
    if failureCode found = 0 then s.endStep fun t => { t with s7 := true }
    else s.setMode fun m => { m with fail := BitVec.ofNat 4 (failureCode found), target := 0, latched := none, hold := false }

/-! ## Into Service or Provisioning -/

/-- Q0 as the registers of Table 16.6 set it (R340, R483). -/
def State.queue0 (s : State) : Queue :=
  let v := s.regSoon 0x20014
  newQueue 0 0 .c (s.regSoon 0x20010 % 32) (s.regSoon 0x20008 % 2 ^ 52)
    (Machine.zeros 36 ++ leBytes 2 (bits v 31 16) ++ leBytes 1 (bits v 15 8) ++ leBytes 1 (v % 2) ++ leBytes 2 (s.regSoon 0x20018 % 65536))

/-- Domain 0 as the registers of Table 16.3a set it. -/
def State.domain0 (s : State) : Domain :=
  let ns := s.regSoon 0x40008
  { num := 0, nsBase := ns % 2 ^ 24, nsLog2 := bits ns 28 24, slotRes := s.regSoon 0x4000C % 2 ^ 17, saveBase := s.regSoon 0x50008 % 2 ^ 52,
    saveCount := s.regSoon 0x50010 % 65536, deferred := false, resetting := none, deleting := false, linkDown := false, mailbox := .fresh,
    mig := .fresh, resetFlags := 0 }

/-- The settings of domain 0 are loaded as firmware has written them, those that the checks have judged, its staged events kept (R483, R484, notes/assumptions/43). -/
def State.loadDomain0 (s : State) : State :=
  let e := s.evq0
  let set (q : EventQ) : EventQ :=
    { q with base := s.regSoon 0x10 % 2 ^ 52, vector := e.vector, intPrio := e.intPrio, timeout := e.timeout, hwm := e.hwm, lwm := e.lwm,
             count := 0, headWord := 0 }
  ({ s with fennel := { s.fennel with queues := [s.queue0] }, domains := [s.domain0] }).setEvq 0 set

/-- In SECURED every lock is set at each entry to Service (R480). -/
def State.setLocks (s : State) : State :=
  if s.lovage.life == .secured then
    (lockRegs.foldl (fun s a => s.putSetup a (s.reg a ||| 0x80000000)) s).presentJournal
  else s

/-- Lane and sequencer maps of the epoch in force, and the initial plan (R48, R63, R226, R248). -/
def State.firstPlan (s : State) : State :=
  let seqs := (List.range 16).filter fun q => (s.sorrel.basil[q]?).any (·.health == .healthy)
  let e := s.thyme.tick / 65536
  let s : State := { s with thyme := { s.thyme with
    epoch := e, laneOf := s.mapFor e, dillOf := s.dillMapFor, seqOf := (List.range 14).map fun p => seqs[p]? } }
  s.usePlan initialPlan

/-- The servo mode that SG_CFG names for the entry to Service (Table 9.3). -/
def State.servoInit (s : State) : ServoMode := servoModeOf (bits (s.regN 0x70000) 11 10)

/-- Step 10 into Service (R427, R429, R480, R483). -/
def State.toService (s : State) : State :=
  let s := if s.mode.mode == .startup then s.endStartup else s
  let s := s.firstPlan.loadDomain0
  let s := { s with admin := { Admin.reset with changes := s.admin.changes } }
  let s := (s.setSage fun g => { g with ntsDue := true, servoMode := s.servoInit }).drawPrefix.1
  let s := s.setLocks.setMode fun m => { m with mode := .service, target := 0, latched := none, resume := false, hold := false, recovery := false }
  let s : State := { s with thyme := { s.thyme with epochPorts := s.activePorts } }
  let s := s.checkDegraded.releaseHolds
  if s.lovage.granted.isSome then s.enterDrain 9 else s

/-- Step 10 into Provisioning; a recovery that waits to format a blank journal does so (R402, R431). -/
def State.toProvisioning (s : State) : State :=
  let s := s.endStartup.setMode fun m => { m with mode := .provisioning, target := 0, latched := none, hold := false }
  let s := if s.mode.formatWait then s.formatJournal.confirmStart else s
  let s := s.releaseHolds
  if s.lovage.granted.isSome then s.enterDrain 9 else s

/-- Start-up goes to Provisioning (R403, R431). -/
def State.mustProvision (s : State) : Bool := !s.lovage.goAllowed || s.mode.latched == some .provision

/-- A GO that is carried out finds a check failed: Duern stays where it is (R484). -/
def State.goFails (s : State) : State :=
  s.recordChecks.setMode fun m => { m with
    reqErr := true, latched := none, resume := false, target := if m.mode == .drain then m.target else 0 }

/-- Steps 5 to 8 have ended, and the hold with GO or PROVISION, or it was not entered (Table 14.3). -/
def State.startupOver (s : State) : Bool :=
  let m := s.mode
  m.mode == .startup && m.fail == 0 && m.steps.s5 && m.steps.s6 && m.steps.s7 && (m.steps.s8 || m.formatWait) && (!m.hold || m.latched.isSome)

/-- A GO in Provisioning, or a RESUME in a Drain that began there, is being carried out (R432, notes/assumptions/133). -/
def State.leavesProvisioning (s : State) : Bool :=
  (s.mode.mode == .provisioning && s.mode.latched == some .go) || (s.mode.mode == .drain && s.mode.fromProv && s.mode.resume)

/-- ENTER_SERVICE (R427): step 10, and a GO or RESUME that leads out of Provisioning. -/
def execEnterService (s : State) : Ans :=
  let go := s.mode.latched == some .go
  if s.startupOver then
    if go && s.setupErr != 0 then done s.goFails
    else
      let s := if go then s.recordChecks else s
      done (if s.mustProvision then s.toProvisioning else s.toService)
  else guarded s.leavesProvisioning s fun s => if s.setupErr != 0 || !s.lovage.goAllowed then s.goFails else s.recordChecks.toService

end Sys2Proof.Machine
end

