-- ==== Sys2Proof/Machine/Lovage.lean ====
section
/-! DEFINITION. LOVAGE's operations on OTP: transitions (R407 to R409, Tables 13.4 and 13.5), programming and revocation (R402, R404), and the copies of a running operation (R399, R407, R409). -/

namespace Sys2Proof.Machine

/-! ## Results -/

/-- Report a result without ending what runs (Table 13.5). -/
def State.otpReport (s : State) (k : OtpKind) (r : BitVec 8) : State :=
  s.setLovage fun l => { l with opDone := true, opResult := r, opCode := BitVec.ofNat 8 k.code }

/-- The challenge, the open class and the return authorisation end (R409, R418, R422); a class on its way to Authorised debug is closed there. -/
def State.closeDebug (s : State) : State :=
  let s := { s with admin := { s.admin with changes := s.admin.changes.filter fun c => !c.isDebug } }
  s.setLovage fun l => { l with dbgClass := 0, retArmed := false, granted := l.granted.map fun _ => (0, false) }

/-- The life-cycle state after the changes that wait. -/
def State.lifeSoon (s : State) : Life :=
  s.admin.changes.foldl (fun v c => match c with
    | .life st _ => st
    | _ => v) s.lovage.life

/-- LOVAGE derives the state afresh, in force from the next tick; a change closes debug, and SCRAPPED raises source 11 (R409). -/
def State.deriveAfresh (s : State) : State :=
  let st := s.lovage.deriveLife
  let moved := st != s.lifeSoon
  let s := s.addChange (.life st s.lovage.deriveLeft)
  if !moved then s
  else
    let s := s.closeDebug.setLovage fun l => { l with chal := none }
    if st == .scrapped then s.fire 11 true else s

/-- An operation has ended with a result: what each kind does then (R280, R409). -/
def State.otpEnd (s : State) (k : OtpKind) (r : BitVec 8) : State :=
  let s := (s.setLovage fun l => { l with op := none }).otpReport k r
  match k with
  | .transition => s.deriveAfresh
  | .commit b _ => if s.inAlarm then s else if r == 0 then s.dropOldBanks else s.ucodeEvent b 4 []
  | _ => s

/-- OTP_COPY_DONE (R399, R407, R409): the time of one copy has passed; readBack says that it holds its bits, holdupOk is the sample taken before it. -/
def execOtpCopyDone (readBack : Bool) (holdupOk : Bool) (s : State) : Ans :=
  onSome s.lovage.op s fun o =>
    match o.steps with
    | [] => s.otpEnd o.kind 0
    | st :: rest =>
      if !o.pulsed && !holdupOk then s.otpEnd o.kind 4
      else if readBack then
        let s := s.setLovage fun l => l.program st st.bits true
        if o.halted then (s.useFree 1).otpEnd o.kind (Config.freeValue 8 s.free)
        else if rest.isEmpty then s.otpEnd o.kind 0
        else s.setLovage fun l => { l with op := some { o with steps := rest, pulsed := false } }
      else
        let s := (s.setLovage fun l =>
          l.program st (st.bits &&& Config.freeValue 32 s.free) (Config.freeValue 1 (s.free + 1) == 1)).useFree 2
        if o.pulsed then s.otpEnd o.kind 7 else s.setLovage fun l => { l with op := some { o with pulsed := true } }

/-! ## Transitions -/

/-- The target of a code (Table 13.3). -/
def lifeOf (code : BitVec 32) : Option Life :=
  ([.test, .provisioned, .secured, .develop, .returned, .scrapped] : List Life).find? fun t => lifeCode t == code

/-- The move is in Table 13.4. -/
def lifeMoveOk (a t : Life) : Bool := if t == .scrapped then a != .scrapped else lifeMoves.contains (a, t)

/-- Modes of a move (Table 13.4). -/
def lifeModeOk (m : Mode) (t : Life) : Bool :=
  match t with
  | .test | .provisioned => m == .provisioning
  | .secured | .develop => m == .provisioning || m == .service || m == .degraded
  | .returned => m == .provisioning || m == .authDebug
  | _ => true

/-- A readable digest of a kind. -/
def Lovage.hasDigest (l : Lovage) (mlDsa : Bool) : Bool :=
  (List.range 4).any fun i => !l.digestBlank mlDsa i && (l.keyDigest mlDsa i).isSome

/-- The lowest blank secret slot (Table 13.4). -/
def Lovage.blankSecret (l : Lovage) : Option Nat :=
  ([0, 1] : List Nat).find? fun i => (List.range 8).all fun w => l.valBlank (24 + 8 * i + w)

/-- What the move to PROVISIONED needs (Table 13.4). -/
def Lovage.provisionReady (l : Lovage) : Bool :=
  (l.readVal 20).any (· != 0) && l.hasDigest false && l.hasDigest true && l.blankSecret.isSome

/-- Every copy of both secret slots, all bits (Table 13.9). -/
def wipeSteps : List OtpStep := (List.range 16).flatMap fun w => valSteps (24 + w) (BitVec.allOnes 32)

/-- The eight words of a new secret, drawn from LOVAGE's DRBG. -/
def secretSteps (slot free : Nat) : List OtpStep :=
  (List.range 8).flatMap fun w => valSteps (24 + 8 * slot + w) (Config.freeValue 32 (free + w))

/-- Start a permitted move whose last word is w. -/
def State.startMove (s : State) (t : Life) (w : Nat) : State :=
  let word := monoSteps w (lifeCode t)
  match t with
  | .provisioned =>
    let (s, served) := s.drbgRequest 16
    match s.lovage.blankSecret with
    | some i => if served then (s.otpStart .transition (secretSteps i s.free ++ word)).useFree 8 else s.otpEnd .transition 6
    | none => s.otpEnd .transition 6
  | .returned => s.otpStart .transition (wipeSteps ++ word)
  | _ => s.otpStart .transition word

/-- The result that refuses a move, in the order of notes/assumptions/48. -/
def State.moveRefusal (s : State) (t : Life) : Option (BitVec 8) :=
  let l := s.lovage
  if !lifeMoveOk l.life t then some 1
  else if !lifeModeOk s.mode.mode t then some 2
  else if t == .returned && !l.retArmed then some 5
  else if t == .provisioned && !l.provisionReady then some 6
  else if t != .scrapped && l.nextWord.isNone then some 3
  else none

/-- A write to a register of LOVAGE is taken in its turn (R430, R475, R477). -/
def State.lovageWrite (s : State) (src : From) (addr value : Nat) (f : State → State) : Ans :=
  guarded (s.unitWrite src) s fun s => s.inTurn (.write src addr 4 (BitVec.ofNat 64 value)) f

/-- A write to LC_TRANSITION (R408); a refused attempt derives the state afresh too (R409). -/
def State.transition (code : BitVec 32) (s : State) : State :=
  let refuse (r : BitVec 8) : State := (s.otpReport .transition r).deriveAfresh
  if s.lovage.op.isSome then refuse 8
  else match lifeOf code with
    | none => refuse 9
    | some t => match s.moveRefusal t with
      | some r => refuse r
      | none => s.startMove t (if t == .scrapped then 16 else s.lovage.nextWord.getD 0)

/-- TRANSITION (R408). -/
def execTransition (src : From) (code : BitVec 32) (s : State) : Ans := s.lovageWrite src 0x80008 code.toNat (State.transition code)

/-! ## Programming -/

/-- A word of LC_PROG_DATA, as firmware has written it: a write-only field has its value at once (R13, notes/assumptions/43). -/
def State.progData (s : State) (i : Nat) : BitVec 32 := BitVec.ofNat 32 (s.regSoon (0x80040 + 4 * i))

/-- States in which a key may be revoked, and any instance slot programmed (R402, R404). -/
def Life.active (l : Life) : Bool := l == .provisioned || l == .secured || l == .develop

/-- A programming operation is refused with a result, or started. -/
def State.progStart (s : State) (r : Option (BitVec 8)) (steps : List OtpStep) : State :=
  match if s.lovage.op.isSome then some 8 else r with
  | some r => s.otpReport .programming r
  | none => s.otpStart .programming steps

/-- Program an instance slot (R402). -/
def State.progSlot (s : State) (index : Nat) : State :=
  let l := s.lovage
  let v := s.progData 0 &&& 0x7FFFFF
  let r : Option (BitVec 8) :=
    if 3 < index || v == 0 then some 9
    else if !(l.life.active || (l.life == .test && index == 0)) then some 1
    else if !l.valBlank (20 + index) then some 3
    else if (List.range index).any fun i => l.valBlank (20 + i) then some 6
    else none
  s.progStart r (valSteps (20 + index) v)

/-- The value of a write to LC_PROG_CTL (Table 13.7). -/
def progCtl (op index : Nat) : Nat := op * 16 + min index 15

/-- PROGRAM_INSTANCE_SLOT (R402). -/
def execProgramInstanceSlot (src : From) (index : Nat) (s : State) : Ans := s.lovageWrite src 0x80010 (progCtl 1 index) (·.progSlot index)

/-- Program a key digest (R404). -/
def State.progDigest (s : State) (mlDsa : Bool) (index : Nat) : State :=
  let l := s.lovage
  let r : Option (BitVec 8) :=
    if 3 < index then some 9
    else if !(l.life == .test || l.life == .provisioned) then some 1
    else if !l.digestBlank mlDsa index then some 3
    else none
  s.progStart r ((List.range 12).flatMap fun w => valSteps (digestWord mlDsa index + w) (s.progData w))

/-- PROGRAM_ECDSA_DIGEST (R404). -/
def execProgramEcdsaDigest (src : From) (index : Nat) (s : State) : Ans := s.lovageWrite src 0x80010 (progCtl 2 index) (·.progDigest false index)

/-- PROGRAM_ML_DSA_DIGEST (R404). -/
def execProgramMlDsaDigest (src : From) (index : Nat) (s : State) : Ans := s.lovageWrite src 0x80010 (progCtl 3 index) (·.progDigest true index)

/-- Revoke a key, unless no unrevoked, readable digest of its kind would be left (R404). -/
def State.revokeKey (s : State) (mlDsa : Bool) (index : Nat) : State :=
  let l := s.lovage
  let left := (List.range 4).any fun i => i != index && !l.keyRevoked mlDsa i && !l.digestBlank mlDsa i
  let r : Option (BitVec 8) := if 3 < index then some 9 else if !l.life.active then some 1 else if !left then some 6 else none
  s.progStart r (monoSteps 19 (BitVec.ofNat 32 (2 ^ (index + if mlDsa then 4 else 0))))

/-- REVOKE_ECDSA_KEY (R404). -/
def execRevokeEcdsaKey (src : From) (index : Nat) (s : State) : Ans := s.lovageWrite src 0x80010 (progCtl 4 index) (·.revokeKey false index)

/-- REVOKE_ML_DSA_KEY (R404). -/
def execRevokeMlDsaKey (src : From) (index : Nat) (s : State) : Ans := s.lovageWrite src 0x80010 (progCtl 5 index) (·.revokeKey true index)

/-- A write to LC_PROG_CTL (Table 13.7); an operation that the table does not name is an invalid code (Table 13.5). -/
def State.progCommand (s : State) (v : Nat) : State :=
  let i := v % 16
  match v / 16 % 16 with
  | 1 => s.progSlot i
  | 2 => s.progDigest false i
  | 3 => s.progDigest true i
  | 4 => s.revokeKey false i
  | 5 => s.revokeKey true i
  | _ => s.otpReport .programming 9

end Sys2Proof.Machine
end

