-- ==== Sys2Proof/Machine/Debug.lean ====
section
/-! DEFINITION. Debug authorisation (R418 to R422) and tamper commands: sources that fire (R412, R413), the ports' stop (R415) and the clearing of the latch (R417). -/

namespace Sys2Proof.Machine

/-! ## Challenges -/

/-- A challenge (Table 13.12). -/
def State.challenge (s : State) (cls : Nat) : Bytes :=
  padTo 64 (leBytes 4 0x000D0001 ++ leBytes 4 Config.hwId.toNat ++ leBytes 4 (s.lovage.instanceId.getD 0)
    ++ leBytes 1 (lifeNum s.lovage.life) ++ leBytes 1 cls ++ Machine.zeros 2 ++ leBytes 8 s.thyme.tick ++ s.freeBytes 32)

/-- REQUEST: a challenge, once LOVAGE's DRBG serves its nonce (R418). -/
def State.requestChallenge (s : State) (cls : Nat) : State :=
  if cls = 0 || 4 < cls || !(s.basil.drbgs[16]?).any (·.instantiated) then s
  else
    let (s, served) := s.drbgRequest 16
    if !served then s
    else
      let c : Challenge := { bytes := s.challenge cls, cls := cls, tick := s.thyme.tick }
      (s.setLovage fun l => { l with chal := some c }).useFree 32

/-- The value of a write to LC_DBG_CTL (Table 13.7). -/
def dbgCtl (cmd cls : Nat) : Nat := cmd * 2 ^ 28 + min cls 7

/-- REQUEST (R418). -/
def execRequest (src : From) (cls : Nat) (s : State) : Ans := s.lovageWrite src 0x800A0 (dbgCtl 1 cls) (·.requestChallenge cls)

/-- CHALLENGE_EXPIRY (R418): 600 s after its issue. -/
def execChallengeExpiry (s : State) : Ans :=
  onSome (s.lovage.chal.filter fun c => c.tick + 3750000000 ≤ s.thyme.tick) s fun _ => s.setLovage fun l => { l with chal := none }

/-! ## Responses -/

/-- Bytes of a response (Table 13.13). -/
def responseBytes : Nat := 7571

/-- SUBMIT: with no valid challenge the result is 1; else the challenge is spent (R418) and the response is read, in place of one whose check still runs (R420, DESIGN CHOICE, notes/assumptions/134). In Alarm the ports serve no read, which fails at step 2 of Table 13.10 (DEDUCED, notes/assumptions/134). -/
def State.submit (s : State) : State :=
  match s.lovage.chal with
  | none => s.setLovage fun l => { l with dbgResult := 1 }
  | some c =>
    if s.inAlarm then s.setLovage fun l => { l with chal := none, dbgResult := 8 }
    else
      let s := (s.killTxns fun t => t.purpose.isResponse).setLovage fun l => { l with
        chal := none, checking := some c, resp := Machine.zeros responseBytes, respFailed := false }
      (s.issue .read .metadata 0 (s.regN 0x800A8 % 2 ^ 52) responseBytes [] fun off => .response off).sendAll

/-- SUBMIT (R420). -/
def execSubmit (src : From) (s : State) : Ans := s.lovageWrite src 0x800A0 (dbgCtl 2 0) State.submit

/-- "targal-debug" in ASCII (R419). -/
def debugContext : Bytes := [0x74, 0x61, 0x72, 0x67, 0x61, 0x6C, 0x2D, 0x64, 0x65, 0x62, 0x75, 0x67]

/-- Classes that a life-cycle state allows (Table 13.1). -/
def Life.classOk (l : Life) (cls : Nat) : Bool :=
  match l with
  | .provisioned | .secured => cls ≤ 3
  | .scrapped => false
  | _ => cls ≤ 4

/-- Format, length, reserved fields and key ids (step 3 of Table 13.10). -/
def responseForm (b : Bytes) : Bool :=
  fieldLe b 0 4 == 0x000D0002 && fieldLe b 4 4 == responseBytes && (byteAt b 8).toNat ≤ 4 && (byteAt b 9).toNat ≤ 1
  && (byteAt b 10).toNat ≤ 3 && (byteAt b 11).toNat ≤ 3 && allZero (sub b 12 52) && allZero (sub b 225 31)

/-- Step 4 of Table 13.10: the challenge is echoed, and it names the state and instance of now. -/
def State.responseFits (s : State) (c : Challenge) (b : Bytes) : Bool :=
  let l := s.lovage
  let cls := (byteAt b 8).toNat
  sub b 64 64 == c.bytes && (byteAt c.bytes 12).toNat == lifeNum l.life && fieldLe c.bytes 8 4 == l.instanceId.getD 0
  && cls ≤ c.cls && l.life.classOk cls && (byteAt b 9 == 0 || l.life == .secured || l.life == .develop)

/-- The result of a response (Table 13.10). -/
def State.responseResult (s : State) (c : Challenge) : BitVec 8 :=
  let b := s.lovage.resp
  let signed := b.take 2848
  let ec := sub b 128 97
  let pq := sub b 256 2592
  if s.lovage.respFailed then 8
  else if !responseForm b then 2
  else if !s.responseFits c b then 3
  else if !s.packageKeyOk false (byteAt b 10).toNat ec || !s.packageKeyOk true (byteAt b 11).toNat pq then 5
  else if !packageEcdsaOk ec signed (sub b 2848 96) then 6
  else if !mlDsaVerify 0x33 pq ([0, 12] ++ debugContext ++ signed) (sub b 2944 4627) then 7
  else 0

/-- Drain with target Authorised debug (R421, R426): a request that it replaces is dropped with req_err, but DRAIN. -/
def State.debugDrain (s : State) : State :=
  let dropped := s.mode.resume || (s.mode.target != 0 && s.mode.target != 3)
  let s := s.setMode fun m => { m with reqErr := m.reqErr || dropped, latched := none }
  match s.mode.mode with
  | .drain => s.setMode fun m => { m with target := 9, resume := false, drainedPt := false }
  | m => if drainFrom.contains m then s.enterDrain 9 else s

/-- A class is granted (R421): 1 and 2, or none, from the next tick; 3 and 4 by way of Drain. In Authorised debug a class opens from the next tick. -/
def State.grantClass (s : State) (cls : Nat) (ret : Bool) : State :=
  if cls = 0 then s.addChange (.debug s.lovage.dbgClass ret)
  else if cls ≤ 2 || s.mode.mode == .authDebug then s.addChange (.debug cls ret)
  else
    let s := s.setLovage fun l => { l with granted := some (cls, ret) }
    if s.mode.mode == .startup then s else s.debugDrain

/-- DEBUG_RESPONSE_CHECKED (R420, R421): the response has been read and its checks end; the verifier holds a sequencer. -/
def execDebugResponseChecked (s : State) : Ans :=
  let reading := s.txns.any fun t => !t.dead && t.purpose.isResponse
  onSome (s.lovage.checking.filter fun _ => s.portsRun && !reading && (s.lovage.respFailed || s.verifierRuns .response)) s fun c =>
    let r := s.responseResult c
    let b := s.lovage.resp
    let s := s.setLovage fun l => { l with checking := none, resp := [], respFailed := false, dbgResult := r }
    if r == 0 then s.grantClass (byteAt b 8).toNat ((byteAt b 9).getLsbD 0) else s

/-- DEBUG_CLOSE (R422): the class is lowered to 0, and the return authorisation ends with it. -/
def execDebugClose (src : From) (s : State) : Ans := s.lovageWrite src 0x800A0 (dbgCtl 3 0) (·.closeDebug)

/-- OPEN: in BLANK and TEST only, with no challenge (R421). -/
def State.openDebug (s : State) (cls : Nat) : State :=
  if (s.lovage.life == .blank || s.lovage.life == .test) && 1 ≤ cls && cls ≤ 4 then s.grantClass cls false else s

/-- DEBUG_OPEN (R421). -/
def execDebugOpen (src : From) (cls : Nat) (s : State) : Ans := s.lovageWrite src 0x800A0 (dbgCtl 4 cls) (·.openDebug cls)

/-- A write to LC_DBG_CTL (Table 13.7); a command that the table does not name does nothing. -/
def State.debugCommand (s : State) (v : Nat) : State :=
  match v / 2 ^ 28 % 16 with
  | 1 => s.requestChallenge (v % 8)
  | 2 => s.submit
  | 3 => s.closeDebug
  | 4 => s.openDebug (v % 8)
  | _ => s

/-! ## What a class opens -/

/-- What the debug access port and the trace output are opened for (Table 13.14). -/
inductive DebugUse where
  | observe | trace | haltStep | setupWrite | inject | memory | scan | otpValue
  deriving DecidableEq, Repr

/-- The lowest class that opens a use (Table 13.14). -/
def DebugUse.cls : DebugUse → Nat
  | .observe => 1
  | .trace => 2
  | .haltStep => 3
  | .setupWrite => 3
  | .inject => 3
  | .memory => 4
  | .scan => 4
  | .otpValue => 4

/-- The open class opens the use. -/
def State.debugOpens (s : State) (u : DebugUse) : Bool := decide (u.cls ≤ s.lovage.dbgClass)

/-- What the debug access port reads of an OTP word: a monotonic word under class 1, a value word but those of the secret slots under class 4; none where the class opens no read, or the word is unreadable (R399, R422, Tables 13.2 and 13.14). -/
def State.debugOtp (s : State) (w : Nat) : Option (BitVec 32) :=
  if w < 20 then if s.debugOpens .observe then some (s.lovage.readMono w) else none
  else if s.debugOpens .otpValue && (w < 24 || (40 ≤ w && w < 136)) then s.lovage.readVal w
  else none

/-! ## Tamper -/

/-- The source watches in this mode: in deep sleep only those of Table 13.8; source 11 is the move to SCRAPPED itself (R409). -/
def sourceActive (m : Mode) (source : Nat) : Bool :=
  match m with
  | .cold => false
  | .deepSleep => ([2, 3, 4, 6, 7, 8, 9] : List Nat).contains source
  | _ => source < 11

/-- TAMPER_SOURCE_FIRE (R412 to R415): a source's condition has persisted for its filter time. -/
def execTamperSourceFire (source : Nat) (s : State) : Ans := guarded (sourceActive s.mode.mode source) s (·.fire source false)

/-- ALARM_PORTS_STOP (R415, R454): 1 ms after the latch, or once every in-flight job has its completion, the ports stop and Duern is in Alarm. -/
def execAlarmPortsStop (s : State) : Ans :=
  guarded (s.mode.aborting && (s.fennel.jobs.isEmpty || s.aon.alarmTick.toNat + 6250 ≤ s.thyme.tick)) s fun s =>
    let s := (s.cutWrites fun _ => true).setMode fun m => { m with aborting := false }
    { s with fennel := { s.fennel with jobs := [] }, txns := [], dill := { s.dill with lines := [] } }

/-- A write of 1 to LC_ALARM.latched, honoured in Alarm only (R417, Table 13.7). -/
def State.clearAlarm (s : State) : State :=
  if s.inAlarm && !s.mode.aborting then { s with aon := { s.aon with alarmLatched := false } } else s

/-- ALARM_CLEAR (R417): a domain-0 write from P3, made in Alarm, clears the latch. -/
def execAlarmClear (src : From) (s : State) : Ans :=
  guarded (s.windowWrite src && s.inAlarm && !s.mode.aborting) s fun s => s.inTurn (.write src 0x80088 4 0x80000000) State.clearAlarm

end Sys2Proof.Machine
end

