-- ==== Sys2Proof/Machine/LoadKey.lean ====
section
/-! DEFINITION. Load Key (R353 to R356): its three commands and the posted loads. -/

namespace Sys2Proof.Machine

/-- A Load Key is accepted, once fewer than 64 loads are outstanding (R353, R354). -/
def State.loadKey (s : State) (c : BitVec 17) (sub : Nat) (kind : LoadKind) : Ans :=
  onSome ((s.adminJob c 0x11 (· == sub)).filter fun _ => s.admin.loads.length < 64) s fun j =>
    (s.onTarget j fun x =>
      let h := fieldLe j.entry 32 3
      let kek := fieldLe j.entry 36 3
      if !inWindow x h then s.adminFail c .keyDenied 32
      else if kind != .handle && !((s.domain? 0).any fun m => inWindow m kek) then s.adminFail c .keyDenied 36
      else
        let n := s.admin.loadNumber + 1
        let l : PostedLoad := { load := n, kind := kind, domain := x.num, handle := h, kek := kek, data := j.buffer, len := eLen j.entry,
                                 count := c,
                                tag := BitVec.ofNat 16 (eTag j.entry), accepted := s.thyme.tick }
        let s : State := { s with admin := { s.admin with loadNumber := n, loads := s.admin.loads ++ [l] } }
        (s.setJob 0 c fun j => { j with bytesDone := l.len }).adminOk c n.toNat).flow

/-- LOAD_KEY_BY_HANDLE. -/
def execLoadKeyByHandle (c : BitVec 17) (s : State) : Ans := s.loadKey c 0 .handle
/-- LOAD_KEY_AES_KW. -/
def execLoadKeyAesKw (c : BitVec 17) (s : State) : Ans := s.loadKey c 1 .kw
/-- LOAD_KEY_AES_KWP. -/
def execLoadKeyAesKwp (c : BitVec 17) (s : State) : Ans := s.loadKey c 2 .kwp

/-- A posted load has succeeded: jobs that wait for it look again (R355). -/
def State.loadDone (s : State) (n : BitVec 32) : State :=
  let other (l : PostedLoad) : Bool := l.load != n
  let s := s.dropLoadJob n
  ({ s with admin := { s.admin with loads := s.admin.loads.filter other } }).keyRetry

/-- The unwrap of a posted load as the 0x25 that R208 states: a job of domain 0 under the KEK's keys, whose source is the load's data. -/
def State.loadJob (s : State) (l : PostedLoad) (ks : List JobKey) : Job :=
  let e := padTo 128 (Machine.zeros 4 ++ [0x25, if l.kind == .kw then 1 else 2] ++ Machine.zeros 2 ++ leBytes 4 l.len ++ Machine.zeros 4
    ++ leBytes 8 l.data)
  let j := newJob (newQueue loadQueue 0 .c 4 0 e) (l.load.setWidth 17) e false s.thyme.tick
  let j := { j with keys := ks, phase := .slices }
  { j with passes := s.jobPasses j }

/-- The unwrap has run to its end (R208): the two-key rule over the integrity checks, then the key's length and halves. -/
def State.loadUnwrapped (s : State) (l : PostedLoad) (j : Job) : State :=
  match j.unwrapped.1 with
  | none => s.failLoad l .authFail
  | some m =>
    if !s.targetOpen l.domain l.handle || !((s.recOf l.domain l.handle).any fun r => unwrapFits r m) then s.failLoad l .keyDenied
    else (s.readyKey l.domain l.handle m).loadDone l.load

/-- A load with a wrapped key goes on: its KEK (R194), then its unwrap as serial slices on CHIVE slots of domain 0, charged and judged under R195 at the first (R207, R208, R354). -/
def State.runWrapped (s : State) (l : PostedLoad) : State :=
  match s.job? loadQueue (l.load.setWidth 17) with
  | some j => match j.status with
    | some st => s.failLoad l st
    | none => if j.allDelivered then s.loadUnwrapped l j else s
  | none => match s.managerKeys 0x25 l.kek with
    | (s, _, .wait) => s
    | (s, _, .fail st) => s.failLoad l st
    | (s, ks, .ok) =>
      let j := s.loadJob l ks
      if !(ks.all fun k => s.keyCheck3 j k) || !s.pairClass j then s.failLoad l .keyDenied
      else s.addJob j

/-- A Load Key by handle of a pair goes on: both members are loaded into slots of their own (R204). -/
def State.loadMembers (s : State) (l : PostedLoad) (r : KeyRec) : State :=
  let member (role : KeyRole) (h : Nat) : JobKey := { role := role, second := true, handle := h, failed := none }
  if !((s.domain? l.domain).any fun x => inWindow x r.newer && inWindow x r.older) then s.failLoad l .keyDenied
  else match State.checkKeys l.domain 0 [member .newer r.newer, member .older r.older] s .ok with
    | (s, .wait) => s
    | (s, .fail st) => s.failLoad l st
    | (s, .ok) => s.loadDone l.load

/-- A load goes on from where check 2 of R194 leaves its target (R208). -/
def State.loadStep (s : State) (l : PostedLoad) (r : SlotCheck) : State :=
  match r with
  | .wait => s
  | .fail st => s.failLoad l st
  | .ready r =>
    if l.kind == LoadKind.handle then (if r.typ == 1 then s.loadMembers l r else s.loadDone l.load)
    else if r.typ != 2 then s.failLoad l .keyDenied
    else if !(s.slot? l.domain l.handle).any (·.pinned) then s.failLoad l .keyCacheFull
    else s.runWrapped l

/-- POSTED_LOAD_RUN (R354): a posted load runs, from the tick after its completion, as far as its slots and its data allow. -/
def execPostedLoadRun (load : BitVec 32) (s : State) : Ans :=
  onSome ((s.load? load).filter fun l => s.plansRun && !s.resetting l.domain && decide (l.accepted < s.thyme.tick)) s fun l =>
    let x := s.checkSlot l.domain l.handle false
    (x.1.loadStep l x.2).flow

end Sys2Proof.Machine
end

