-- ==== Sys2Proof/Machine/RegPath.lean ====
section
/-! DEFINITION. The register path (R238 to R244): OPEN, FINISH and CLOSE, data and last words, its end and its data errors. -/

namespace Sys2Proof.Machine

/-- A register-path write arrives (R238, R395, R430, R475). -/
def State.rpWrite (s : State) (src : From) (f : State → State) : Ans := guarded (s.unitWrite src && s.rpMode) s f

/-- REGISTER_PATH_OPEN (R239): DG_RP_CMD with command 1. -/
def execRegisterPathOpen (src : From) (s : State) : Ans := s.rpWrite src fun s => (s.rpPort src 0x58008 4 1).sendAll

/-- DG_RP_DATA (R240): 8 bytes more; with no room the write waits at the port. -/
def execDgRpData (src : From) (word : BitVec 64) (s : State) : Ans := s.rpWrite src fun s => s.rpPort src 0x58040 8 word

/-- DG_RP_LAST (R241): the low DG_RP_LASTCNT.count bytes end the message. -/
def execDgRpLast (src : From) (word : BitVec 64) (s : State) : Ans := s.rpWrite src fun s => s.rpPort src 0x58048 8 word

/-- REGISTER_PATH_FINISH (R242): the first DG_RP_TOTAL bytes are the message. -/
def execRegisterPathFinish (src : From) (s : State) : Ans := s.rpWrite src fun s => s.rpPort src 0x58008 4 2

/-- Digest of a session, or its MAC under a key. -/
def State.rpResult (s : State) (key : Option Bytes) : Bytes :=
  let r := s.dill.rp
  if s.rpHmac then
    let n := if s.rpOut = 0 then digestLen s.rpSel 0 else s.rpOut
    (hmac s.rpSel (key.getD []) r.msg).take n
  else digest s.rpSel s.rpOut r.msg

/-- Bytes that a verify compares (R243): out_len, or the whole digest. -/
def State.rpCompared (s : State) : Nat :=
  let n := digestLen s.rpSel s.rpOut
  if s.rpOut = 0 then n else min n s.rpOut

/-- A key of the session verifies, or the plain digest does (R229, R230). -/
def State.rpMatches (s : State) (key : Option Bytes) : Bool :=
  let want := (s.dill.rp.expect.flatMap fun w => leBytes 8 w.toNat).take s.rpCompared
  (!s.rpHmac || key.isSome) && (s.rpResult key).take s.rpCompared == want

/-- REGISTER_PATH_DONE (R229, R243): the message has been finished in a DILL slot. -/
def execRegisterPathDone (s : State) : Ans :=
  let r := s.dill.rp
  guarded (s.rpMode && r.opened && r.finishing && !r.busy && !r.done) s fun s =>
    if s.rpVerify then
      s.rpEnd (if s.rpMatches r.newer || (r.older.isSome && s.rpMatches r.older) then .ok else .authFail) []
    else s.rpEnd .ok (s.rpResult r.newer)

/-- REGISTER_PATH_CLOSE (R239, R329). -/
def execRegisterPathClose (src : From) (s : State) : Ans := s.rpWrite src fun s => s.rpPort src 0x58008 4 3

/-- REGISTER_PATH_DATA_ERROR (R244, R464): a write of the open session came with derr; a failed interface takes no write (R395). -/
def execRegisterPathDataError (s : State) : Ans :=
  guarded (s.windowUp && s.rpMode && s.dill.rp.opened) s fun s => (s.rpEnd .poisoned []).setRp fun r => { r with dead := true, ctx := false }

end Sys2Proof.Machine
end

