-- ==== Sys2Proof/Machine/Integrity.lean ====
section
/-! DEFINITION. Faults inside Duern: uncorrectable words (Table 12.2, R378, R380), scrubbing (R377), lockstep pairs (R381, R382, R499), the entropy source (R265, R393), PLLs (R394) and the register interface (R395). -/

namespace Sys2Proof.Machine

/-! ## Uncorrectable words -/

/-- A slot is zeroed: jobs in flight wait for a new KEY_LOAD, and a slot-only key is lost with the jobs that name it (Table 12.2, R17). -/
def State.slotUncorrectable (s : State) (d h : Nat) : State :=
  match (s.slot? d h).bind (·.record) with
  | none => s
  | some r =>
    let named := s.fennel.jobs.filter fun j => j.domain == d && !j.issued && j.keys.any (·.handle == h)
    if r.typ == 2 then
      let s := named.foldl (fun s j => if j.phase == .keys then s else s.endJob j.queue j.count .keyDenied) s
      s.denyLoad d h
    else
      let held := s.slotHeld ((s.slot? d h).getD (loadingSlot d h 0))
      let s := s.dropSlot d h
      if held && s.kbUp then s.startLoad d h else if held then s.denyLoad d h else s

/-- A counter record or a slot's counter state is read again from the active copy, and the counter resumes at its ceiling (Table 12.2, R213): until the bytes come, its draws wait. A record that no append has written yet has the ceiling 0. -/
def State.counterUncorrectable (s : State) (d h : Nat) : State :=
  match s.ctrRec? d h with
  | none => s
  | some r =>
    let s := s.setSlot d h fun x => { x with counter := none }
    match r.pos with
    | some off => (s.setCtrRec d h fun r => { r with ceiling := 0, unread := true }).jRead (copyTarget s.mint.activeB) off 32
    | none => if (s.slot? d h).isSome then s.mintOnLoad d h else s

/-- A context is lost: its job ends, with the event of R236 (Table 12.2). -/
def State.contextUncorrectable (s : State) (q : Nat) (c : BitVec 17) : State :=
  match s.job? q c with
  | none => s
  | some j => ((s.eventDM j.domain 0x05 0 q (leBytes 4 c.toNat)).dropCtxs q c).endJob q c .poisoned

/-- The sequencers that run an operation under a curve entry (Table 12.2). -/
def State.curveUsers (s : State) (e : Nat) : List Nat :=
  (List.range 16).filter fun i => (nth s.basil.seqs i none).any fun o =>
    (s.job? o.queue o.count).any fun j => eOp j.entry == 0x60 && j.curveEntry == some e

/-- A curve entry is emptied (Table 12.2, R273). -/
def State.curveUncorrectable (s : State) (e : Nat) : State :=
  let s := (s.curveUsers e).foldl State.seqCheckFails s
  { s with basil := { s.basil with curves := s.basil.curves.filter (·.1 != e) } }

/-- A word of the test ROM: the test that read it fails as on a failed check (Table 12.2): a Self-Test, or the test set of a suspended or reserve unit. -/
def State.testRomFails (s : State) (kind i : Nat) : State :=
  match s.test? kind i true with
  | some t => (s.finishTest t false).logTest t 1
  | none =>
    let suspended (x : Option UnitState) : Bool := x.any (·.health == .suspended)
    match kind with
    | 1 => if suspended (s.sorrel.lanes[i]?) then s.testResult .chive i false else s
    | 3 => if suspended (s.sorrel.dill[i]?) then s.testResult .dill i false else s
    | 4 => if s.seqTesting i then s.endSeq i false else s
    | _ => s

/-- A word of a staged event is marked poisoned (R366): words 0 to 3 are its record's, 4 to 7 its continuation's. -/
def State.eventUncorrectable (s : State) (d i w : Nat) : State :=
  s.setEvq d fun q => { q with staged := q.staged.modify i fun e => { e with poison := e.poison ||| BitVec.ofNat 8 (2 ^ w) } }

/-- A word of a mailbox area reads as zero, and its sender's error bit is set (Table 12.2). -/
def State.areaUncorrectable (s : State) (d off : Nat) : State :=
  s.setMailbox d fun m => { m with area := memWrite m.area (off / 8 * 8) (Machine.zeros 8) } |>.setErr (if off < 0x400 then .tenant else .manager)

/-! ## Lockstep -/

/-- Start-up is over: R499 and not R430 governs a loss. -/
def State.afterStartup (s : State) : Bool :=
  match s.mode.mode with
  | .cold | .sense | .startup | .lightSleep | .deepSleep => false
  | _ => true

/-- The halves of THYME are reported; those of the other units are not (R382). -/
def State.halfEvent (s : State) (u : LockUnit) (action : Nat) : State := if u == .thyme then s.unitEvent 0x07 0 action else s

/-- A half that left is tested, and a unit with no half in service latches source 10 (R381, R499). -/
def State.halvesChecked (s : State) (u : LockUnit) : State :=
  let h := s.halvesOf u
  if h.1 != .inPair && h.2 != .inPair && s.afterStartup then s.fire 10 true else s

/-- Halves leave their pair: a is A, b is B (R381). -/
def State.leavePair (s : State) (u : LockUnit) (a b : Bool) : State :=
  let h := s.halvesOf u
  let a := a && h.1 == .inPair
  let b := b && h.2 == .inPair
  if !a && !b then s
  else
    let s := s.setHalves u (if a then .left else h.1, if b then .left else h.2)
    (s.halfEvent u 1).halvesChecked u

/-- The unit discards what it did and repeats it one tick later (R381); of THYME, the next assignment is not made (R382). -/
def State.repeatWork (s : State) (u : LockUnit) : State :=
  if u == .thyme then { s with thyme := { s.thyme with idle := true } }
  else { s with sorrel := { s.sorrel with repeating := s.sorrel.repeating ++ [u] } }

/-- LOCKSTEP_MISMATCH (R381, R382, R499): the half whose self-check failed leaves; with neither, the unit repeats its work, and SORREL tests both (notes/assumptions/64). -/
def execLockstepMismatch (unit : LockUnit) (blame : Blame) (aTestFails bTestFails : Bool) (s : State) : Ans :=
  guarded s.mainRuns s fun s =>
    match blame with
    | .halfA => s.leavePair unit true false
    | .halfB => s.leavePair unit false true
    | .neither => (s.repeatWork unit).leavePair unit aTestFails bTestFails

/-- HALF_REJOIN (R381, R499): the test of a half that left ends; it rejoins or is retired. -/
def execHalfRejoin (unit : LockUnit) (halfB : Bool) (pass : Bool) (s : State) : Ans :=
  let h := s.halvesOf unit
  guarded (s.mainRuns && (if halfB then h.2 else h.1) == .left && !(unit == .thyme && (s.test? 7 0 true).isSome)) s fun s =>
    let x : Half := if pass then .inPair else .retired
    let s := s.setHalves unit (if halfB then (h.1, x) else (x, h.2))
    (s.halfEvent unit (if pass then 2 else 3)).halvesChecked unit

/-- A word of THYME's state: the half that holds it leaves (Table 12.2). -/
def State.thymeUncorrectable (s : State) (halfB : Bool) : State := s.leavePair .thyme (!halfB) halfB

/-! ## Commands -/

/-- The response to an uncorrectable word of an element (Table 12.2). -/
def State.elementLost (s : State) (e : Element) : State :=
  match e with
  | .keySlot d h => s.slotUncorrectable d h
  | .useBlock d h => s.slotUncorrectable d h
  | .counterRecord d h => s.counterUncorrectable d h
  | .jobState q c => s.endJob q (BitVec.ofNat 17 c) .poisoned
  | .context q c => s.contextUncorrectable q (BitVec.ofNat 17 c)
  | .queueState q => s.addChange (.rebuild q)
  | .thymeState b => s.thymeUncorrectable b
  | .retirementMap => s
  | .testVectors => s
  | .shadowPointers => { s with sorrel := { s.sorrel with chivePtr := 0, dillPtr := 0, basilPtr := 0 } }
  | .basilMemory q => s.seqCheckFails q
  | .curveEntry e => s.curveUncorrectable e
  | .verifierRom q => s.seqCheckFails q
  | .testRom k i => s.testRomFails k i
  | .eventStaging d i w => s.eventUncorrectable d i w
  | .mailboxArea d off => s.areaUncorrectable d off
  | .registerFifo => if s.dill.rp.opened then (s.rpEnd .poisoned []).setRp fun r => { r with dead := true, ctx := false } else s
  | .timeKeys => s
  | .oscillatorModel => s.resetModel
  | .setupRegisters => s

/-- The element is in use: SAGE's while PD_TIME is powered, THYME's state and the setup registers in Alarm too, the others while PD_MAIN works (Table 14.1). -/
def State.elementRuns (s : State) (e : Element) : Bool :=
  match e with
  | .timeKeys | .oscillatorModel => s.mode.timeOn
  | .thymeState _ | .setupRegisters => s.mainRuns
  | _ => s.mainRuns && !s.inAlarm

/-- UNCORRECTABLE_ERROR (R376): counted, while SORREL is powered, and answered as Table 12.2 says. -/
def execUncorrectableError (element : Element) (s : State) : Ans :=
  guarded (s.elementRuns element) s fun s => ((if s.mainRuns then s.countUe else s).elementLost element).flow

/-- SCRUB (R377): a word is scrubbed; one corrected on two consecutive scrubs has its row mapped to one of four spare rows at the next tick boundary. -/
def execScrub (memory word : Nat) (corrected : Bool) (s : State) : Ans :=
  guarded s.mainRuns s fun s =>
    let x := s.sorrel
    let other (w : Nat × Nat) : Bool := w != (memory, word)
    let rest := x.scrubSeen.filter other
    if !corrected then { s with sorrel := { x with scrubSeen := rest } }
    else
      let x := { x with ce := satInc x.ce }
      let here (w : Nat × Nat) : Bool := w.1 == memory
      if x.scrubSeen.contains (memory, word) && (x.spareRows.filter here).length < 4 then
        { s with sorrel := { x with scrubSeen := rest } }.addChange (.spareRow memory word)
      else { s with sorrel := { x with scrubSeen := rest ++ [(memory, word)] } }

/-- ENTROPY_HEALTH_FAIL (R265, R393): a noise cell is disconnected; with none left the source stops. -/
def execEntropyHealthFail (cell : Nat) (s : State) : Ans :=
  guarded (s.mainRuns && (s.sorrel.cells[cell]?).any id) s fun s =>
    let s := ({ s with sorrel := { s.sorrel with cells := s.sorrel.cells.set cell false } }).unitEvent 0x09 0 3
    if s.sorrel.cells.any id then s else s.event 0 0x06 0 0 []

/-- PLL_SWITCH (R394): the clock monitor switches to the other PLL of a pair at the next tick boundary, unless start-up has retired it (R429). -/
def execPllSwitch (coreClock : Bool) (s : State) : Ans :=
  let now := if coreClock then s.sorrel.pllCore else s.sorrel.pllTime
  guarded ((if coreClock then s.mainRuns else s.mode.timeOn) && !s.sorrel.pllBad.contains (coreClock, !now)) s fun s => s.addChange (.pll coreClock)

/-- REGISTER_INTERFACE_FAIL (R395). -/
def execRegisterInterfaceFail (s : State) : Ans := guarded s.mainRuns s fun s => { s with sorrel := { s.sorrel with regIfFailed := true } }

end Sys2Proof.Machine
end

