-- ==== Sys2Proof/Machine/Reads.lean ====
section
/-! DEFINITION. What registers are there, and what a read of one returns (R12, R13, R87, R322, R474 to R478, R395, R398; Tables 16.2 to 16.14, 14.2, 7.3, 9.3, 10.3, 13.7 and 3.3 to 3.5). A reserved bit and a write-only one read as zero. A read changes nothing but an RC counter, so only the RC counters have a command. And the status pins therm_hot and alarm (R413, R472, Table 15.14). -/

namespace Sys2Proof.Machine

/-- A writable setup register: address, width in bytes, writable bits, and the register whose bit 31 locks it when its fields are RWL. -/
structure RegSpec where
  addr : Nat
  size : Nat
  mask : Nat
  lock : Option Nat
  deriving DecidableEq, Repr

/-- RWL registers of a window under one lock, the lock's own register first. -/
def lockedRegs (lock mask : Nat) (rs : List (Nat × Nat × Nat)) : List RegSpec :=
  { addr := lock, size := 4, mask := mask, lock := some lock } :: rs.map fun r =>
    { addr := r.1, size := r.2.1, mask := r.2.2, lock := some lock }

/-- RW registers. -/
def freeRegs (rs : List (Nat × Nat × Nat)) : List RegSpec := rs.map fun r => { addr := r.1, size := r.2.1, mask := r.2.2, lock := none }

/-- All bits of a 4-byte register, and the widths of addresses. -/
def m32 : Nat := 0xFFFFFFFF
def m48 : Nat := 2 ^ 48 - 1
def m52 : Nat := 2 ^ 52 - 1

/-- Registers of a timestamp channel (Table 9.3). -/
def channelRegs (c : Nat) : List RegSpec :=
  let a := 0x70100 + 0x20 * c
  [{ addr := a, size := 4, mask := 0x8000000F, lock := some 0x70000 }, { addr := a + 0x10, size := 8, mask := m52, lock := some 0x70000 }]
  ++ freeRegs ([(a + 4, 4, m32)] ++ if c < 16 then [(a + 8, 4, m32)] else [])

/-- The writable setup registers. -/
def regSpecs : List RegSpec :=
  lockedRegs 0x8 0x80000000 [(0x10, 8, m52), (0x18, 4, 0xFFFF0003), (0x1C, 4, m32)]
  ++ freeRegs [(0x108, 4, 7), (0x110, 8, 2 ^ 64 - 1), (0x120, 4, m32)]
  ++ lockedRegs 0x20000 0x80000000 [(0x20008, 8, m52), (0x20010, 4, 0x1F), (0x20014, 4, 0xFFFFFF01), (0x20018, 4, 0xFFFF)]
  ++ lockedRegs 0x40000 0x80000001 [(0x40008, 4, 0x1FFFFFFF), (0x4000C, 4, 0x1FFFF), (0x40010, 8, m48), (0x40018, 8, m48), (0x40020, 8, m48)]
  ++ lockedRegs 0x50000 0x80000000 [(0x50008, 8, m52), (0x50010, 4, 0xFFFF)]
  ++ freeRegs [(0x58000, 4, 0xC0FF00FF), (0x58004, 4, 0xFFFFFF), (0x58010, 8, 2 ^ 64 - 1), (0x58018, 4, 0xF)]
  ++ lockedRegs 0x60000 0x80000001 [(0x60008, 8, m52), (0x60010, 8, m52)]
  ++ lockedRegs 0x70000 0x80000DFF [(0x70008, 8, m48), (0x70010, 4, m32)]
  ++ freeRegs [(0x70018, 4, m32), (0x7001C, 4, m32), (0x70020, 4, 0x1F1F), (0x70024, 4, m32), (0x70028, 4, m32), (0x7002C, 4, m32),
      (0x70030, 4, m32), (0x70034, 4, m32), (0x70040, 4, 0x807FFFFF), (0x70044, 4, m32), (0x70048, 4, 0x807FFFFF), (0x7004C, 4, m32)]
  ++ (List.range 18).flatMap channelRegs
  ++ lockedRegs 0x80004 0x80000000 [(0x80080, 4, 0xFFF)]
  ++ freeRegs ((List.range 12).map fun i => (0x80040 + 4 * i, 4, m32)) ++ freeRegs [(0x800A8, 8, m52)]
  ++ lockedRegs 0x90000 0x800003FF ((List.range 16).map (fun w => (0x90010 + 4 * w, 4, m32)) ++ [(0x90080, 8, m52)])

/-! ## Status registers -/

/-- A bit, or a field's value, put at its place in a word. -/
def at' (b : Bool) (i : Nat) : Nat := if b then 2 ^ i else 0

/-- A word whose bit i says whether p i. -/
def flagWord (n : Nat) (p : Nat → Bool) : Nat := (List.range n).foldl (fun v i => v + at' (p i) i) 0

/-- The retirement map of this start-up exists: status registers of units hold their Reset value before (R391, R427). -/
def State.mapKnown (s : State) : Bool := s.mode.steps.s7

/-- Unit i of a kind is neither suspended nor retired. -/
def State.unitOk (s : State) (us : List UnitState) (i : Nat) : Bool := s.mapKnown && (us[i]?).any (·.health == .healthy)

/-- Lanes in the reserve; none before positions are mapped (R63, Table 16.7). -/
def State.reserveCount (s : State) : Nat := if s.plansRun then s.reserveLanes.length else 0

/-- GL_MODE_STATUS (Table 14.2). -/
def State.modeStatus (s : State) : Nat :=
  let m := s.mode
  s.reportedMode * 2 ^ 28 + m.target.toNat * 2 ^ 24 + at' m.hold 23 + at' m.quiet 22 + at' (s.plansRun && s.reserveLanes.isEmpty) 21
  + at' m.reqErr 20 + m.fail.toNat * 2 ^ 16

/-- TH_STATUS (Table 16.5). -/
def State.thymeStatus (s : State) : Nat :=
  at' (!s.thyme.staged.isEmpty) 31 + at' (s.sorrel.halves.any fun h => h.1 == .thyme && (h.2.1 != .inPair || h.2.2 != .inPair)) 30
  + s.lanesInService * 2 ^ 16 + (if s.mapKnown then s.healthyDill else 0) * 2 ^ 8 + s.litBasil

/-- PT_PORT_MAP (Table 16.11); the spec gives no code for a position without a port, so that nibble is a free value (notes/assumptions/111). -/
def State.portMap (s : State) : Nat :=
  if !s.mapKnown then 0
  else (List.range 8).foldl (fun v k => v + 16 ^ k *
    ((s.sorrel.ports.findIdx? (·.role == .position k)).getD (Config.unservedPort k).toNat)) 0

/-- Code of a port's role (Table 16.11). -/
def PortRole.code : PortRole → Nat
  | .position _ => 0
  | .spare => 1
  | .suspended => 2
  | .retired => 3

/-- Code of a key-bus lane's health (Table 16.11). -/
def Health.code : Health → Nat
  | .healthy => 0
  | .suspended => 1
  | .retired => 2

/-- PT_PORT_STATE (Table 16.11). -/
def State.portState (s : State) : Nat :=
  if !s.mapKnown then 0
  else (List.range 10).foldl (fun v p => v + 4 ^ p * ((s.sorrel.ports[p]?).map (·.role.code)).getD 0) 0
    + (List.range 2).foldl (fun v l => v + 2 ^ 20 * 4 ^ l * ((s.sorrel.kb[l]?).map (·.health.code)).getD 0) 0

/-- LC_STATUS (Table 13.7). -/
def Lovage.status (l : Lovage) : Nat :=
  let slot := l.instSlot.getD 0
  lifeNum l.life * 2 ^ 29 + l.wordsLeft * 2 ^ 24 + l.dbgClass * 2 ^ 21 + at' l.op.isSome 20 + slot * 2 ^ 18
  + at' (l.deriveInst.any fun i => l.instSlot.all (· < i)) 17 + at' l.instConfirmed 16 + at' l.retArmed 15 + l.antiRollback * 2 ^ 8

/-- DG_RP_STATUS (Table 7.3). -/
def RegPath.stat (r : RegPath) : Nat :=
  at' r.opened 31 + at' r.busy 30 + at' r.done 29 + r.status.toNat * 2 ^ 16 + (32 - r.fifo)

/-- Value of an RC counter (Table 16.12). -/
def Sorrel.counter (x : Sorrel) (c : RcCounter) : BitVec 32 :=
  match c with
  | .ce => x.ce
  | .ue => x.ue
  | .spared => x.spared

/-- Address of an RC counter (Table 16.12). -/
def counterAddr : RcCounter → Nat
  | .ce => 0xA0010
  | .ue => 0xA0014
  | .spared => 0xA0018

/-- The readable registers that lie in no register cell, with their width in bytes. -/
def State.statusRegs (s : State) : List (Nat × Nat × Nat) :=
  let l := s.lovage
  let a := s.aon
  [(0x0, 4, Config.hwId.toNat), (0x20, 4, s.regN 0x20 % 256), (0x104, 4, s.modeStatus), (0x118, 4, a.wakeCause.toNat), (0x11C, 4, a.resetCause.toNat),
   (0x124, 4, s.mode.startup.toNat)]
  ++ [(0x10000, 8, s.thyme.tick), (0x10008, 8, s.thyme.epoch), (0x10010, 4, s.thymeStatus)]
  ++ [(0x30000, 4, flagWord 32 (s.unitOk s.sorrel.lanes)), (0x30004, 4, flagWord 32 fun i => s.unitOk s.sorrel.lanes (32 + i)),
      (0x30008, 4, flagWord 8 fun i => s.unitOk s.sorrel.lanes (64 + i)),
      (0x30010, 4, s.reserveCount * 256 + if s.plansRun then s.thyme.epoch % 9 else 0)]
  ++ [(0x40030, 4, s.mint.records.length), (0x5800C, 4, s.dill.rp.stat)]
  ++ ((List.range 8).map fun k => (0x580C0 + 8 * k, 8, fieldLe s.dill.rp.result (8 * k) 8))
  ++ [(0x60018, 4, bankNum s.basil.bankB.state * 16 + bankNum s.basil.bankA.state)]
  ++ [(0x80000, 4, l.status), (0x8000C, 4, at' l.opDone 31 + l.opResult.toNat * 2 ^ 16 + l.opCode.toNat * 2 ^ 8), (0x80084, 4, l.hit.toNat),
      (0x80088, 4, at' a.alarmLatched 31 + a.alarmMode.toNat * 2 ^ 24 + a.alarmSources.toNat), (0x80090, 8, a.alarmTick.toNat),
      (0x80098, 8, a.alarmAon.toNat), (0x800A4, 4, at' l.chal.isSome 31 + at' l.checking.isSome 30 + l.dbgResult.toNat * 2 ^ 16)]
  ++ ((List.range 16).map fun i => (0x800C0 + 4 * i, 4, (l.chal.map fun c => fieldLe c.bytes (4 * i) 4).getD 0))
  ++ [(0x90100, 4, s.portMap), (0x90104, 4, s.portState)]
  ++ [(0xA0000, 4, flagWord 16 (s.unitOk s.sorrel.dill)), (0xA0004, 4, flagWord 16 (s.unitOk s.sorrel.basil))]
  ++ [RcCounter.ce, .ue, .spared].map fun c => (counterAddr c, 4, (s.sorrel.counter c).toNat)

/-! ## Status as it stood at the start of the tick -/

/-- Queue status (Table 3.5). -/
def Queue.status (x : Queue) : Nat :=
  at' x.enabled 31 + at' x.disabling 30 + at' x.idle 29 + at' (!x.stale.isEmpty) 28 + at' x.dbError 27 + at' x.pushDiscard 26
  + at' x.linkDown 25 + x.tail.toNat

/-- MB_STATUS (Table 10.3). -/
def Mailbox.status (m : Mailbox) : Nat :=
  at' m.enabled 31 + at' m.disabling 30 + at' (!m.t2mFull && !m.m2tFull) 29 + at' m.t2mFull 28 + at' m.m2tFull 27 + at' m.t2mErr 26 + at' m.m2tErr 25

/-- DL_STATUS (Table 10.3). -/
def Migration.status (m : Migration) : Nat := at' m.logging 31 + at' m.overflow 30 + migNum m.state * 2 ^ 28

/-- Status words of a queue's page (Tables 3.4 and 3.5). -/
def Queue.words (x : Queue) : List (Nat × Nat) :=
  let a := 0x400000 + 4096 * x.num
  [(a + 0x100, x.head.toNat), (a + 0x108, x.status)]

/-- Status words of a mailbox page (Table 10.3). -/
def Domain.words (x : Domain) : List (Nat × Nat) :=
  let a := 0x200000 + 4096 * x.num
  let m := x.mailbox
  [(a + 0x810, m.status), (a + 0x814, m.t2mTag.toNat * 2 ^ 16 + m.t2mLen.toNat), (a + 0x818, m.m2tTag.toNat * 2 ^ 16 + m.m2tLen.toNat),
   (a + 0x824, x.mig.tail.toNat), (a + 0x828, x.mig.status)]

/-- Bits of a status word that are RW1C, or count until they are read: a read returns them as they are (Table 0.4). -/
def liveBits (a : Nat) : Nat :=
  match a with
  | 0x104 => 2 ^ 20
  | 0x118 => 2 ^ 64 - 1
  | 0x11C => 2 ^ 64 - 1
  | 0x8000C => 2 ^ 31
  | 0x80084 => 2 ^ 64 - 1
  | 0x80088 => 2 ^ 31
  | 0xA0010 => 2 ^ 64 - 1
  | 0xA0014 => 2 ^ 64 - 1
  | 0xA0018 => 2 ^ 64 - 1
  | _ =>
    if 0x400000 ≤ a then if a % 4096 == 0x108 then 2 ^ 27 + 2 ^ 26 else 0
    else if 0x200000 ≤ a then if a % 4096 == 0x810 then 2 ^ 26 + 2 ^ 25 else if a % 4096 == 0x828 then 2 ^ 30 else 0
    else 0

/-- Every status word with its address. -/
def State.statusWords (s : State) : List (Nat × Nat) :=
  s.statusRegs.map (fun r => (r.1, r.2.2)) ++ s.fennel.queues.flatMap Queue.words ++ s.domains.flatMap Domain.words

/-- The status words at the start of a tick are those that reads return in it (R478). -/
def State.latchStatus (s : State) : State := { s with shown := s.statusWords }

/-- What a read returns of a status word whose value now is v: its RO fields as they stood at the start of the tick, or as they are before there was one, and the rest as it is (R478, Table 0.4). -/
def State.status (s : State) (a v : Nat) : Nat :=
  let old := assocD s.shown a v
  (old &&& (2 ^ 64 - 1 - liveBits a)) ||| (v &&& liveBits a)

/-! ## Reads -/

/-- LC_PROG_DATA is write-only (Table 13.7). -/
def writeOnly (a : Nat) : Bool := 0x80040 ≤ a && a < 0x80070

/-- What a setup register reads (R13): an RW one the last value written, an RWL one the value in force. -/
def State.setupRead (s : State) (r : RegSpec) : Nat :=
  if writeOnly r.addr then 0 else (if r.lock.isSome then s.regN r.addr else s.regSoon r.addr) &&& r.mask

/-- Width and value of the register at an address of the unit windows, if one stands there. -/
def State.register (s : State) (a : Nat) : Option (Nat × Nat) :=
  match regSpecs.find? (·.addr == a) with
  | some r => some (r.size, s.setupRead r)
  | none => (s.statusRegs.find? (·.1 == a)).map fun r => (r.2.1, s.status a r.2.2)

/-- Some register has a byte of the bytes [a, a + size). -/
def State.touches (s : State) (a size : Nat) : Bool :=
  (List.range (size + 7)).any fun i => a + i ≥ 7 && (s.register (a + i - 7)).any fun r => decide (a < a + i - 7 + r.1)

/-- A read of a unit window (R474, R476, R478): a register, or either half of a 64-bit one; a reserved range reads zero. The spec gives no value for a read of another size or alignment that a register has a byte of (notes/assumptions/111). -/
def State.windowRead (s : State) (a size : Nat) : BitVec 64 :=
  let half (b : Nat) : Option Nat := (s.register b).bind fun r => if r.1 == 8 then some (r.2 / (if b = a then 1 else 2 ^ 32) % 2 ^ 32) else none
  if size == 4 && a % 4 == 0 then
    match s.register a with
    | some (4, v) => BitVec.ofNat 64 v
    | _ => BitVec.ofNat 64 (((half a).or (half (a - 4))).getD 0)
  else if size == 8 && a % 8 == 0 then
    match s.register a with
    | some (8, v) => BitVec.ofNat 64 v
    | _ => if s.touches a size then Config.oddRead a size else 0
  else if s.touches a size then Config.oddRead a size
  else 0

/-- A read of a queue page (Tables 3.3 to 3.5): from the domain that owns the queue, and not on P1; zero to any other (R87, R463). -/
def State.queueRead (s : State) (src : From) (q off : Nat) : BitVec 64 :=
  match (s.queue? q).filter fun x => src.port != .p1 && src.domain == x.domain with
  | none => 0
  | some x =>
    let a := 0x400000 + 4096 * q + off
    if off == 0x100 then BitVec.ofNat 64 (s.status a x.head.toNat)
    else if off == 0x108 then BitVec.ofNat 64 (s.status a x.status)
    else 0

/-- A word of a mailbox page (Tables 10.3 and 16.14): the write-only and the reserved ones read zero. -/
def State.pageWord (s : State) (x : Domain) (off size : Nat) : BitVec 64 :=
  if off + size ≤ 0x800 then BitVec.ofNat 64 (leNat ((List.range size).map fun i => memGet x.mailbox.area (off + i)))
  else if off == 0x820 then x.mig.head.setWidth 64
  else
    let a := 0x200000 + 4096 * x.num + off
    BitVec.ofNat 64 ((x.words.find? (·.1 == a)).map (fun w => s.status a w.2) |>.getD 0)

/-- A read of a mailbox page (R322): the page to its domain and the manager, without the dirty-log registers to its domain; zero to any other (R463). -/
def State.mailboxRead (s : State) (src : From) (page off size : Nat) : BitVec 64 :=
  match (s.domain? page).filter fun _ => page != 0 && src.port != .p1 && (src.domain == page || src.domain == 0) with
  | none => 0
  | some x => if src.domain != 0 && 0x820 ≤ off && off < 0x830 then 0 else s.pageWord x off size

/-- What a read returns: of a unit window to domain 0 on P3 (R463, R475), and zero from a failed interface (R395); in SCRAPPED only LC_STATUS answers (R398); of a mailbox page; of a queue page. -/
def State.readAccess (s : State) (src : From) (a size : Nat) : BitVec 64 :=
  if a < 0x200000 then
    if src.port == .p3 && src.domain == 0 && s.windowUp && (s.lovage.life != .scrapped || a == 0x80000) then s.windowRead a size else 0
  else if a < 0x400000 then s.mailboxRead src ((a - 0x200000) / 4096) (a % 4096) size
  else s.queueRead src ((a - 0x400000) / 4096) (a % 4096)

/-! ## Status pins -/

/-- therm_hot: the junction is at 103 °C or above; theta counts quarters of a degree (R472, Table 15.14, notes/assumptions/115). -/
def State.thermHot (s : State) : Bool := s.mode.mainOn && 412 ≤ s.sage.theta

/-- alarm: an alarm is latched (R413, Table 15.14). -/
def State.alarmPin (s : State) : Bool := s.aon.alarmLatched

end Sys2Proof.Machine
end

