-- ==== Sys2Proof/Machine/Registers.lean ====
section
/-! DEFINITION. Register accesses by a partner port or the debug port: writes of setup registers with their locks (R475 to R482, Tables 16.2 to 16.11, 7.3, 9.3, 13.7 and 14.2), of the write-one-to-clear bits, and of the registers of queue and mailbox pages (Tables 3.5 and 10.3); reads of the counters that a read clears (R478). -/

namespace Sys2Proof.Machine

/-- An open session of the register path keeps DG_RP_CFG and DG_RP_KEY from changing (Table 7.3). -/
def State.rpHolds (s : State) (a : Nat) : Bool := (a == 0x58000 || a == 0x58004) && s.dill.rp.opened

/-- Service, where a P3 write of an RWL field has no effect (R488, R424). -/
def State.setupOver (s : State) : Bool := s.mode.mode == .service || s.mode.mode == .degraded

/-- Write a setup register (R477, R479, R482): its fields take effect at the next tick boundary; a lock bit only ever gets set, and it locks from the moment it is written (R14). In Service, of an RWL register a P3 write can set the lock, and no more (R488; the lock: DESIGN CHOICE, notes/assumptions/135). -/
def State.writeSetup (s : State) (r : RegSpec) (debug : Bool) (v : Nat) : State :=
  let locked := r.lock.any fun l => bit (s.regSoon l) 31
  if (locked && !debug) || s.rpHolds r.addr then s
  else
    let isLock := r.lock == some r.addr
    let keep := if isLock then s.regSoon r.addr &&& 0x80000000 else 0
    if r.lock.isSome && !debug && s.setupOver then
      if isLock && bit v 31 then s.addChange (.setup r.addr (BitVec.ofNat 64 (s.regSoon r.addr ||| 0x80000000))) else s
    else s.addChange (.setup r.addr (BitVec.ofNat 64 ((v &&& r.mask) ||| keep)))

/-- Write-one-to-clear bits of the setup windows (Tables 13.7 and 14.2); LC_ALARM has a command of its own. -/
def State.clearBits (s : State) (a : Nat) (v : BitVec 64) : State :=
  match a with
  | 0x104 => if v.getLsbD 20 then s.setMode fun m => { m with reqErr := false } else s
  | 0x118 => { s with aon := { s.aon with wakeCause := s.aon.wakeCause &&& ~~~(v.setWidth 4) } }
  | 0x11C => { s with aon := { s.aon with resetCause := s.aon.resetCause &&& ~~~(v.setWidth 6) } }
  | 0x8000C => if v.getLsbD 31 then s.setLovage fun l => { l with opDone := false } else s
  | 0x80084 => s.setLovage fun l => { l with hit := l.hit &&& ~~~(v.setWidth 12) }
  | _ => s

/-- A word of DG_RP_EXPECT (Table 7.3). -/
def State.writeExpect (s : State) (a : Nat) (v : BitVec 64) : State := s.setRp fun r => { r with expect := r.expect.set ((a - 0x58080) / 8) v }

/-- The registers of the register path: they take writes from P3 only, in the modes of R238. -/
def inRp (a : Nat) : Bool := 0x58000 ≤ a && a < 0x58100

/-- The effect of a write to a register that has no value of its own: LC_TRANSITION, LC_PROG_CTL and LC_DBG_CTL, and from P3 only GL_MODE_CTL (R425), SG_INIT_CTL, and the alarm's latch (R417). -/
def State.writeCommand (s : State) (debug : Bool) (a : Nat) (v : BitVec 64) : State :=
  match a, debug with
  | 0x80008, _ => State.transition (v.setWidth 32) s
  | 0x80010, _ => s.progCommand v.toNat
  | 0x800A0, _ => s.debugCommand v.toNat
  | 0x100, false => s.modeRequest (v.toNat % 16)
  | 0x70014, false => if v.getLsbD 0 then s.initLoad else s
  | 0x80088, false => if v.getLsbD 31 then s.clearAlarm else s
  | _, _ => s.clearBits a v

/-- A write of the register path's registers (R238, Table 7.3). -/
def State.writeRp (s : State) (src : From) (a size : Nat) (v : BitVec 64) : State :=
  if !s.rpMode then s
  else match regSpecs.find? (·.addr == a) with
    | some r => if r.size == size then s.writeSetup r false v.toNat else s
    | none =>
      if a == 0x58008 then if size == 4 then s.rpCommand src a v else s
      else if size != 8 then s
      else if 0x58080 ≤ a && a < 0x580C0 && a % 8 == 0 then s.writeExpect a v
      else s.rpCommand src a v

/-- A write to a unit window takes effect (R474, R476): one of a width or an address that no register has is ignored. The debug port does not reach the register path (R238). -/
def State.windowRegister (s : State) (src : From) (debug : Bool) (a size : Nat) (v : BitVec 64) : State :=
  if inRp a then if debug then s else s.writeRp src a size v
  else match regSpecs.find? (·.addr == a) with
    | some r => if r.size == size then s.writeSetup r debug v.toNat else s
    | none => if size == 4 then s.writeCommand debug a v else s

/-- A P3 write to a unit window is taken: it reaches the window, and a start-up that has failed answers only RESET (R430, R475). -/
def State.takesWrite (s : State) (src : From) (a : Nat) (v : BitVec 64) : Bool :=
  s.windowWrite src && (s.mode.fail == 0 || (a == 0x100 && v.toNat % 16 == 8))

/-- A queue page's status is written (Table 3.5); P1 reaches the doorbell and the push window only (R463). -/
def clearQueueBits (src : From) (off size : Nat) (v : BitVec 64) (x : Queue) (s : State) : State :=
  if src.port == .p1 then s.foreignWrite src x.num
  else if off == 0x108 && size == 4 then
    s.setQueue x.num fun y => { y with dbError := y.dbError && !v.getLsbD 27, pushDiscard := y.pushDiscard && !v.getLsbD 26 }
  else s

/-- A register of a mailbox page is written (R322, Table 10.3): an error bit by its side, the other side's with an access event, DL_HEAD by the manager; those with commands of their own are not written here. -/
def State.pageRegister (s : State) (src : From) (page off size : Nat) (v : BitVec 64) : State :=
  if off == 0x810 then
    s.mailboxField src page off (if src.domain = 0 then .manager else .tenant) fun _ s =>
      if size != 4 then s
      else if src.domain = 0 then
        let s := s.setMailbox page fun m => { m with m2tErr := m.m2tErr && !v.getLsbD 25 }
        if v.getLsbD 26 then s.mailboxAccess src page off else s
      else
        let s := s.setMailbox page fun m => { m with t2mErr := m.t2mErr && !v.getLsbD 26 }
        if v.getLsbD 25 then s.mailboxAccess src page off else s
  else if off == 0x820 then
    s.mailboxField src page off .manager fun _ s =>
      if size == 4 then s.setDomain page fun x => { x with mig := { x.mig with head := v.setWidth 32 } } else s
  else if off < 0x810 || off == 0x828 then s
  else s.mailboxAccess src page off

/-- Queue-page offsets whose writes have commands of their own: the doorbell and the push window. -/
def ownQueueRow (off : Nat) : Bool := off == 0 || (0x40 ≤ off && off < 0xC0)

/-- The debug access port writes: under class 3 and above, while the interface is up (R395, R398, R430, Table 13.14). -/
def State.debugWrites (s : State) : Bool := s.windowUp && s.lovage.life != .scrapped && s.mode.fail == 0 && s.debugOpens .setupWrite

/-- REGISTER_WRITE (R475 to R482): by a partner port in its turn, or through the debug access port under class 3 or 4. -/
def execRegisterWrite (src : From) (viaDebug : Bool) (addr size : Nat) (value : BitVec 64) (s : State) : Ans :=
  if addr < 0x200000 then
    if viaDebug then guarded s.debugWrites s fun s => s.windowRegister src true addr size value
    else
      let w : PortAccess := .write src addr size value
      guarded (s.takesWrite src addr value) s fun s => s.inTurn w fun s =>
        if s.rpFull addr then s.holdAccess w else s.windowRegister src false addr size value
  else if viaDebug then done s
  else if addr < 0x400000 then s.mailboxWrite src fun s => s.pageRegister src ((addr - 0x200000) / 4096) (addr % 4096) size value
  else if ownQueueRow (addr % 4096) then done s
  else s.pageWrite src ((addr - 0x400000) / 4096) (clearQueueBits src (addr % 4096) size value)

/-- s with an RC counter at zero. -/
def State.clearCounter (s : State) (c : RcCounter) : State :=
  { s with sorrel := match c with
    | .ce => { s.sorrel with ce := 0 }
    | .ue => { s.sorrel with ue := 0 }
    | .spared => { s.sorrel with spared := 0 } }

/-- An RC counter is read, and clears; zero for any other reader, for a failed interface (R395) and in SCRAPPED (R398, R475, R478). -/
def State.readCounter (s : State) (src : From) (counter : RcCounter) : State :=
  let r := s.emit (.readData (s.readAccess src (counterAddr counter) 4))
  if s.windowWrite src then r.clearCounter counter else r

/-- RC_COUNTER_READ (R475, R478): domain 0's read is served in its turn. -/
def execRcCounterRead (src : From) (counter : RcCounter) (s : State) : Ans :=
  guarded s.mainRuns s fun s =>
    if s.windowWrite src then s.inTurn (.count src counter) fun s => s.readCounter src counter else s.readCounter src counter

/-! ## Accesses that wait at the port -/

/-- Flow control goes on holding an access (R240). -/
def State.stillHeld (s : State) : PortAccess → Bool
  | .write _ a _ _ => s.rpFull a
  | .count .. => false

/-- An access that has waited is served as one that arrives then. -/
def State.serve (s : State) : PortAccess → State
  | .write src a size v => if s.takesWrite src a v then s.windowRegister src false a size v else s
  | .count src c => s.readCounter src c

/-- The accesses that wait are served in order, as far as the FIFO's room reaches (R240, R477); a failed interface serves none, and loses them (R395). -/
def State.servePort (s : State) : List PortAccess → State
  | [] => s.setRp fun r => { r with held := [] }
  | w :: ws =>
    if !s.windowUp then s.setRp fun r => { r with held := [] }
    else if s.stillHeld w then s.setRp fun r => { r with held := w :: ws }
    else (s.serve w).servePort ws

/-- The port at the end of a tick. -/
def State.drainPort (s : State) : State := s.servePort s.dill.rp.held

end Sys2Proof.Machine
end

