-- ==== Sys2Proof/Machine/Boundary.lean ====
section
/-! DEFINITION. The boundaries that THYME and SAGE keep: of a tick (R30) and of an epoch (R57). -/

namespace Sys2Proof.Machine

/-- TICK_BOUNDARY (R30): the guard band of the tick that ends, and the boundary; THYME issues no slice for the next tick when its halves disagree (R382). The assignment for the first tick of an epoch belongs to EPOCH_BOUNDARY, which comes before the next boundary (R58). -/
def execTickBoundary (checks : TickChecks) (s : State) : Ans :=
  guarded (s.timeRuns && !s.thyme.epochDue) s fun s =>
    let m := s.thyme.tick + 1
    let s := (s.endTick checks).rested.enterMode.switchBank
    let s : State := { s with thyme := { s.thyme with idle := s.thyme.idle || checks.thymeDisagrees } }
    let s := if m % 65536 = 0 then s else s.guardBand m
    ((s.drainPort.advance.compareAll checks).beginTick).flow.latchStatus

/-- EPOCH_BOUNDARY (R57): a new epoch's plan, lane map and first assignment. -/
def execEpochBoundary (s : State) : Ans :=
  guarded s.thyme.epochDue s fun s =>
    let s := { s with sage := s.sage.clearFailures, thyme := { s.thyme with epoch := s.thyme.tick / 65536, epochDue := false } }
    if s.plansRun then
      let s := ((s.clearEpoch.remap).activatePlan).checkDegraded
      let s : State := { s with thyme := { s.thyme with epochPorts := s.activePorts } }
      (s.guardBand s.thyme.tick).pageDue.flow.latchStatus
    else s

end Sys2Proof.Machine
end

