-- ==== Sys2Proof/Machine/Dispatch.lean ====
section
/-! DEFINITION. Dispatch: one arm for each command, each a direct call of its meaning. -/

namespace Sys2Proof.Machine

def exec (i : Instr) (s : State) : Host.Outcome State Fault Refusal :=
  match i with
  | .tickBoundary checks => Sys2Proof.Machine.execTickBoundary checks s
  | .sliceResult kind lane gen verdict signature => Sys2Proof.Machine.execSliceResult kind lane gen verdict signature s
  | .epochBoundary => Sys2Proof.Machine.execEpochBoundary s
  | .doorbell src q w => Sys2Proof.Machine.execDoorbell src q w s
  | .disable src q w => Sys2Proof.Machine.execDisable src q w s
  | .enable src q w => Sys2Proof.Machine.execEnable src q w s
  | .pushWindowWrite src q offset data => Sys2Proof.Machine.execPushWindowWrite src q offset data s
  | .push q parityError => Sys2Proof.Machine.execPush q parityError s
  | .pushHalfTimeout q => Sys2Proof.Machine.execPushHalfTimeout q s
  | .entryReadResponse port tag data => Sys2Proof.Machine.execEntryReadResponse port tag data s
  | .auxBlockReadResponse port tag data => Sys2Proof.Machine.execAuxBlockReadResponse port tag data s
  | .fragmentTableReadResponse port tag data => Sys2Proof.Machine.execFragmentTableReadResponse port tag data s
  | .payloadReadResponse port tag data => Sys2Proof.Machine.execPayloadReadResponse port tag data s
  | .writeResponse port tag checkFails => Sys2Proof.Machine.execWriteResponse port tag checkFails s
  | .completionConfirm port tag => Sys2Proof.Machine.execCompletionConfirm port tag s
  | .coalescingTimer q => Sys2Proof.Machine.execCoalescingTimer q s
  | .p2Credit => Sys2Proof.Machine.execP2Credit s
  | .linkDown domain => Sys2Proof.Machine.execLinkDown domain s
  | .linkUp domain => Sys2Proof.Machine.execLinkUp domain s
  | .requesterReset src => Sys2Proof.Machine.execRequesterReset src s
  | .flr domain => Sys2Proof.Machine.execFlr domain s
  | .fabricErrorResponse port tag => Sys2Proof.Machine.execFabricErrorResponse port tag s
  | .readTruncated port tag beats data byCheck => Sys2Proof.Machine.execReadTruncated port tag beats data byCheck s
  | .writeTruncated port tag => Sys2Proof.Machine.execWriteTruncated port tag s
  | .checkResponse port tag => Sys2Proof.Machine.execCheckResponse port tag s
  | .egressCheckFail port tag => Sys2Proof.Machine.execEgressCheckFail port tag s
  | .portTestResult port pass => Sys2Proof.Machine.execPortTestResult port pass s
  | .suspendedPortReadTimeout port => Sys2Proof.Machine.execSuspendedPortReadTimeout port s
  | .portRst port => Sys2Proof.Machine.execPortRst port s
  | .keyLoadResponse reqId outcome payload => Sys2Proof.Machine.execKeyLoadResponse reqId outcome payload s
  | .slotWaitRetry q c => Sys2Proof.Machine.execSlotWaitRetry q c s
  | .useReserveResponse reqId outcome start g => Sys2Proof.Machine.execUseReserveResponse reqId outcome start g s
  | .keyRevoke handle destroyed => Sys2Proof.Machine.execKeyRevoke handle destroyed s
  | .keyBusRequestLost reqId => Sys2Proof.Machine.execKeyBusRequestLost reqId s
  | .unwrapSlotSwitch domain handle => Sys2Proof.Machine.execUnwrapSlotSwitch domain handle s
  | .jnlWriteResponse reqId outcome => Sys2Proof.Machine.execJnlWriteResponse reqId outcome s
  | .compactionStep => Sys2Proof.Machine.execCompactionStep s
  | .jnlReadResponse reqId data => Sys2Proof.Machine.execJnlReadResponse reqId data s
  | .jnlEraseResponse reqId outcome => Sys2Proof.Machine.execJnlEraseResponse reqId outcome s
  | .journalRecovery => Sys2Proof.Machine.execJournalRecovery s
  | .claimResponse port tag => Sys2Proof.Machine.execClaimResponse port tag s
  | .evictResponse port tag superseded => Sys2Proof.Machine.execEvictResponse port tag superseded s
  | .snoop port stag domain line checkOk => Sys2Proof.Machine.execSnoop port stag domain line checkOk s
  | .contextRestore port tag data => Sys2Proof.Machine.execContextRestore port tag data s
  | .basilOperationEnd seq => Sys2Proof.Machine.execBasilOperationEnd seq s
  | .candidateBudgetExhausted seq => Sys2Proof.Machine.execCandidateBudgetExhausted seq s
  | .microcodeVerificationEnd => Sys2Proof.Machine.execMicrocodeVerificationEnd s
  | .microcodeReload => Sys2Proof.Machine.execMicrocodeReload s
  | .microcodeBankUncorrectable bankB => Sys2Proof.Machine.execMicrocodeBankUncorrectable bankB s
  | .aesGcmEncrypt q c => Sys2Proof.Machine.execAesGcmEncrypt q c s
  | .aesGcmDecrypt q c => Sys2Proof.Machine.execAesGcmDecrypt q c s
  | .gmacGenerate q c => Sys2Proof.Machine.execGmacGenerate q c s
  | .gmacVerify q c => Sys2Proof.Machine.execGmacVerify q c s
  | .aesCcmEncrypt q c => Sys2Proof.Machine.execAesCcmEncrypt q c s
  | .aesCcmDecrypt q c => Sys2Proof.Machine.execAesCcmDecrypt q c s
  | .aesXtsEncrypt q c => Sys2Proof.Machine.execAesXtsEncrypt q c s
  | .aesXtsDecrypt q c => Sys2Proof.Machine.execAesXtsDecrypt q c s
  | .aesCbcEncrypt q c => Sys2Proof.Machine.execAesCbcEncrypt q c s
  | .aesCbcDecrypt q c => Sys2Proof.Machine.execAesCbcDecrypt q c s
  | .aesCtr q c => Sys2Proof.Machine.execAesCtr q c s
  | .aesSivEncrypt q c => Sys2Proof.Machine.execAesSivEncrypt q c s
  | .aesSivDecrypt q c => Sys2Proof.Machine.execAesSivDecrypt q c s
  | .aesCmacGenerate q c => Sys2Proof.Machine.execAesCmacGenerate q c s
  | .aesCmacVerify q c => Sys2Proof.Machine.execAesCmacVerify q c s
  | .keyWrap q c => Sys2Proof.Machine.execKeyWrap q c s
  | .keyUnwrap q c => Sys2Proof.Machine.execKeyUnwrap q c s
  | .chacha20Poly1305Encrypt q c => Sys2Proof.Machine.execChacha20Poly1305Encrypt q c s
  | .chacha20Poly1305Decrypt q c => Sys2Proof.Machine.execChacha20Poly1305Decrypt q c s
  | .hash q c => Sys2Proof.Machine.execHash q c s
  | .hmacGenerate q c => Sys2Proof.Machine.execHmacGenerate q c s
  | .hmacVerify q c => Sys2Proof.Machine.execHmacVerify q c s
  | .encryptThenMac q c => Sys2Proof.Machine.execEncryptThenMac q c s
  | .verifyThenDecrypt q c => Sys2Proof.Machine.execVerifyThenDecrypt q c s
  | .rsaPrivate q c => Sys2Proof.Machine.execRsaPrivate q c s
  | .rsaPublic q c => Sys2Proof.Machine.execRsaPublic q c s
  | .ecdsaSign q c => Sys2Proof.Machine.execEcdsaSign q c s
  | .ecdsaVerify q c => Sys2Proof.Machine.execEcdsaVerify q c s
  | .ecdh q c => Sys2Proof.Machine.execEcdh q c s
  | .keyGeneration q c => Sys2Proof.Machine.execKeyGeneration q c s
  | .eddsaSign q c => Sys2Proof.Machine.execEddsaSign q c s
  | .eddsaVerify q c => Sys2Proof.Machine.execEddsaVerify q c s
  | .x25519 q c => Sys2Proof.Machine.execX25519 q c s
  | .mlKemKeyGeneration q c => Sys2Proof.Machine.execMlKemKeyGeneration q c s
  | .mlKemEncapsulation q c => Sys2Proof.Machine.execMlKemEncapsulation q c s
  | .mlKemDecapsulation q c => Sys2Proof.Machine.execMlKemDecapsulation q c s
  | .mlDsaKeyGeneration q c => Sys2Proof.Machine.execMlDsaKeyGeneration q c s
  | .mlDsaSign q c => Sys2Proof.Machine.execMlDsaSign q c s
  | .mlDsaVerify q c => Sys2Proof.Machine.execMlDsaVerify q c s
  | .curveLoad q c => Sys2Proof.Machine.execCurveLoad q c s
  | .timeStatementRequest q c => Sys2Proof.Machine.execTimeStatementRequest q c s
  | .ptpEgress c => Sys2Proof.Machine.execPtpEgress c s
  | .ptpIngressVerify c => Sys2Proof.Machine.execPtpIngressVerify c s
  | .ntsClientRequest c => Sys2Proof.Machine.execNtsClientRequest c s
  | .ntsClientResponseVerify c => Sys2Proof.Machine.execNtsClientResponseVerify c s
  | .ntsServerExchange c => Sys2Proof.Machine.execNtsServerExchange c s
  | .adjust c => Sys2Proof.Machine.execAdjust c s
  | .step c => Sys2Proof.Machine.execStep c s
  | .sample c => Sys2Proof.Machine.execSample c s
  | .modeSelect c => Sys2Proof.Machine.execModeSelect c s
  | .keyEntry c => Sys2Proof.Machine.execKeyEntry c s
  | .utc c => Sys2Proof.Machine.execUtc c s
  | .fence q c => Sys2Proof.Machine.execFence q c s
  | .noOp q c => Sys2Proof.Machine.execNoOp q c s
  | .holdoverEntry => Sys2Proof.Machine.execHoldoverEntry s
  | .temperatureSample theta => Sys2Proof.Machine.execTemperatureSample theta s
  | .stepApplied => Sys2Proof.Machine.execStepApplied s
  | .leap => Sys2Proof.Machine.execLeap s
  | .sgInitLoad src => Sys2Proof.Machine.execSgInitLoad src s
  | .counterReturn counterB => Sys2Proof.Machine.execCounterReturn counterB s
  | .pipelineStart c => Sys2Proof.Machine.execPipelineStart c s
  | .pipelineHandover c refused verdictOk => Sys2Proof.Machine.execPipelineHandover c refused verdictOk s
  | .timestampStrobe ch strobe => Sys2Proof.Machine.execTimestampStrobe ch strobe s
  | .ppsInputEdge n strobe => Sys2Proof.Machine.execPpsInputEdge n strobe s
  | .ppsOutputEdge n => Sys2Proof.Machine.execPpsOutputEdge n s
  | .eventWrite domain => Sys2Proof.Machine.execEventWrite domain s
  | .eventTimeout domain => Sys2Proof.Machine.execEventTimeout domain s
  | .headWordRead domain w => Sys2Proof.Machine.execHeadWordRead domain w s
  | .eventWriteResponse port tag => Sys2Proof.Machine.execEventWriteResponse port tag s
  | .dirtyLogRecordWrite domain => Sys2Proof.Machine.execDirtyLogRecordWrite domain s
  | .overflowClear src page => Sys2Proof.Machine.execOverflowClear src page s
  | .stopped domain => Sys2Proof.Machine.execStopped domain s
  | .mbT2mDb src page w => Sys2Proof.Machine.execMbT2mDb src page w s
  | .mbM2tDb src page w => Sys2Proof.Machine.execMbM2tDb src page w s
  | .t2mAck src page => Sys2Proof.Machine.execT2mAck src page s
  | .m2tAck src page => Sys2Proof.Machine.execM2tAck src page s
  | .mailboxDisable src page w => Sys2Proof.Machine.execMailboxDisable src page w s
  | .mailboxEnable src page w => Sys2Proof.Machine.execMailboxEnable src page w s
  | .mailboxAreaWrite src page offset data => Sys2Proof.Machine.execMailboxAreaWrite src page offset data s
  | .identify c => Sys2Proof.Machine.execIdentify c s
  | .getLogDeferredError c => Sys2Proof.Machine.execGetLogDeferredError c s
  | .getLogPlan c => Sys2Proof.Machine.execGetLogPlan c s
  | .getLogMigrationState c => Sys2Proof.Machine.execGetLogMigrationState c s
  | .getLogSelfTest c => Sys2Proof.Machine.execGetLogSelfTest c s
  | .getFeaturesInterruptCoalescing c => Sys2Proof.Machine.execGetFeaturesInterruptCoalescing c s
  | .getFeaturesEventQueue c => Sys2Proof.Machine.execGetFeaturesEventQueue c s
  | .getFeaturesMigrationControl c => Sys2Proof.Machine.execGetFeaturesMigrationControl c s
  | .setFeaturesInterruptCoalescing c => Sys2Proof.Machine.execSetFeaturesInterruptCoalescing c s
  | .setFeaturesEventQueue c => Sys2Proof.Machine.execSetFeaturesEventQueue c s
  | .logStart c => Sys2Proof.Machine.execLogStart c s
  | .stop c => Sys2Proof.Machine.execStop c s
  | .logEnd c => Sys2Proof.Machine.execLogEnd c s
  | .restoreCount c => Sys2Proof.Machine.execRestoreCount c s
  | .microcodeDownload c => Sys2Proof.Machine.execMicrocodeDownload c s
  | .microcodeActivate c => Sys2Proof.Machine.execMicrocodeActivate c s
  | .createQueue c => Sys2Proof.Machine.execCreateQueue c s
  | .deleteQueue c => Sys2Proof.Machine.execDeleteQueue c s
  | .domainCreate c => Sys2Proof.Machine.execDomainCreate c s
  | .domainResize c => Sys2Proof.Machine.execDomainResize c s
  | .domainReset c => Sys2Proof.Machine.execDomainReset c s
  | .domainDelete c => Sys2Proof.Machine.execDomainDelete c s
  | .domainResetComplete domain => Sys2Proof.Machine.execDomainResetComplete domain s
  | .selfTestChiveLane c => Sys2Proof.Machine.execSelfTestChiveLane c s
  | .selfTestBunch c => Sys2Proof.Machine.execSelfTestBunch c s
  | .selfTestDillLane c => Sys2Proof.Machine.execSelfTestDillLane c s
  | .selfTestBasilSequencer c => Sys2Proof.Machine.execSelfTestBasilSequencer c s
  | .selfTestMemoryDataPort c => Sys2Proof.Machine.execSelfTestMemoryDataPort c s
  | .selfTestSageStandbyCounter c => Sys2Proof.Machine.execSelfTestSageStandbyCounter c s
  | .selfTestThymeLockstepPair c => Sys2Proof.Machine.execSelfTestThymeLockstepPair c s
  | .selfTestKeyBusLane c => Sys2Proof.Machine.execSelfTestKeyBusLane c s
  | .selfTestEntropySource c => Sys2Proof.Machine.execSelfTestEntropySource c s
  | .selfTestStart kind index => Sys2Proof.Machine.execSelfTestStart kind index s
  | .selfTestTimeout kind index => Sys2Proof.Machine.execSelfTestTimeout kind index s
  | .selfTestEnd kind index pass => Sys2Proof.Machine.execSelfTestEnd kind index pass s
  | .loadKeyByHandle c => Sys2Proof.Machine.execLoadKeyByHandle c s
  | .loadKeyAesKw c => Sys2Proof.Machine.execLoadKeyAesKw c s
  | .loadKeyAesKwp c => Sys2Proof.Machine.execLoadKeyAesKwp c s
  | .postedLoadRun load => Sys2Proof.Machine.execPostedLoadRun load s
  | .registerPathOpen src => Sys2Proof.Machine.execRegisterPathOpen src s
  | .registerPathFinish src => Sys2Proof.Machine.execRegisterPathFinish src s
  | .registerPathClose src => Sys2Proof.Machine.execRegisterPathClose src s
  | .dgRpData src word => Sys2Proof.Machine.execDgRpData src word s
  | .dgRpLast src word => Sys2Proof.Machine.execDgRpLast src word s
  | .registerPathDone => Sys2Proof.Machine.execRegisterPathDone s
  | .registerPathDataError => Sys2Proof.Machine.execRegisterPathDataError s
  | .go src => Sys2Proof.Machine.execGo src s
  | .resume src => Sys2Proof.Machine.execResume src s
  | .drain src => Sys2Proof.Machine.execDrain src s
  | .quiesce src => Sys2Proof.Machine.execQuiesce src s
  | .lightSleep src => Sys2Proof.Machine.execLightSleep src s
  | .deepSleep src => Sys2Proof.Machine.execDeepSleep src s
  | .provision src => Sys2Proof.Machine.execProvision src s
  | .reset src => Sys2Proof.Machine.execReset src s
  | .drainedPoint => Sys2Proof.Machine.execDrainedPoint s
  | .drainLimitExpiry => Sys2Proof.Machine.execDrainLimitExpiry s
  | .wakeTimer => Sys2Proof.Machine.execWakeTimer s
  | .wakeIn => Sys2Proof.Machine.execWakeIn s
  | .powerOnReset => Sys2Proof.Machine.execPowerOnReset s
  | .deviceReset => Sys2Proof.Machine.execDeviceReset s
  | .mainReset => Sys2Proof.Machine.execMainReset s
  | .pdAonSupplyLoss => Sys2Proof.Machine.execPdAonSupplyLoss s
  | .sense => Sys2Proof.Machine.execSense s
  | .startupTestsEnd found => Sys2Proof.Machine.execStartupTestsEnd found s
  | .enterService => Sys2Proof.Machine.execEnterService s
  | .transition src code => Sys2Proof.Machine.execTransition src code s
  | .otpCopyDone readBack holdupOk => Sys2Proof.Machine.execOtpCopyDone readBack holdupOk s
  | .programInstanceSlot src index => Sys2Proof.Machine.execProgramInstanceSlot src index s
  | .programEcdsaDigest src index => Sys2Proof.Machine.execProgramEcdsaDigest src index s
  | .programMlDsaDigest src index => Sys2Proof.Machine.execProgramMlDsaDigest src index s
  | .revokeEcdsaKey src index => Sys2Proof.Machine.execRevokeEcdsaKey src index s
  | .revokeMlDsaKey src index => Sys2Proof.Machine.execRevokeMlDsaKey src index s
  | .tamperSourceFire source => Sys2Proof.Machine.execTamperSourceFire source s
  | .alarmPortsStop => Sys2Proof.Machine.execAlarmPortsStop s
  | .alarmClear src => Sys2Proof.Machine.execAlarmClear src s
  | .request src cls => Sys2Proof.Machine.execRequest src cls s
  | .submit src => Sys2Proof.Machine.execSubmit src s
  | .debugClose src => Sys2Proof.Machine.execDebugClose src s
  | .debugOpen src cls => Sys2Proof.Machine.execDebugOpen src cls s
  | .debugResponseChecked => Sys2Proof.Machine.execDebugResponseChecked s
  | .challengeExpiry => Sys2Proof.Machine.execChallengeExpiry s
  | .lockstepMismatch unit blame aTestFails bTestFails => Sys2Proof.Machine.execLockstepMismatch unit blame aTestFails bTestFails s
  | .halfRejoin unit halfB pass => Sys2Proof.Machine.execHalfRejoin unit halfB pass s
  | .uncorrectableError element => Sys2Proof.Machine.execUncorrectableError element s
  | .scrub memory word corrected => Sys2Proof.Machine.execScrub memory word corrected s
  | .entropyHealthFail cell => Sys2Proof.Machine.execEntropyHealthFail cell s
  | .pllSwitch coreClock => Sys2Proof.Machine.execPllSwitch coreClock s
  | .registerInterfaceFail => Sys2Proof.Machine.execRegisterInterfaceFail s
  | .kbRst lane => Sys2Proof.Machine.execKbRst lane s
  | .linkUpLow lane => Sys2Proof.Machine.execLinkUpLow lane s
  | .echoResponse lane intact => Sys2Proof.Machine.execEchoResponse lane intact s
  | .rcCounterRead src counter => Sys2Proof.Machine.execRcCounterRead src counter s
  | .registerWrite src viaDebug addr size value => Sys2Proof.Machine.execRegisterWrite src viaDebug addr size value s
  | .mainGood => Sys2Proof.Machine.execMainGood s
  | .timeGood => Sys2Proof.Machine.execTimeGood s
  | .entropyStartUpTestsEnd => Sys2Proof.Machine.execEntropyStartUpTestsEnd s

end Sys2Proof.Machine
end

