-- ==== Sys2Proof/Safety.lean ====
section
/-! DEFINITION. What counts as a safe run of Duern, in the terms that the statements use: the forms that every step keeps, and what the block's own progress leaves alone. -/

namespace Sys2Proof.Machine

/-- A mailbox area in canonical form: rising offsets inside the two areas, and no entry zero. -/
def Memory.wf (m : Memory) : Bool :=
  (m.map (·.1)).Pairwise (· < ·) && m.all fun c => decide (c.1 < 0x800) && c.2 != 0

/-! ## What the block's own progress leaves alone

Validation, entry reads, staging, restores and requests to the ports follow every command (State.flow). State.still of a state forgets what they can move, so that two states with the same still part differ in nothing else. -/

/-- A queue without its held copies, the next count to validate and the chain under way. -/
def Queue.still (x : Queue) : Queue := { x with copies := [], unsound := [], validated := 0, chainLen := 0, chainBroken := false }

/-- An event queue without its staged records and its hold. -/
def EventQ.still (q : EventQ) : EventQ :=
  { q with staged := [], gap := 0, gapTick := 0, lastStaged := 0, hold := false, recovering := false }

/-- A domain without its deferred-error mark. -/
def Domain.still (x : Domain) : Domain := { x with deferred := false }

/-- What a command leaves of a state beside the work in progress: modes, registers, OTP, time, plans, lanes and ports, sequencers and banks, the arrival queue, the queues' counts and settings, the event queues' settings, domains, mailboxes and migration, and the register path. -/
def State.still (s : State) : State :=
  { s with
    thyme := { s.thyme with issues := [], outs := [] }
    fennel := { s.fennel with queues := s.fennel.queues.map Queue.still, jobs := [] }
    txns := []
    bay := .reset
    keyBus := .reset
    mint := { s.mint with records := [], logUsed := 0, seq := 0, appends := [], compaction := none }
    dill := { s.dill with ctxs := [], saveCtr := 0, lines := [] }
    parsley := { qs := s.parsley.qs.map EventQ.still }
    domains := s.domains.map Domain.still
    admin := { s.admin with defLog := [], defLost := 0 }
    outbox := [] }

/-- The job of a queue and a count has a status. -/
def State.endedWith (s : State) (q : Nat) (c : BitVec 17) (st : Status) : Prop := ∃ j, s.job? q c = some j ∧ j.status = some st

/-- The admin command c answers a next state in which its entry has ended with st, the rest being u but for the work in progress. -/
def State.adminEnds (s : State) (i : Instr) (c : BitVec 17) (st : Status) (u : State) : Prop :=
  ∃ v : State, exec i s = .next v.flow ∧ v.endedWith 0 c st ∧ v.still = u.still

/-- The domain is there, and what is said of it holds. -/
def State.domainNow (s : State) (d : Nat) (p : Domain → Prop) : Prop := ∃ x, s.domain? d = some x ∧ p x

end Sys2Proof.Machine
end

