-- ==== Sys2Proof/Certificates/Slice0/Obligations.lean ====
section
/-! DEFINITION. The statements about Duern that the provers prove: the queue of commands, time and plans, the queue pages, the ports, keys and the journal, the engines, secure time, events and mailboxes, administration, the register path, modes, life cycle, debug and integrity. Most clauses have the form exec c s = .next u.flow with u the command's own effect; State.flow is the block's own progress after it, and State.still what that progress leaves alone. -/

open Sys2Proof Sys2Proof.Machine

/-! ## The queue of commands -/

/-- A step takes the command at the front of the queue and runs it with the rest of the queue; on an empty queue the block idles, and only ck_aon is counted in deep sleep (notes/assumptions/8, the model's choice). -/
def Obligations.StepRunsFrontCommand : Prop :=
  (∀ (c : Instr) (rest : List Instr) (s : State), s.pending = c :: rest → step s = exec c { s with pending := rest }) ∧
  ∀ s : State, s.pending = [] → step s = .next s.idle ∧
    (s.mode.mode ≠ .deepSleep → s.idle = s) ∧
    (s.mode.mode = .deepSleep → s.idle = { s with aon := { s.aon with aonCount := s.aon.aonCount + 1 } })

/-- Every command of the table answers a next state, and no command touches the commands that wait behind it. -/
def Obligations.CommandsLeaveTheQueue : Prop := ∀ (i : Instr) (s : State), ∃ t : State, exec i s = .next t ∧ t.pending = s.pending

/-! ## What reset leaves -/

/-- The state after the release of power-on reset (R439, Table 14.6; the blank OTP and the empty queue are the model's choice, notes/assumptions/5 and 8): Sense with nothing done, every setup register at its Reset column (Tables 16.4, 14.2, 16.6, 16.8, 16.9, 9.3 and 13.7: those that are not zero are spelled out, and every other address reads zero), an OTP of zeros in life-cycle state BLANK with no operation, the power-on bit alone in GL_RESET_CAUSE, no alarm, no queue, no domain, no plan, no key slot and no transaction. -/
def Obligations.ResetState : Prop :=
  State.reset.mode.mode = .sense ∧ State.reset.mode.steps = ⟨false, false, false, false, false, false, false, false⟩ ∧
  State.reset.aon.resetCause = 1 ∧ State.reset.aon.alarmLatched = false ∧
  State.reset.reg 0x001C = 0x007D3010 ∧ State.reset.reg 0x0120 = 0x005F5E10 ∧ State.reset.reg 0x20010 = 8 ∧
  State.reset.reg 0x20014 = 0x101 ∧ State.reset.reg 0x4000C = 0x1000 ∧ State.reset.reg 0x70018 = 0x005F5E10 ∧
  State.reset.reg 0x7001C = 0x6400 ∧ State.reset.reg 0x70020 = 0x401 ∧ State.reset.reg 0x70024 = 0x4000 ∧
  State.reset.reg 0x70028 = 0x3E800 ∧ State.reset.reg 0x7002C = 0x400 ∧ State.reset.reg 0x70030 = 0x199A ∧
  State.reset.reg 0x70034 = 0x10000 ∧ State.reset.reg 0x70040 = 0x000F4240 ∧ State.reset.reg 0x70048 = 0x000F4240 ∧
  (∀ c < 18, State.reset.reg (0x70100 + 0x20 * c) = 8) ∧ State.reset.reg 0x80080 = 0xFFF ∧
  (∀ a, a ∉ [0x001C, 0x0120, 0x20010, 0x20014, 0x4000C, 0x70018, 0x7001C, 0x70020, 0x70024, 0x70028, 0x7002C, 0x70030, 0x70034,
    0x70040, 0x70048, 0x80080] → (∀ c < 18, a ≠ 0x70100 + 0x20 * c) → State.reset.reg a = 0) ∧
  State.reset.lovage.life = .blank ∧ State.reset.lovage.op = none ∧
  (∀ w, State.reset.lovage.readMono w = 0 ∧ State.reset.lovage.readVal w = some 0 ∧ State.reset.lovage.valBlank w = true) ∧
  State.reset.fennel.queues = [] ∧ State.reset.domains = [] ∧ State.reset.thyme.plan = [] ∧ State.reset.bay.slots = [] ∧
  State.reset.txns = [] ∧ State.reset.pending = []

/-! ## Ticks and epochs -/

/-- TICK_BOUNDARY (R30, R287), while SAGE counts: the tick that begins is the next one of the time, the counter is carried by whole additions of the addend to the first value at or past the next whole multiple of 160 ns, and that multiple begins second k exactly when the tick is number 6,250,000 k. That the counter keeps the residue past the boundary is the model's reading (notes/assumptions/114). -/
def Obligations.TickBoundaryStartsTick : Prop :=
  ∀ (checks : TickChecks) (s : State), s.mode.timeOn = true → s.mode.steps.s1 = true → s.thyme.epochDue = false →
    0 < addend0 + s.sage.adj →
    ∃ t : State, exec (.tickBoundary checks) s = .next t ∧ t.thyme.tick = s.sage.now / (160 * 2 ^ 40) + 1 ∧
      t.thyme.tick * (160 * 2 ^ 40) ≤ t.sage.now ∧ (t.sage.now : Int) < t.thyme.tick * (160 * 2 ^ 40) + (addend0 + s.sage.adj) ∧
      (∃ k : Nat, (t.sage.now : Int) = s.sage.now + k * (addend0 + s.sage.adj)) ∧
      (∀ k, t.thyme.tick * (160 * 2 ^ 40) = k * (1000000000 * 2 ^ 40) ↔ t.thyme.tick = 6250000 * k)

/-- A plan epoch boundary is the boundary of a tick whose number is a multiple of 65,536, and the epoch number is the tick number shifted right by 16 bits (R57). That a command of its own, EPOCH_BOUNDARY, follows the TICK_BOUNDARY of such a tick, which leaves it due, is the model's choice (notes/assumptions/18): it puts the epoch in force, and in the modes in which plans run it clears the counts of the old epoch (R389), maps the lanes (R63), puts in force the staged changes that are due (R59, R60), compiles (R68), judges Degraded service and assigns the epoch's first tick; it leaves the tick and the time alone. An epoch lasts 65,536 ticks, 10,485,760 ns, and holds 4,096 frames of 16 ticks. -/
def Obligations.EpochBoundaryStartsEpoch : Prop :=
  (∀ (checks : TickChecks) (s t : State), s.mode.timeOn = true → s.mode.steps.s1 = true → s.thyme.epochDue = false →
    exec (.tickBoundary checks) s = .next t → (t.thyme.epochDue = true ↔ t.thyme.tick % 65536 = 0)) ∧
  (∀ s : State, s.thyme.epochDue = true →
    let u : State := { s with sage := s.sage.clearFailures, thyme := { s.thyme with epoch := s.thyme.tick >>> 16, epochDue := false } }
    (s.plansRun = false → exec .epochBoundary s = .next u) ∧
    (s.plansRun = true →
      let v := u.clearEpoch.remap.activatePlan.checkDegraded
      let w : State := { v with thyme := { v.thyme with epochPorts := v.activePorts } }
      exec .epochBoundary s = .next (w.guardBand s.thyme.tick).pageDue.flow.latchStatus) ∧
    ∃ t : State, exec .epochBoundary s = .next t ∧
      t.thyme.epoch = s.thyme.tick >>> 16 ∧ t.thyme.epochDue = false ∧ t.thyme.tick = s.thyme.tick ∧ t.sage.now = s.sage.now ∧
      (s.plansRun = true → t.thyme.staged = s.thyme.staged.filter fun c => !decide (c.epoch ≤ s.thyme.tick >>> 16))) ∧
  (∀ n e : Nat, n >>> 16 = e ↔ 65536 * e ≤ n ∧ n < 65536 * (e + 1)) ∧ 65536 * tickUnit = 10485760 * 2 ^ 40 ∧ 65536 = 4096 * 16

/-- SLICE_RESULT: a result that matches no outstanding issue is discarded (R21). The result of a test slice goes to its lane's test. Any other is judged alone when it has no partner, or its partner's issue is gone: the issues of its slice end, a pass marks the slice delivered (unless it referees, R385), and a failure marks its lane for suspension (R389) and the slice for a retry in the next tick (R69); the third failure ends the job with FLIT_CHECK_FAIL (R183). The slice of a verified domain that ran alone keeps its signature and runs once more before it is released (R56; notes/assumptions/34, the model's choice). The first result of two waits for its partner's, and then both are judged together (R383, R385): two passes that agree deliver. Under a debug class of 2 or more the verdict is traced (R421). Model's readings it rests on: notes/assumptions/25 and 26. -/
def Obligations.SliceResultJudged : Prop :=
  ∀ (u : LaneKind) (l : Nat) (g : BitVec 12) (v : Verdict) (sig : BitVec 64) (s : State),
    ((∀ i ∈ s.thyme.issues, ¬(i.unit = u ∧ i.lane = l ∧ i.gen = g ∧ i.delivered = none)) →
      exec (.sliceResult u l g v sig) s = .next s) ∧
    ∀ i, s.thyme.issues.find? (fun i => i.unit == u && i.lane == l && i.gen == g && i.delivered.isNone) = some i →
      let mine (x : Issue) : Prop := x.queue = i.queue ∧ x.count = i.count ∧ x.slice = i.slice ∧ x.gen = i.gen ∧ x.role ≠ .test
      let delivers (w : State) : Prop := ∀ j x, s.job? i.queue i.count = some j → j.slice? i.slice = some x → x.votes = [] →
        ∃ j', w.job? i.queue i.count = some j' ∧ i.slice ∈ j'.deliveredIdx
      (i.role = .test → exec (.sliceResult u l g v sig) s = .next
        (({ s with thyme := { s.thyme with issues := s.thyme.issues.filter (· != i) } } : State).testResult u l (v == .pass))) ∧
      let r := s.traceIssue (some v) i
      let verified : Prop := (s.planOf i.domain).any (·.verified) = true
      (i.role ≠ .test → i.partner = none →
        let w := r.resolveOne i v sig
        exec (.sliceResult u l g v sig) s = .next w.flow ∧
        (∀ x ∈ w.thyme.issues, ¬mine x) ∧
        (v ≠ .pass → w.sorrel.failedNow = s.sorrel.failedNow ++ [(u, l, true)]) ∧
        (v = .pass → ¬verified → delivers w) ∧
        (v = .pass → verified → ∀ j x, s.job? i.queue i.count = some j → j.slice? i.slice = some x → x.votes = [] →
          ∃ j' x', w.job? i.queue i.count = some j' ∧ j'.deliveredIdx = j.deliveredIdx ∧ j'.slice? i.slice = some x' ∧ x'.state = .staged ∧
            x'.retry = true ∧ x'.votes = [(i.lane, sig)] ∧ x'.eligible = s.thyme.tick + 1) ∧
        (v = .fail → ∀ j x, s.job? i.queue i.count = some j → j.slice? i.slice = some x → x.fails < 2 → x.retry = false →
          ∃ j' x', w.job? i.queue i.count = some j' ∧ j'.retried = true ∧ j'.slice? i.slice = some x' ∧ x'.state = .staged ∧
            x'.retry = true ∧ x'.fails = x.fails + 1 ∧ x'.eligible = s.thyme.tick + 1) ∧
        (v ≠ .pass → ∀ j x, s.job? i.queue i.count = some j → j.slice? i.slice = some x → 2 ≤ x.fails → j.status = none →
          w.endedWith i.queue i.count .flitCheckFail)) ∧
      (i.role ≠ .test → ∀ p, i.partner = some p →
        s.thyme.issues.find? (fun x => x.unit == u && x.lane == p && x.gen == g && x.slice == i.slice
          && x.queue == i.queue && x.count == i.count) = none →
        exec (.sliceResult u l g v sig) s = .next (r.resolveOne i v sig).flow) ∧
      (i.role ≠ .test → ∀ p b, i.partner = some p →
        s.thyme.issues.find? (fun x => x.unit == u && x.lane == p && x.gen == g && x.slice == i.slice
          && x.queue == i.queue && x.count == i.count) = some b →
        (b.delivered = none → exec (.sliceResult u l g v sig) s = .next { r with thyme := { r.thyme with
          issues := s.thyme.issues.map fun x => if x == i then { x with delivered := some (v, sig) } else x } }) ∧
        ∀ vb sb, b.delivered = some (vb, sb) →
          let w := if i.role = .shadow then r.resolveTwo b i vb v sb sig else r.resolveTwo i b v vb sig sb
          exec (.sliceResult u l g v sig) s = .next w.flow ∧
          (∀ x ∈ w.thyme.issues, ¬mine x) ∧ (v = .pass → vb = .pass → sb = sig → b.partner ≠ none → delivers w))

/-! ## Queue pages -/

/-- DOORBELL (R89) on a queue page that takes writes: it arrives at the end of the arrival queue (R88), which is full at 64, and waits behind a complete push (R90). With nothing before it, it is accepted: a count 1 to free ahead of the tail moves the tail there, a kick leaves the tail as it is, and any other count, a reserved bit, or a control bit on a data queue is ignored with db_error. A pending first half is discarded with push_discard (R93), and an accepted doorbell takes a STOPPED domain back to STOPPING (R336). Nothing else moves but the block's own progress. Model's readings it rests on: notes/assumptions/22. -/
def Obligations.DoorbellRule : Prop :=
  ∀ (src : From) (q : Nat) (w : BitVec 32) (s : State) (x : Queue),
    s.pagesOpen = true → s.writeHeld src.domain = false → s.queue? q = some x → x.domain = src.domain →
    s.resetting x.domain = false →
    (s.fennel.arrivals.length < 64 → exec (.doorbell src q w) s = .next ((s.arrive (.bell q w)).acceptBells).flow) ∧
    (∀ q' d more, s.fennel.arrivals.length < 64 → s.fennel.arrivals = .push q' d :: more →
      exec (.doorbell src q w) s = .next (s.arrive (.bell q w)).flow) ∧
    (s.fennel.arrivals = [] →
      let half (y : Queue) : Queue := if x.pushHalf.isSome then { y with pushHalf := none, pushDiscard := true } else y
      let d : BitVec 17 := w.setWidth 17
      let n := (d - x.tail).toNat
      let free := 2 ^ x.n - (x.tail - x.head).toNat
      let u := s.acceptDoorbell x w
      exec (.doorbell src q w) s = .next u.flow ∧
        (w.toNat < 2 ^ 17 → x.enabled = true → n ≤ free →
          u.still = ((s.setQueue q fun y => { half y with tail := d, used := true }).reenter x.domain).still) ∧
        (w.toNat < 2 ^ 17 → (x.enabled = false ∨ free < n) → u.still = (s.setQueue q fun y => { half y with dbError := true }).still) ∧
        ((2 ^ 17 ≤ w.toNat % 2 ^ 30 ∨ (1 < q ∧ 2 ^ 17 ≤ w.toNat)) →
          u.still = (s.setQueue q fun y => { half y with dbError := true }).still))

/-- DISABLE and ENABLE (R109): they arrive as doorbells (R88) and, with nothing before them, are accepted. On Q0 and Q1, a disable stops a queue that is enabled, and an enable starts one that is idle and not disabling; in every other case, and on every data queue, the write is ignored with db_error. An accepted disable discards the held copies (R100) but the pushed ones. Model's readings it rests on: notes/assumptions/22 and 100. -/
def Obligations.DisableEnableRule : Prop :=
  ∀ (src : From) (q : Nat) (w : BitVec 32) (s : State) (x : Queue),
    s.pagesOpen = true → s.writeHeld src.domain = false → s.queue? q = some x → x.domain = src.domain →
    s.resetting x.domain = false → w.toNat < 2 ^ 17 →
    (s.fennel.arrivals.length < 64 →
      exec (.disable src q w) s = .next ((s.arrive (.bell q (w ||| 0x80000000))).acceptBells).flow ∧
      exec (.enable src q w) s = .next ((s.arrive (.bell q (w ||| 0x40000000))).acceptBells).flow) ∧
    (s.fennel.arrivals = [] →
      let half (y : Queue) : Queue := if x.pushHalf.isSome then { y with pushHalf := none, pushDiscard := true } else y
      let refused := (s.setQueue q fun y => { half y with dbError := true }).still
      let u := s.acceptDoorbell x (w ||| 0x80000000)
      let v := s.acceptDoorbell x (w ||| 0x40000000)
      (exec (.disable src q w) s = .next u.flow ∧
        u.still = if q ≤ 1 ∧ x.enabled = true then
            (s.setQueue q fun y => { half y with enabled := false, disabling := y.head != y.tail }).still
          else refused) ∧
      (q ≤ 1 → x.enabled = true → ∃ y, u.queue? q = some y ∧ y.copies = x.copies.filter (·.express)) ∧
      (exec (.enable src q w) s = .next v.flow ∧
        v.still = if q ≤ 1 ∧ x.enabled = false ∧ x.disabling = false ∧ x.idle = true then
            (s.setQueue q fun y => { half y with enabled := true }).still
          else refused))

/-- PUSH_WINDOW_WRITE (R91, R92, R93): a write of any other size or offset sets push_discard; a Gen A or B push is one write; a Gen C push is a first half and then a second, and a second half without a first sets push_discard. A complete push enters the arrival queue (R88). Model's readings it rests on: notes/assumptions/22 and 101. -/
def Obligations.PushWindowRule : Prop :=
  ∀ (src : From) (q off : Nat) (data : Bytes) (s : State) (x : Queue),
    s.pagesOpen = true → s.writeHeld src.domain = false → s.queue? q = some x → x.domain = src.domain →
    s.resetting x.domain = false → s.fennel.arrivals.length < 64 →
    let u := State.pushWrite src off data x s
    exec (.pushWindowWrite src q off data) s = .next u.flow ∧
      (data.length ≠ 64 ∨ (off ≠ 0x40 ∧ off ≠ 0x80) ∨ (off = 0x80 ∧ x.gen ≠ .c) →
        u.still = (s.setQueue q fun y => { y with pushDiscard := true }).still) ∧
      (data.length = 64 → off = 0x40 → x.gen ≠ .c → u.still = (s.arrive (.push q data)).still) ∧
      (data.length = 64 → off = 0x40 → x.gen = .c → u.still = (s.setQueue q fun y => { y with
        pushHalf := some { src := src, data := data, tick := s.thyme.tick }, pushDiscard := y.pushDiscard || x.pushHalf.isSome }).still) ∧
      (data.length = 64 → off = 0x80 → x.gen = .c → u.still = match x.pushHalf with
        | some h => ((s.setQueue q fun y => { y with pushHalf := none }).arrive (.push q (h.data ++ data))).still
        | none => (s.setQueue q fun y => { y with pushDiscard := true }).still)

/-- PUSH (R88, R95): the complete push at the front of the arrival queue leaves it; on a disabled queue and on a full one it is discarded with push_discard, else it takes the next count, the tail moves by one, its copy is held (on a parity error none is, and the ring's entry is read, R96), for which a fetched copy gives way when 64 are held, and a STOPPED domain is STOPPING again (R336); the doorbells that waited behind it follow. While FENNEL holds 64 pushed copies for the queue the push waits. PUSH_HALF_TIMEOUT and REQUESTER_RESET (R93, Table 15.8): a first half that has waited 16 ticks, or whose requester is reset, is discarded with push_discard. Model's readings it rests on: notes/assumptions/22 and 103. -/
def Obligations.PushRule : Prop :=
  (∀ (q : Nat) (p : Bool) (s : State) (x : Queue) (data : Bytes) (rest : List Arrival),
    s.pagesOpen = true → s.queue? q = some x → s.fennel.arrivals = .push q data :: rest →
    (x.takesPush p = true ↔ (x.enabled = false ∨ 2 ^ x.n ≤ (x.tail - x.head).toNat ∨ p = true ∨ x.copies.length < 64 ∨
      ∃ k ∈ x.copies, k.express = false)) ∧
    (x.takesPush p = false → exec (.push q p) s = .next s) ∧
    (x.takesPush p = true →
    let u : State := { s with fennel := { s.fennel with arrivals := rest } }
    let w := u.acceptPush x data p
    let free := 2 ^ x.n - (x.tail - x.head).toNat
    exec (.push q p) s = .next (w.acceptBells).flow ∧
      (w.still = if x.enabled = true ∧ 0 < free then
          ((u.setQueue q fun y => { y with tail := x.tail + 1, used := true }).reenter x.domain).still
        else (u.setQueue q fun y => { y with pushDiscard := true }).still) ∧
      (x.enabled = true → 0 < free → ∀ z, (u.supersede q x.tail).queue? q = some z → ∃ y, w.queue? q = some y ∧
        y.copies = if p = false then z.makeRoom ++ [x.pushCopy x.tail data] else z.copies))) ∧
  (∀ (q : Nat) (s : State) (x : Queue) (h : PushHalf), s.queue? q = some x → x.pushHalf = some h → h.tick + 16 ≤ s.thyme.tick →
    exec (.pushHalfTimeout q) s = .next (s.dropHalf x 2) ∧
    (s.dropHalf x 2).still = (s.setQueue q fun y => { y with pushHalf := none, pushDiscard := true }).still) ∧
  (∀ (src : From) (s : State), s.mainRuns = true →
    let t := (s.fennel.queues.filter fun x => x.pushHalf.any fun h => h.src == src).foldl (fun s x => s.dropHalf x 5) s
    exec (.requesterReset src) s = .next t ∧
    (∀ y ∈ t.fennel.queues, ∀ h, y.pushHalf = some h → h.src ≠ src) ∧
    (∀ x ∈ s.fennel.queues, ∀ h, x.pushHalf = some h → h.src = src → ∃ y ∈ t.fennel.queues, y.num = x.num ∧ y.pushDiscard = true) ∧
    (∀ x ∈ s.fennel.queues, (∀ y ∈ s.fennel.queues, y.num = x.num → ∀ h, y.pushHalf = some h → h.src ≠ src) → x ∈ t.fennel.queues))

/-! ## The memory ports -/

/-- ENTRY_READ_RESPONSE (R86, R81, R97, R99, R100, R375, R378): the beat gives each count that it was read for its entry, at the entry's address in the beat, but those whose entries have a poisoned flit: these are read once more, and a second poison fails them. An entry that is fresh, and covered or prefetched for a count still to be validated, is held and clears the count's stall; a stale covered one stalls its count; a completed covered one is held as MALFORMED, and a failed one with its status; a held entry keeps the flit checks of its bytes and the port that they came by (R372, R373); a completed one whose job has written its completion counts as confirmed when its queue's state has been rebuilt (R378); any other is discarded. Model's readings it rests on: notes/assumptions/23. -/
def Obligations.EntryReadRule : Prop :=
  (∀ (port tag : Nat) (data : ReadData) (s : State) (t : Txn) (q : Nat) (cs : List (BitVec 17)) (pre again : Bool) (x : Queue),
    s.txn? port tag = some t → t.op = .read → t.purpose = .entry q cs pre again → t.dead = false → s.queue? q = some x →
    let r := s.endTxn port tag
    let place (c : BitVec 17) : Nat := (x.base + c.toNat % 2 ^ x.n * x.gen.size) % 128
    let bad := x.poisonedOf cs (t.poison ++ data.poison)
    let u := (cs.filter fun c => !bad.contains c).foldl (fun u c => u.entryBytes q c pre (sub (t.got data) (place c) x.gen.size) port) r
    (∀ c, c ∈ bad ↔ c ∈ cs ∧ ∃ i, place c / 64 ≤ i ∧ i < place c / 64 + (x.gen.size + 63) / 64 ∧ (t.poison ++ data.poison)[i]? = some true) ∧
    (bad = [] → exec (.entryReadResponse port tag data) s = .next u.flow) ∧
    (bad ≠ [] → again = false → exec (.entryReadResponse port tag data) s = .next (u.readBeat x bad pre true).flow) ∧
    (bad ≠ [] → again = true →
      exec (.entryReadResponse port tag data) s = .next (bad.foldl (fun u c => u.failEntry q c pre [] .poisoned) u).flow)) ∧
  ∀ (s : State) (q port : Nat) (c : BitVec 17) (pre : Bool) (e : Bytes) (st : Status) (x : Queue),
    s.queue? q = some x → x.copy? c = none → x.copies.length < 64 →
    let covered : Prop := (c - x.validated).toNat < (x.tail - x.validated).toNat
    let ahead : Prop := (x.validated - x.head).toNat ≤ (c - x.head).toNat ∧ (c - x.head).toNat < 2 ^ x.n
    let bad (st : Status) : EntryCopy := { count := c, bytes := x.withPhase c e, express := false, bad := some st, checks := [], port := none }
    let holds (w : State) (k : EntryCopy) : Prop := ∃ y, w.queue? q = some y ∧ y.copies = x.copies ++ [k] ∧ c ∉ y.stale
    let w := s.entryBytes q c pre e port
    let known : Prop := c ∈ x.recheck ∧ ∃ j, s.job? q c = some j ∧ j.phase = .completing
    (x.judge c e = .fresh → (covered ∨ (pre = true ∧ ahead)) →
      holds w { count := c, bytes := e, express := false, bad := none, checks := flitChecks e, port := some port }) ∧
    (x.judge c e = .stale → covered → pre = false → ∃ y, w.queue? q = some y ∧ y.copies = x.copies ∧ c ∈ y.stale) ∧
    (x.judge c e = .completed → covered → pre = false → holds w (bad .malformed)) ∧
    (x.judge c e = .fresh → ¬covered → ¬(pre = true ∧ ahead) → w = s) ∧
    (x.judge c e = .stale → (pre = true ∨ ¬covered) → w = s) ∧
    (x.judge c e = .completed → (pre = true ∨ (¬covered ∧ ¬known)) → w = s) ∧
    (x.judge c e = .completed → ¬covered → pre = false → known →
      w = (s.setQueue q fun y => { y with recheck := y.recheck.filter (· != c) }).confirm q c e) ∧
    (covered → pre = false → holds (s.failEntry q c pre e st) (bad st)) ∧
    ((pre = true ∨ ¬covered) → s.failEntry q c pre e st = s)

/-- AUX_BLOCK_READ_RESPONSE, FRAGMENT_TABLE_READ_RESPONSE and PAYLOAD_READ_RESPONSE (R120, R135, R50, R375, R277, R420, R456, Table 7.6): the transaction ends; poison in any flit ends the job, with what units hold of it when it is payload, or the package; clean bytes go to what the read was for: the aux block once whole, the fragment table, the payload, the package, the debug response, or a port's test, which fails when they are not what was written. -/
def Obligations.BlockReadRule : Prop :=
  ∀ (port tag : Nat) (data : ReadData) (s : State) (t : Txn),
    s.txn? port tag = some t → t.op = .read → t.dead = false →
    let r := s.endTxn port tag
    let b := t.got data
    (∀ q c j, t.purpose = .aux q c → r.job? q c = some j →
      (t.poisoned data = true → exec (.auxBlockReadResponse port tag data) s = .next (r.endJob q c .poisoned).flow) ∧
      (t.poisoned data = false →
        let off := (t.iova + 2 ^ 52 - eAux j.entry) % 2 ^ 52
        let buf := putAt (padTo (auxLen j.entry) j.tableBuf) off b
        let u := r.setJob q c fun j => { j with tableBuf := putAt (padTo (auxLen j.entry) j.tableBuf) ((t.iova + 2 ^ 52 - eAux j.entry) % 2 ^ 52) b }
        exec (.auxBlockReadResponse port tag data) s =
          .next (if u.reading (fun p => p == .aux q c) then u else u.auxBytes q c buf).flow)) ∧
    (∀ q c dst, t.purpose = .table q c dst → exec (.fragmentTableReadResponse port tag data) s =
      .next (if t.poisoned data then r.noTable q c .poisoned else r.tableBytes q c dst b port).flow) ∧
    (∀ q c i off, t.purpose = .payload q c i off →
      (t.poisoned data = true → exec (.payloadReadResponse port tag data) s = .next ((r.stopUnits q c).endJob q c .poisoned).flow) ∧
      (t.poisoned data = false →
        let u := r.setJob q c fun j => { j with data := j.withBytes i off b }
        let more := u.reading fun p => match p with
          | .payload q' c' i' _ => q' == q && c' == c && i' == i
          | _ => false
        exec (.payloadReadResponse port tag data) s = .next (if more then u else u.payloadWhole q c i).flow)) ∧
    (∀ bank, t.purpose = .package bank → exec (.payloadReadResponse port tag data) s =
      .next (if t.poisoned data then r.packageFails bank .poisoned else r.packageBytes bank t.iova b).flow) ∧
    (∀ off, t.purpose = .response off → exec (.payloadReadResponse port tag data) s = .next ({ r with lovage := { r.lovage with
      resp := putAt r.lovage.resp off b, respFailed := r.lovage.respFailed || t.poisoned data } } : State).sendAll) ∧
    (∀ p k, t.purpose = .portTest p k → exec (.payloadReadResponse port tag data) s =
      .next (if b = patternBytes k b.length then r else r.setPort p fun x => { x with bad := true }).sendAll)

/-- The end of a job (R19, R149, R139): the first status stays; then its reads that are not yet sent are gone and the others are dead, no issue of it remains whose result could be taken (R21), a link of a chain that fails breaks the links after it, and no other job's status moves. -/
def Obligations.EndOfJob : Prop :=
  ∀ (s : State) (q : Nat) (c : BitVec 17) (st : Status) (j : Job), s.job? q c = some j →
    let u := s.endJob q c st
    u.endedWith q c (j.status.getD st) ∧
    (j.status = none →
      (∀ i ∈ u.thyme.issues, ¬(i.queue = q ∧ i.count = c)) ∧
      (∀ t ∈ u.txns, t.op = .read → t.purpose.job? = some (q, c) → t.dead = true) ∧
      (st ≠ .ok → q ≠ 0 → eChain j.entry = true → ∀ x, s.queue? q = some x → ∃ y, u.queue? q = some y ∧ y.chainBroken = true)) ∧
    (∀ q' c', (q', c') ≠ (q, c) → (u.job? q' c').map (·.status) = (s.job? q' c').map (·.status))

/-- WRITE_RESPONSE (R19, R146, R342, R447, R332): a response that fails its check has the write issued again and counts against its port, unless a reset has cut it, when it ends, or it belongs to a port's test, which fails; a good one ends the write, which is logged: output bytes are acknowledged to their job, a job's zeros and results settle, an admin command counts the bytes that it has written, a stop marker is confirmed (R335), and dirty records, timestamp records and port tests have nothing more to do. A cut write of a job that an alarm has ended settles it. -/
def Obligations.WriteResponseRule : Prop :=
  ∀ (port tag : Nat) (s : State) (t : Txn), s.txn? port tag = some t → t.op = .write →
    let r := (s.endTxn port tag).logTxn t
    (t.dead = false →
      (t.cls ≠ .maintenance → exec (.writeResponse port tag true) s = .next ((s.reissue port tag false t.kept).countPort port).flow) ∧
      (t.cls = .maintenance → exec (.writeResponse port tag true) s = .next ((s.failTxn t).countPort port).flow) ∧
      (∀ q c i off, t.purpose = .output q c i off →
        exec (.writeResponse port tag false) s = .next (r.outputAcked q c (some (off, t.len))).flow) ∧
      (∀ q c o, t.purpose = .zero q c o → exec (.writeResponse port tag false) s = .next (r.settle q c).flow) ∧
      (∀ q c, t.purpose = .result q c → q ≠ 0 → exec (.writeResponse port tag false) s = .next (r.settle q c).flow) ∧
      (∀ c, t.purpose = .result 0 c → exec (.writeResponse port tag false) s =
        .next ((r.setJob 0 c fun j => { j with bytesDone := j.bytesDone + t.len }).settle 0 c).flow) ∧
      (∀ d, t.purpose = .marker d → exec (.writeResponse port tag false) s = .next (r.setDomain d fun x =>
        if x.mig.marker == .issued then { x with mig := { x.mig with marker := .confirmed } } else x).flow) ∧
      (((∃ d, t.purpose = .dirty d) ∨ (∃ k, t.purpose = .stamp k) ∨ ∃ p k, t.purpose = .portTest p k) →
        exec (.writeResponse port tag false) s = .next r.flow)) ∧
    (t.dead = true →
      exec (.writeResponse port tag true) s = .next ((r.deadDone t).countPort port).flow ∧
      (t.purpose.plainWrite = true → exec (.writeResponse port tag false) s = .next (r.deadDone t).flow) ∧
      (∀ q c, ((∃ i o, t.purpose = .output q c i o) ∨ (∃ o, t.purpose = .zero q c o) ∨ t.purpose = .result q c) →
        r.deadDone t = r.settle q c))

/-- R105, COMPLETION_CONFIRM: the write response of a completion write confirms that completion. One that is not at the head waits, confirmed, with the deferred flag that its record carries (R150), and moves no count. At the head it advances the completion count in ring order by every completion confirmed from there on: with n of them in a row, by n; their jobs are gone, and the tail does not move. The head shadow that the queue's domain reads at +0x100 is the completion count from the next tick boundary on, so by cycle 0 of the next tick. -/
def Obligations.CompletionAdvancesHead : Prop :=
  (∀ (port tag : Nat) (s : State) (t : Txn) (q : Nat) (c : BitVec 17) (x : Queue) (j : Job),
    s.txn? port tag = some t → t.op = .write → t.purpose = .completion q c → t.dead = false → s.queue? q = some x →
    s.job? q c = some j →
    (c ≠ x.head → (∀ j', s.job? q x.head = some j' → j'.phase ≠ .confirmed) →
      ∃ w : State, exec (.completionConfirm port tag) s = .next w.flow ∧
        (∃ j', w.job? q c = some j' ∧ j'.phase = .confirmed ∧ j'.deferredFlag = (byteAt t.data 1).getLsbD 6) ∧ ∃ y, w.queue? q = some y ∧ y.head = x.head ∧ y.tail = x.tail) ∧
    (c = x.head → ∀ n : Nat, 1 ≤ n → n ≤ 2 ^ 17 →
      (∀ k, 1 ≤ k → k < n → ∃ j', s.job? q (x.head + BitVec.ofNat 17 k) = some j' ∧ j'.phase = .confirmed) →
      (∀ j', s.job? q (x.head + BitVec.ofNat 17 n) = some j' → j'.phase ≠ .confirmed) →
      ∃ w : State, exec (.completionConfirm port tag) s = .next w.flow ∧
        (∃ y, w.queue? q = some y ∧ y.head = x.head + BitVec.ofNat 17 n ∧ y.tail = x.tail) ∧
        ∀ k < n, w.job? q (x.head + BitVec.ofNat 17 k) = none)) ∧
  ∀ (checks : TickChecks) (s t : State), s.mode.timeOn = true → s.mode.steps.s1 = true → s.thyme.epochDue = false →
    exec (.tickBoundary checks) s = .next t → ∀ (q : Nat) (x : Queue) (src : From), t.queue? q = some x → src.domain = x.domain →
    src.port ≠ .p1 → t.queueRead src q 0x100 = BitVec.ofNat 64 x.head.toNat

/-- FABRIC_ERROR_RESPONSE (R449, Tables 15.6 and 7.6): the transfer ends and is not issued again; what it carried fails: an entry read fails its counts, a block or payload read ends its job with FABRIC_ERROR, with what units hold of it when it is payload, an output write turns its job's status to FABRIC_ERROR, a failed debug response is marked, and one that a reset has cut has nothing to fail. READ_TRUNCATED and WRITE_TRUNCATED (R450 to R452): the transfer goes out again on a spare port, once, a read with what it has brought; with no spare port, or a second time, it fails the same way, as one of a port's test does at once; an EVICT that a snoop has superseded is not sent again, and its line is freed (R237). Model's readings it rests on: notes/assumptions/68. -/
def Obligations.FailedTransfers : Prop :=
  ∀ (port tag : Nat) (s : State) (t : Txn), s.txn? port tag = some t →
    let gone : State := { s with txns := s.txns.filter fun x => !(x == t) }
    let fails : State := (gone.logTxn t).failTransfer t
    let put (got : ReadData) (x : Txn) : Txn :=
      if x.port == port && x.tag == some tag then
        { x with tag := none, spare := true, cut := true, avoid := none, again := true,
                 data := (if x.op == .read then got.bytes else x.data), poison := (if x.op == .read then got.poison else x.poison) } else x
    let again (got : ReadData) : State := { s with txns := s.txns.map (put got) }
    let onward : Prop := s.sparePort ≠ none ∧ t.cut = false ∧ t.dead = false ∧ t.cls ≠ .maintenance
    let kept : Prop := t.op = .evict ∧ ∃ l, s.line? t.domain (t.iova / 128) = some l ∧ l.state = .passed
    exec (.fabricErrorResponse port tag) s = .next fails.flow ∧
    (t.dead = false →
      (∀ q cs p a, t.op = .read → t.purpose = .entry q cs p a →
        fails = cs.foldl (fun u c => u.failEntry q c p [] .fabricError) gone) ∧
      (∀ q c, t.op = .read → t.purpose = .aux q c → fails = gone.endJob q c .fabricError) ∧
      (∀ q c i o, t.op = .read → t.purpose = .payload q c i o → fails = (gone.stopUnits q c).endJob q c .fabricError) ∧
      (∀ o, t.op = .read → t.purpose = .response o → fails = { gone with lovage := { gone.lovage with respFailed := true } }) ∧
      (∀ q c i o j, t.purpose = .output q c i o → (gone.logTxn t).job? q c = some j → j.status = none →
        fails.endedWith q c .fabricError)) ∧
    (t.dead = true → fails = (gone.logTxn t).deadDone t) ∧
    (∀ (beats : Nat) (data : ReadData), t.op = .read →
      let got : ReadData := { bytes := t.data ++ data.bytes.take (t.beatBytes beats - t.data.length), poison := t.poison ++ data.poison }
      (onward →
        exec (.readTruncated port tag beats data false) s = .next (again got).flow ∧
        exec (.readTruncated port tag beats data true) s = .next ((again got).countPort port).flow) ∧
      (¬onward →
        exec (.readTruncated port tag beats data false) s = .next fails.flow ∧
        exec (.readTruncated port tag beats data true) s = .next (fails.countPort port).flow)) ∧
    ((t.op = .write ∨ t.op = .evict) →
      (onward → ¬kept → exec (.writeTruncated port tag) s = .next (again t.kept).flow) ∧
      (¬onward → (t.dead = true ∨ t.cls = .maintenance ∨ ¬kept) →
        exec (.writeTruncated port tag) s = .next fails.flow) ∧
      (∀ l, t.dead = false → t.cls ≠ .maintenance → t.op = .evict → s.line? t.domain (t.iova / 128) = some l → l.state = .passed →
        exec (.writeTruncated port tag) s = .next (((s.endTxn port tag).logTxn t).freeLine l).flow))

/-- CHECK_RESPONSE (R498), a WRSP of any write that fails its check (R447) and EGRESS_CHECK_FAIL (R374): the transfer goes out again, not on that port when another active one can take it, and the port takes a suspension count (R456); an output whose slice can still be made again is dropped, and its slice is retried; a context line goes out poisoned (R448). A transfer that a reset has cut ends instead, an EVICT that a snoop has superseded ends with its line (R237), and a port's test fails. Model's readings it rests on: notes/assumptions/68, 69 and 138. -/
def Obligations.ChecksReissue : Prop :=
  ∀ (port tag : Nat) (s : State) (t : Txn), s.txn? port tag = some t →
    let e := s.setPort port fun x => { x with egress := x.egress + 1 }
    let ended (u : State) : State := (u.endTxn port tag).logTxn t
    let kept : Prop := t.op = .evict ∧ ∃ l, s.line? t.domain (t.iova / 128) = some l ∧ l.state = .passed
    let plain : Prop := (∀ q c i o, t.purpose ≠ .output q c i o) ∧ ∀ q c a b, t.purpose ≠ .line q c a b
    let both : ReadData := { bytes := t.data, poison := [true, true] }
    (t.dead = false → t.cls ≠ .maintenance → ¬kept →
      exec (.checkResponse port tag) s = .next ((s.reissue port tag false t.kept).countPort port).flow ∧
      ((t.op = .write ∨ t.op = .evict) → plain →
        exec (.egressCheckFail port tag) s = .next ((e.reissue port tag false t.kept).countPort port).flow) ∧
      ((t.op = .write ∨ t.op = .evict) → (∃ q c a b, t.purpose = .line q c a b) →
        exec (.egressCheckFail port tag) s = .next (((e.poisonLine t).reissue port tag false both).countPort port).flow)) ∧
    (t.dead = false → t.cls = .maintenance → ¬kept →
      exec (.checkResponse port tag) s = .next ((s.failTxn t).countPort port).flow ∧
      ((t.op = .write ∨ t.op = .evict) → plain → exec (.egressCheckFail port tag) s = .next ((e.failTxn t).countPort port).flow)) ∧
    (t.op ≠ .read → exec (.writeResponse port tag true) s = exec (.checkResponse port tag) s) ∧
    (∀ x ∈ (s.reissue port tag false t.kept).txns, x ∈ s.txns ∨ (x.tag = none ∧ x.avoid = some port ∧ x.spare = false ∧ x.again = true)) ∧
    (∀ q c i o, t.dead = false → t.op = .write → t.purpose = .output q c i o →
      exec (.egressCheckFail port tag) s = .next ((e.egressSlice t q c i).countPort port).flow) ∧
    (t.dead = true → ¬kept →
      exec (.checkResponse port tag) s = .next (((ended s).deadDone t).countPort port).flow ∧
      ((t.op = .write ∨ t.op = .evict) →
        exec (.egressCheckFail port tag) s = .next (((ended e).deadDone t).countPort port).flow)) ∧
    (∀ l, t.op = .evict → s.line? t.domain (t.iova / 128) = some l → l.state = .passed →
      exec (.checkResponse port tag) s = .next (((ended s).freeLine l).countPort port).flow ∧
      ((∀ q c i o, t.purpose ≠ .output q c i o) →
        exec (.egressCheckFail port tag) s = .next (((ended e).freeLine l).countPort port).flow))

/-- PORT_RST, SUSPENDED_PORT_READ_TIMEOUT and PORT_TEST_RESULT (R450, R452, R456, R487, Table 15.8), and the second suspension count of an epoch (R456): transfers on a reset or silent port are cut; a port that takes its second count is suspended and tested, and in that state the lowest-numbered spare port takes its position when the change is applied, at the next tick boundary; a suspended port whose comparison shows no difference when every transfer of its test has returned becomes a spare port, and one that fails is retired. Model's readings it rests on: notes/assumptions/36 and 66. -/
def Obligations.PortSuspension : Prop :=
  (∀ (p : Nat) (s : State), p < 10 → exec (.portRst p) s = .next ((s.portCut p).countPort p).flow) ∧
  (∀ (p : Nat) (s : State) (x : PortState), s.sorrel.ports[p]? = some x → (x.role = .suspended ∨ x.role = .retired) →
    exec (.suspendedPortReadTimeout p) s = .next (s.portCut p).flow) ∧
  (∀ (p : Nat) (pass : Bool) (s : State) (x : PortState), s.sorrel.ports[p]? = some x → x.role = .suspended →
    s.regN 0x90080 % 2 ^ 52 ≠ 0 → (∀ t ∈ s.txns, ∀ k, t.purpose ≠ .portTest p k) →
    (pass = x.bad → exec (.portTestResult p pass) s = .next s) ∧
    (pass ≠ x.bad → ∃ t : State, exec (.portTestResult p pass) s = .next t ∧
      t.sorrel.ports = s.sorrel.ports.modify p fun x => { x with role := if pass then .spare else .retired })) ∧
  (∀ (p k y : Nat) (s : State) (x z : PortState), s.sorrel.ports[p]? = some x → x.role = .position k → 1 ≤ x.counts →
    s.sorrel.ports[y]? = some z → z.role = .spare → (∀ i < y, ∀ w, s.sorrel.ports[i]? = some w → w.role ≠ .spare) →
    ((s.countPort p).sorrel.ports[p]?).map (·.role) = some .suspended ∧
    (s.countPort p).admin.changes = s.admin.changes ++ [.position k] ∧
    (s.regN 0x90080 % 2 ^ 52 ≠ 0 → (s.countPort p).portTesting p = true) ∧
    (((s.countPort p).applyChange (.position k)).sorrel.ports[y]?).map (·.role) = some (.position k) ∧
    (((s.countPort p).applyChange (.position k)).sorrel.ports[p]?).map (·.role) = some .suspended) ∧
  (∀ (p : Nat) (s : State) (x : PortState), s.sorrel.ports[p]? = some x → x.counts = 0 →
    s.countPort p = s.setPort p fun x => { x with counts := x.counts + 1 })

/-- COALESCING_TIMER (R106, R107): with coal_count not 0 and completions pending, a queue requests its interrupt when the pending count reaches coal_count, when an urgent completion has been confirmed, or when the oldest pending one has waited coal_ticks ticks, and at most once in a tick; the pending count then starts again. P2_CREDIT (R467) lets out one stored notice, or is kept. -/
def Obligations.InterruptsAndNotices : Prop :=
  (∀ (q : Nat) (s : State) (x : Queue), s.queue? q = some x →
    let due : Prop := x.coalCount ≠ 0 ∧ x.pendingInt ≠ 0 ∧ x.lastInt ≠ some s.thyme.tick ∧
      (x.coalCount.toNat ≤ x.pendingInt ∨ x.urgentDue = true ∨
        (x.coalTicks ≠ 0 ∧ ∃ f, x.firstPending = some f ∧ f + x.coalTicks.toNat ≤ s.thyme.tick))
    (due → exec (.coalescingTimer q) s = .next { s.setQueue q fun y => { y with
        pendingInt := 0, firstPending := none, urgentDue := false, lastInt := some s.thyme.tick } with
      outbox := s.outbox ++ [.irq (if s.isHost x.domain then .p0 else .p3) x.domain x.vector] }) ∧
    (¬due → exec (.coalescingTimer q) s = .next s)) ∧
  (∀ s : State, exec .p2Credit s = .next (match s.fennel.p2Store with
    | [] => { s with fennel := { s.fennel with p2Credits := s.fennel.p2Credits + 1 } }
    | n :: ns => { s with fennel := { s.fennel with p2Store := ns, p2Dropped := false },
                          outbox := s.outbox ++ [.notice s.fennel.p2Dropped n] }))

/-- CLAIM_RESPONSE, EVICT_RESPONSE and SNOOP (R453, R237, R332, Table 15.7): a claimed line is owned and its EVICT goes out, with the flits poisoned that fail their check in the buffer (R448), unless the host link is lost meanwhile, when the line is freed (R111); an EVICT's response, superseded or not, frees the line and logs the write; a snoop is answered with the data of an owned line, which is then passed on, or freed when its EVICT has not been sent, and with a miss otherwise; a snoop whose check fails only counts against its port. -/
def Obligations.ContextLines : Prop :=
  (∀ (port tag : Nat) (s : State) (t : Txn) (l : WbLine), s.txn? port tag = some t → s.line? t.domain (t.iova / 128) = some l →
    (t.op = .claim → t.dead = false → exec (.claimResponse port tag) s = .next (((((s.endTxn port tag).setLine l.domain l.line fun l =>
      { l with state := .owned }).issue .evict .metadata l.domain (128 * l.line) 128 l.data fun _ => t.purpose).lastTxn
        fun t => { t with poison := flitFails l.checks l.data }).flow)) ∧
    (t.op = .claim → t.dead = true → exec (.claimResponse port tag) s = .next ((s.endTxn port tag).freeLine l).flow) ∧
    (t.op = .evict → ∀ superseded, exec (.evictResponse port tag superseded) s =
      .next (((s.endTxn port tag).logTxn t).freeLine l).flow)) ∧
  (∀ (port stag d n : Nat) (s : State), exec (.snoop port stag d n false) s = .next (s.countPort port)) ∧
  (∀ (port stag d n : Nat) (s : State),
    (∀ l, s.line? d n = some l → l.state = .owned →
      (s.evictSent l = true → exec (.snoop port stag d n true) s =
        .next ((s.emit (.snoopData port stag l.data (flitFails l.checks l.data))).setLine d n fun l => { l with state := .passed })) ∧
      (s.evictSent l = false → exec (.snoop port stag d n true) s = .next (({ s.emit (.snoopData port stag l.data (flitFails l.checks l.data)) with
        txns := s.txns.filter fun t => !(t.op == .evict && t.domain == d && t.iova == 128 * n) } : State).freeLine l).flow)) ∧
    ((∀ l, s.line? d n = some l → l.state ≠ .owned) →
      exec (.snoop port stag d n true) s = .next { s with outbox := s.outbox ++ [.snoopMiss port stag] }))

/-- CONTEXT_RESTORE (R236, R375, Table 7.6): the whole record of a restoring context is accepted only when its tag, its first 40 bytes and its save count agree, and the context is on the die again; else, and when it is poisoned, the job ends POISONED and its contexts are cleared. Model's readings it rests on: notes/assumptions/70. -/
def Obligations.ContextRestoreRule : Prop :=
  ∀ (port tag : Nat) (data : ReadData) (s : State) (t : Txn) (q : Nat) (c : BitVec 17) (o : Bool) (j : Job) (x : Ctx) (r n : Nat),
    s.txn? port tag = some t → t.op = .read → t.purpose = .restore q c o → t.dead = false → s.job? q c = some j →
    s.dill.ctxs.find? (fun x => x.queue == q && x.count == c && x.older == o) = some x → x.place = .restoring r n →
    (s.endTxn port tag).reading (fun p => p == .restore q c o) = false →
    let rec' := putAt (padTo 640 x.sealed) ((t.iova + 2 ^ 52 - s.recordAddr x.domain r) % 2 ^ 52) (t.got data)
    ∃ w : State, exec (.contextRestore port tag data) s = .next w.flow ∧
      (t.poisoned data = true → w.endedWith q c (j.status.getD .poisoned) ∧
        ∀ y ∈ w.dill.ctxs, ¬(y.queue = q ∧ y.count = c)) ∧
      (t.poisoned data = false → s.restoreOk j { x with sealed := rec' } r n rec' = true →
        ∃ y, w.dill.ctxs.find? (fun x => x.queue == q && x.count == c && x.older == o) = some y ∧ y.place = .onDie) ∧
      (t.poisoned data = false → s.restoreOk j { x with sealed := rec' } r n rec' = false →
        w.endedWith q c (j.status.getD .poisoned) ∧ ∀ y ∈ w.dill.ctxs, ¬(y.queue = q ∧ y.count = c))

/-! ## Links and resets -/

/-- LINK_DOWN and LINK_UP (R111 to R113, R369), FLR (R327) and DOMAIN_RESET_COMPLETE (R328, R321, R333). A link that falls takes effect at the next tick boundary: it marks the domain and its queues, their unconfirmed ranges are released, and their jobs are abandoned without completions; one that falls and returns within a tick has fallen first. A link that returns clears the marks, posts the held events and starts the recovery. A function-level reset starts the reset of a domain other than 0 in the next tick. A reset that is complete logs the remaining runs, leaves the domain NORMAL with its reset flags clear and posts the reset event, ends the admin entry that asked for it, and takes the domain away with its queues when it is a delete. Model's readings it rests on: notes/assumptions/20 and 21. -/
def Obligations.LinkAndResetRule : Prop :=
  (∀ (d : Nat) (s : State), s.mainRuns = true → s.isHost d = true → (s.domain? d).isSome = true →
    exec (.linkDown d) s = .next (s.addChange (.linkDown d))) ∧
  (∀ (d : Nat) (s : State), (s.domain? d).isSome = true →
    let t := s.applyChange (.linkDown d)
    t.domainNow d (fun x => x.linkDown = true) ∧
    (∀ y ∈ t.fennel.queues, y.domain = d → y.linkDown = true ∧ y.head = y.tail ∧ y.copies = []) ∧
    ∀ j ∈ t.fennel.jobs, ∀ y ∈ s.fennel.queues, y.domain = d → j.queue ≠ y.num) ∧
  (∀ (d : Nat) (s : State), s.mainRuns = true → s.isHost d = true → (s.linkSettled d).domainNow d (fun x => x.linkDown = true) →
    let u := (s.linkSettled d).setDomain d fun x => { x with linkDown := false }
    let up (x : Queue) : Queue := if x.domain == d then { x with linkDown := false } else x
    let v : State := { u with fennel := { u.fennel with queues := u.fennel.queues.map up } }
    let held := ((u.evq? d).map (·.held)).getD []
    let posted := held.foldl (fun s e => s.postEvent d e) (v.setEvq d fun q => { q with held := [] })
    let w := (posted.setEvq d fun q => { q with recovering := true }).checkHold d
    exec (.linkUp d) s = .next w.flow ∧ w.domainNow d (fun x => x.linkDown = false) ∧
      (∀ y ∈ w.fennel.queues, y.domain = d → y.linkDown = false) ∧ ∀ e, w.evq? d = some e → e.held = []) ∧
  (∀ (d : Nat) (s : State), s.mainRuns = true → s.isHost d = true → exec (.flr d) s = .next (s.addChange (.flr d))) ∧
  (∀ (d : Nat) (s : State) (x : Domain), s.domain? d = some x → (s.applyChange (.flr d)).domainNow d
    (fun y => y.resetting = if d = 0 ∨ x.resetting.isSome = true then x.resetting else some s.thyme.tick)) ∧
  (∀ (d : Nat) (s : State) (x : Domain), s.domain? d = some x → s.resetting d = true → s.domainQuiet d = true →
    let a := (s.flushDirty d).setDomain d fun x => { x with resetting := none, resetFlags := 0, mig := x.mig.afterReset }
    let b := (a.clearEvents d).eventDM d 0x02 0 d (leBytes 1 x.resetFlags.toNat)
    let e := if x.deleting then b.removeDomain d else b
    let w := match b.resetJob d with
      | some j => e.endJob 0 j.count .ok
      | none => e
    exec (.domainResetComplete d) s = .next w.flow ∧
      (x.deleting = false → w.domainNow d (fun y => y.resetting = none ∧ y.resetFlags = 0 ∧ y.mig.state = .normal)) ∧
      (x.deleting = true → w.domain? d = none ∧ w.evq? d = none ∧ ∀ y ∈ w.fennel.queues, y.domain ≠ d))

/-! ## The key bus and the journal -/

/-- KEY_LOAD_RESPONSE and SLOT_WAIT_RETRY (R187, R199, R200, R258, R259, R460): a granted record fills the slot that waits for it, or goes to the public-key job that asked; a refused or unknown one denies the slot's jobs, or ends the job, with KEY_DENIED; outcome 3 raises the request again, for another frame, and a frame's req_id is one that no outstanding request carries (R459, R490); a job that waits for its keys looks again. -/
def Obligations.KeyLoadRule : Prop :=
  (∀ (id : BitVec 16) (payload : Bytes) (s : State) (r : KbReq),
    s.kbReq? id = some r → r.kind = .keyLoad → s.resetting r.domain = false →
    let g := s.kbEnd r.serial
    let rec' := parseRec payload
    (r.dest = .slot → 128 ≤ payload.length → recordOk rec' = true → ∀ x, g.slot? r.domain r.handle = some x → x.loading = true →
      let u := g.fillSlot r.domain r.handle rec'
      exec (.keyLoadResponse id .granted payload) s = .next ((u.mintOnLoad r.domain r.handle).keyRetry).flow ∧
        ∃ y, u.slot? r.domain r.handle = some y ∧ y.loading = false ∧ y.record = some rec') ∧
    (∀ o, o ≠ .granted → o ≠ .error →
      (r.dest = .slot → exec (.keyLoadResponse id o payload) s = .next (g.denyLoad r.domain r.handle).flow) ∧
      (∀ q c, r.dest = .job q c → exec (.keyLoadResponse id o payload) s = .next (g.endJob q c .keyDenied).flow)) ∧
    (∀ q c, r.dest = .job q c → exec (.keyLoadResponse id .granted payload) s = .next (g.pkLoaded q c payload).flow) ∧
    ((r.dest = .slot ∨ ∃ q c, r.dest = .job q c) → s.inAlarm = false → s.kbClosed = false →
      ∃ u : State, exec (.keyLoadResponse id .error payload) s = .next u.flow ∧ (∀ x ∈ u.keyBus.reqs, x ∈ s.keyBus.reqs → x.serial ≠ r.serial) ∧
        ∃ r' ∈ u.keyBus.reqs, r'.serial = s.keyBus.serial ∧ r'.frame = none ∧
          r'.kind = r.kind ∧ r'.domain = r.domain ∧ r'.handle = r.handle ∧ r'.dest = r.dest)) ∧
  (∀ (k : KeyBus) (i : BitVec 16), k.freeId = some i → ∀ x ∈ k.reqs, x.frame.isSome = true → x.reqId ≠ i) ∧
  (∀ (q : Nat) (c : BitVec 17) (s : State) (j : Job), s.job? q c = some j → j.phase = .keys →
    exec (.slotWaitRetry q c) s = .next (s.keyProgress q c).flow)

/-- USE_RESERVE_RESPONSE (R197): a grant of uses continues a slot's block, or begins a new one at the store's count; nothing granted, or a refusal, exhausts the key: its slot, or the job that asked, which ends KEY_EXHAUSTED. KEY_REVOKE (R203) and UNWRAP_SLOT_SWITCH (R208): every slot of a revoked handle is marked, and the copy is acknowledged; from the next tick boundary a job that reaches step 2 with such a slot is denied, and one that nothing holds any more is zeroed; a slot that no other job holds takes the key that waits beside it. Model's readings it rests on: notes/assumptions/20 and 82. -/
def Obligations.KeyUseRule : Prop :=
  (∀ (id : BitVec 16) (o : KbOutcome) (first n : Nat) (s : State) (r : KbReq) (k : Nat),
    s.kbReq? id = some r → r.kind = .useReserve k → s.resetting r.domain = false → o ≠ .error →
    let g := if o = .granted then n else 0
    (r.dest = .slot → ∀ x, s.slot? r.domain r.handle = some x →
      ∃ u : State, exec (.useReserveResponse id o first n) s = .next u.flow ∧ ∃ y, u.slot? r.domain r.handle = some y ∧
        y.useAsked = false ∧ (g = 0 → y.exhausted = true ∧ y.useEnd = x.useEnd) ∧
        (0 < g → y.useEnd = (if x.useNext < x.useEnd then x.useEnd else first) + g)) ∧
    (∀ q c, r.dest = .job q c →
      (g = 0 → exec (.useReserveResponse id o first n) s = .next ((s.kbEnd r.serial).endJob q c .keyExhausted).flow) ∧
      (0 < g → exec (.useReserveResponse id o first n) s =
        .next ((((s.kbEnd r.serial).setJob q c fun j => { j with pkUse := some first }).pkWarning q c).flow)))) ∧
  (∀ (h : Nat) (destroyed : Bool) (s : State), s.mainRuns = true →
    ∃ u : State, exec (.keyRevoke h destroyed) s = .next (u.keyRetry.emit (.revokeAck h)).flow ∧
      u.bay.slots.length = s.bay.slots.length ∧ (∀ x ∈ u.bay.slots, x.handle = h → x.revoked = true ∧ x.newKey = none) ∧
      (∀ x ∈ s.bay.slots, x.handle = h → x.revoked = false → Change.revoked x.domain h ∈ u.admin.changes) ∧
      (destroyed = true → ∀ x ∈ u.mint.records, x.handle = h → x.removal = true)) ∧
  (∀ s : State, ∀ x, x ∈ s.sweepRevoked.bay.slots ↔ x ∈ s.bay.slots ∧ (x.revoked = true → s.slotHeld x = true)) ∧
  (∀ (d h : Nat) (needs : Bool) (s : State) (x : KeySlot), s.slot? d h = some x → x.record.isSome = true → x.revoked = true →
    Change.revoked x.domain x.handle ∉ s.admin.changes → s.checkSlot d h needs = (s, .fail .keyDenied)) ∧
  (∀ (d h : Nat) (s : State) (x : KeySlot) (m : Bytes), s.slot? d h = some x → x.revoked = false → x.newKey = some m →
    s.heldByOther d h = false →
    ∃ u : State, exec (.unwrapSlotSwitch d h) s = .next u.keyRetry.flow ∧
      ∃ y, u.slot? d h = some y ∧ y.material = some m ∧ y.newKey = none)

/-- KEY_BUS_REQUEST_LOST, KB_RST, LINK_UP_LOW and ECHO_RESPONSE (R460, R461, R462): a lost request is raised again, or fails its lane's test, and counts against its lane, as a failing frame too when no 6,250 ticks have gone by; a reset of a lane loses what is outstanding on it, each request once; a lane whose link is low, or that takes its second loss or its second failing frame of an epoch, is suspended and tested; 256 intact frames return it, and a bad one retires it; a failing frame that answers no request counts against its lane. Model's readings it rests on: notes/assumptions/83 and 131. -/
def Obligations.KeyBusLanes : Prop :=
  (∀ (id : BitVec 16) (s : State) (r : KbReq), s.kbReq? id = some r →
    let bad := if s.thyme.tick < r.tick + 6250 then 1 else 0
    ((∀ l, r.dest ≠ .lane l) → s.resetting r.domain = false →
      exec (.keyBusRequestLost id) s = .next ((s.kbAgain r r.errors).countLoss r.lane 1 bad).flow) ∧
    ((∀ l, r.dest ≠ .lane l) → s.resetting r.domain = true →
      exec (.keyBusRequestLost id) s = .next ((s.kbEnd r.serial).countLoss r.lane 1 bad).flow) ∧
    (∀ l, r.dest = .lane l → exec (.keyBusRequestLost id) s = .next ((s.endKb l false).countLoss r.lane 1 bad).flow)) ∧
  (∀ (l : Nat) (s : State), s.mainRuns = true → l < 2 →
    let lost := s.keyBus.reqs.filter fun r => r.lane == l && r.frame.isSome
    exec (.kbRst l) s = .next ((lost.foldl State.kbLost s).countLoss l lost.length 0).flow ∧
    exec (.linkUpLow l) s = .next (s.suspendKb l).flow ∧ (s.suspendKb l).laneUp l = false ∧
    ((∀ r ∈ s.keyBus.reqs, r.dest ≠ .lane l) →
      exec (.echoResponse l false) s = .next (s.countLoss l 0 1).flow ∧ exec (.echoResponse l true) s = .next s)) ∧
  (∀ (l : Nat) (s : State) (x : KbLane), s.sorrel.kb[l]? = some x →
    (∀ lost bad, 2 ≤ x.losses + lost ∨ 2 ≤ x.badFrames + bad → (s.countLoss l lost bad).laneUp l = false) ∧
    (∀ lost bad, x.losses + lost < 2 → x.badFrames + bad < 2 →
      s.countLoss l lost bad = s.setKb l fun x => { x with losses := x.losses + lost, badFrames := x.badFrames + bad }) ∧
    (∀ r, s.keyBus.reqs.find? (fun r => r.dest == .lane l) = some r →
      (∃ t : State, exec (.echoResponse l false) s = .next t ∧ ∃ y, t.sorrel.kb[l]? = some y ∧ y.health = .retired) ∧
      (255 ≤ x.echoes → ∃ t : State, exec (.echoResponse l true) s = .next t ∧ ∃ y, t.sorrel.kb[l]? = some y ∧ y.health = .healthy) ∧
      (x.echoes < 255 → ∃ t : State, exec (.echoResponse l true) s = .next t ∧ ∃ y, t.sorrel.kb[l]? = some y ∧ y.echoes = x.echoes + 1 ∧
        ∃ r' ∈ t.keyBus.reqs, r'.kind = .echo (x.echoes + 1) ∧ r'.dest = .lane l)))

/-- The journal (R212, R216, R218, R219, R431, R460): a good write response makes its bytes durable: an append confirms its reservation and draws run again, any other write carries the recovery on; a third failure in a row makes MINT refuse; a compaction takes its parts in order, each once every write of the part before has returned, and its sixth swaps the copies under the next generation; a read or an erase answers the recovery, a read in service the records that are to be read again (Table 12.2), and one answered without bytes is issued again (notes/assumptions/132, the model's choice); the recovery begins with the two headers and the map, on a key bus that is open (R397). Model's readings it rests on: notes/assumptions/12, 84, 105 and 136. -/
def Obligations.JournalRule : Prop :=
  (∀ (id : BitVec 16) (s : State) (r : KbReq) (t : JTarget) (off : Nat) (b : Bytes),
    s.kbReq? id = some r → r.dest = .mint → r.kind = .jnlWrite t off b →
    let u := (s.kbEnd r.serial).setMint fun m => { m with refusing := false }
    exec (.jnlWriteResponse id .granted) s = .next (if r.isAppend then u.appendReturned.retryDraws else u.recoverySettled).flow ∧
    (∀ o, o ≠ .granted →
      let v := s.jWriteError r
      exec (.jnlWriteResponse id o) s = .next v.flow ∧
      v.mint.refusing = (s.mint.refusing || decide (2 ≤ r.errors)) ∧
      (s.inAlarm = false → s.kbClosed = false →
        ∃ r' ∈ v.keyBus.reqs, r'.serial = s.keyBus.serial ∧ r'.frame = none ∧ r'.kind = r.kind ∧ r'.errors = r.errors + 1))) ∧
  (∀ (s : State) (c : Compaction), s.mint.compaction = some c → s.jBusy = false →
    (c.step = 2 → ∀ r ∈ s.mint.records, r.unread = false) → (c.step = 5 → ∀ a ∈ s.mint.appends, a.waiting = none) →
    let u := s.compactNext c
    exec .compactionStep s = .next u.flow ∧ u.mint.compaction.map (·.step) = (if c.step < 9 then some (c.step + 1) else none) ∧
      (c.step = 5 → u.mint.activeB = !s.mint.activeB ∧ u.mint.generation = s.mint.generation + 1) ∧
      (c.step ≠ 5 → u.mint.activeB = s.mint.activeB ∧ u.mint.generation = s.mint.generation)) ∧
  (∀ (id : BitVec 16) (data : Bytes) (s : State) (r : KbReq) (t : JTarget) (off n : Nat),
    s.kbReq? id = some r → r.dest = .mint → r.kind = .jnlRead t off n →
    let recovers : Prop := s.mint.recovery = .headers ∨ s.mint.recovery = .reading ∨ s.mint.recovery = .scanning
    (data ≠ [] → recovers → exec (.jnlReadResponse id data) s = .next ((s.kbEnd r.serial).recoverBytes t off (padTo n data)).flow) ∧
    (data ≠ [] → ¬recovers →
      exec (.jnlReadResponse id data) s = .next (((s.kbEnd r.serial).reread t off (padTo n data)).retryDraws).flow) ∧
    (data = [] → exec (.jnlReadResponse id data) s = .next (s.kbAgain r r.errors).flow)) ∧
  (∀ (id : BitVec 16) (s : State) (r : KbReq) (t : JTarget), s.kbReq? id = some r → r.dest = .mint → r.kind = .jnlErase t →
    exec (.jnlEraseResponse id .granted) s =
      .next (if s.mint.recovery = .erasing then (s.kbEnd r.serial).recoverErased t else s.kbEnd r.serial).flow ∧
    (∀ o, o ≠ .granted → exec (.jnlEraseResponse id o) s = .next (s.kbAgain r r.errors).flow)) ∧
  (∀ s : State, s.mode.mode = .startup → s.mode.fail = 0 → s.mode.steps.s4 = true → s.mode.steps.s8 = false →
    s.mode.formatWait = false → s.mint.recovery = .idle → (s.reg 0x40000).getLsbD 31 = true →
    let u := s.recoverStart
    exec .journalRecovery s = .next u.flow ∧ (s.jnlEn = true → s.kbClosed = false →
      u.mint.recovery = .headers ∧ u.mint.records = [] ∧ u.keyBus.reqs.length = s.keyBus.reqs.length + 3) ∧
      ((s.jnlEn = false ∨ s.kbClosed = true) → u = s.recoveryDone))

/-! ## The engines -/

/-- BASIL_OPERATION_END (R249, R285, R260) and CANDIDATE_BUDGET_EXHAUSTED (R267). In the last tick of an operation its result is written, its sequencer is free again and its job ends with the operation's status; a budget without an accepted candidate adds a further budget to the operation, and the fourth ends it ABORTED. Two signatures of an operation that differ at its delivery (R386, R283) restart it before its result write and suspend nothing; a restart that agrees with one of the two has the other's sequencer suspended. Model's readings it rests on: notes/assumptions/85, 116. -/
def Obligations.SequencerRule : Prop :=
  (∀ (i : Nat) (s : State) (o : Op) (st : Status) (res : Bytes) (j : Job),
    s.basil.seqs[i]? = some (some o) → o.isShadow = false → o.start + o.dur ≤ s.thyme.tick + 1 → o.result = some (st, res) →
    s.job? o.queue o.count = some j → j.status = none →
    let u := (s.clearOp i o).endPk j o st res
    exec (.basilOperationEnd i) s = .next (u.banksDrained.checkQuiet).flow ∧ (s.clearOp i o).basil.seqs[i]? = some none ∧
      (o.secret = none → u.endedWith o.queue o.count st)) ∧
  (∀ (i : Nat) (s : State) (o : Op) (j : Job),
    s.basil.seqs[i]? = some (some o) → o.isShadow = false → o.start + o.dur ≤ s.thyme.tick + 2 → o.result = none → o.partner = none →
    s.job? o.queue o.count = some j → eOp j.entry = 0x60 → eSub j.entry = 0x39 →
    exec (.candidateBudgetExhausted i) s = .next (match s.pkRun j o.draw o.budgets with
      | some _ => s
      | none =>
        if 3 ≤ o.budgets then s.setOp i (some { o with result := some (.aborted, []) })
        else
          let b := dsaBudget (ppCurve (j.aux.getD []))
          (s.setOp i (some { o with budgets := o.budgets + 1, dur := o.dur + b.1 * b.2 })).ucodeEvent o.bankB 5
            (leBytes 2 o.domain ++ leBytes 2 o.queue))) ∧
  ∀ (i p : Nat) (a b : BitVec 64) (s : State) (o : Op),
    s.basil.seqs[i]? = some (some o) → o.isShadow = false → o.result.isSome = true → o.start + o.dur = s.thyme.tick + 2 →
    (o.partner = some p → i < 16 → p < 16 → s.basil.seqs.length = 16 → o.votes = [] → o.restarts = 0 → a ≠ b →
      let t := s.compareOp (i, a, b)
      t.basil.seqs[i]? = some none ∧ t.basil.seqs[p]? = some none ∧ t.sorrel = s.sorrel ∧
        t.basil.waiting = s.basil.waiting ++ [{ o with restarts := 1, result := none, secret := none, votes := [(i, a), (p, b)] }]) ∧
    (o.votes = [] → (o.partner = none ∨ a = b) → s.compareOp (i, a, b) = s) ∧
    (∀ u v : Nat, o.partner = none → (o.votes = [(u, a), (v, b)] ∨ o.votes = [(v, b), (u, a)]) → a ≠ b →
      s.compareOp (i, a, b) = s.suspendSeq v)

/-- MICROCODE_VERIFICATION_END, MICROCODE_RELOAD and MICROCODE_BANK_UNCORRECTABLE (R277, R281, R379): a package that passes every check of Table 8.11 makes its bank STANDBY with the package's security version, a package that fails any leaves the bank EMPTY, and a download ends its admin entry with the check's status; a reload starts the verification of every bank that a register names; an uncorrectable bank is emptied, counted and reloaded. Model's readings it rests on: notes/assumptions/85. -/
def Obligations.MicrocodeRule : Prop :=
  (∀ (s : State) (v : Verify), s.verifyReady = some v → (v.failed.isSome = true ∨ s.verifierRuns (.bank v.bankB) = true) →
    let r := match v.failed with
      | some st => some st
      | none => s.packageCheck v.bytes v.len
    (∀ c j, v.admin = some c → s.job? 0 c = some j → j.status = none →
      ∃ u : State, exec .microcodeVerificationEnd s = .next u.flow ∧ u.endedWith 0 c (r.getD .ok) ∧
        (u.basil.bank v.bankB).state = (if r.isNone then .standby else .empty) ∧
        (r = none → (u.basil.bank v.bankB).svn = (byteAt v.bytes 8).toNat)) ∧
    (v.admin = none → s.mode.steps.s6 = true → (∀ x ∈ s.basil.verify, x.bankB = v.bankB) →
      ∃ t : State, exec .microcodeVerificationEnd s = .next t ∧
        (r = none → (t.basil.bank v.bankB).state = .active ∨ (t.basil.bank (!v.bankB)).state = .active) ∧
        (r.isSome = true → (t.basil.bank v.bankB).state = .empty))) ∧
  (∀ s : State, s.mode.mode = .startup → s.mode.fail = 0 → s.mode.steps.s4 = true → s.mode.steps.s6 = false → s.reloading = false →
    (s.reg 0x60000).getLsbD 31 = true →
    ∃ t : State, exec .microcodeReload s = .next t ∧
      (∀ b, s.bankAddr b ≠ 0 → ∃ v ∈ t.basil.verify, v.bankB = b ∧ v.admin = none ∧ v.base = s.bankAddr b) ∧
      ((∀ b, s.bankAddr b = 0) → t.mode.steps.s6 = true)) ∧
  (∀ (b : Bool) (s : State), s.mainRuns = true → ((s.basil.bank b).state = .active ∨ (s.basil.bank b).state = .standby) →
    ∃ t : State, exec (.microcodeBankUncorrectable b) s = .next t ∧ t.sorrel.ue = satInc s.sorrel.ue ∧
      (t.basil.bank b).state = if s.bankAddr b = 0 then .empty else .verifying)

/-- The end of a symmetric job once its last slice has delivered (R126, R149, R205, R207, R227 to R229, Table 4.9). Ciphers without a tag end OK, unless a data unit of theirs has failed a check, when that unit's write-back ends the job (R178). An operation that makes a tag or MAC puts the one that its last slice has made, and a Gen B job's MINT IV, where Table 4.9 places them; a verify ends OK or AUTH_FAIL by the two-key rule over what was made; a digest and a wrapped key are written to the destination. What the slices make over a message of one slice is what the whole algorithm gives: the CBC, CTR, GCM, CCM and ChaCha20 ciphers, and CMAC (R163, R164). Model's readings it rests on: notes/assumptions/2. -/
def Obligations.SymmetricEnds : Prop :=
  (∀ (q : Nat) (c : BitVec 17) (s : State) (j : Job), s.job? q c = some j → j.phase = .slices → j.allDelivered = true →
    let sub := eSub j.entry
    (∀ p ∈ [(0x18, Instr.aesXtsEncrypt), (0x19, .aesXtsDecrypt), (0x1C, .aesCbcEncrypt), (0x1D, .aesCbcDecrypt), (0x1E, .aesCtr)],
      eOp j.entry = p.1 → ((∀ x ∈ j.slices, x.fault = none) → exec (p.2 q c) s = .next (s.endJob q c .ok).flow) ∧
        ((∃ x ∈ j.slices, x.fault ≠ none) → exec (p.2 q c) s = .next s)) ∧
    (∀ p ∈ [(0x10, true, Instr.aesGcmEncrypt), (0x12, !bit sub 0, .gmacGenerate), (0x14, true, .aesCcmEncrypt),
        (0x20, true, .aesSivEncrypt), (0x22, !bit sub 0, .aesCmacGenerate), (0x30, true, .chacha20Poly1305Encrypt),
        (0x41, true, .hmacGenerate), (0x50, !bit sub 7, .encryptThenMac)],
      eOp j.entry = p.1 → p.2.1 = true →
      exec (p.2.2 q c) s = .next ((((s.placeTag j (j.made.take (macLen j.entry))).placeIv j).endJob q c .ok).flow)) ∧
    (∀ p ∈ [(0x12, bit sub 0, Instr.gmacVerify), (0x22, bit sub 0, .aesCmacVerify), (0x42, true, .hmacVerify)],
      eOp j.entry = p.1 → p.2.1 = true →
      let newer := j.memberLives false false && j.made.take (macLen j.entry) == j.tagIn
      let older := (j.olderKey false).isSome && j.memberLives false true && j.madeOld.take (macLen j.entry) == j.tagIn
      exec (p.2.2 q c) s = .next (((s.setJob q c fun j => { j with pairBoth := newer && older, pairOld := !newer && older }).endJob q c
        (if newer || older then .ok else .authFail)).flow)) ∧
    (eOp j.entry = 0x40 → exec (.hash q c) s = .next (((s.writeDst j .metadata 0 j.made fun _ => .result q c).endJob q c .ok).flow)) ∧
    (eOp j.entry = 0x24 →
      let u := s.setJob q c fun j => { j with bytesDone := j.made.length }
      exec (.keyWrap q c) s = .next (((u.writeDst j (u.payloadClass j.domain) 0 j.made fun _ => .result q c).endJob q c .ok).flow))) ∧
  ∀ (j : Job) (key m : Bytes) (st : Stream),
    let out := (j.streamStep key st 0 m.length m true).2.1
    ((eOp j.entry = 0x10 ∨ eOp j.entry = 0x11) → eAad j.entry = 0 → out = gcmCrypt key j.ivField m) ∧
    ((eOp j.entry = 0x14 ∨ eOp j.entry = 0x15) → eAad j.entry = 0 → out = ccmCrypt key j.ccmNonce m) ∧
    ((eOp j.entry = 0x30 ∨ eOp j.entry = 0x31) → eAad j.entry = 0 → out = chachaCrypt key (j.ivField.take 12) m) ∧
    (eOp j.entry = 0x1E → out = aesCtrCrypt key j.ivField m) ∧
    (eOp j.entry = 0x1C → m.length % 16 = 0 → out = cbcEnc key j.ivField m) ∧
    (eOp j.entry = 0x22 → (j.streamStep key st 0 m.length m true).2.2 = cmac key m)

/-- The end of an authenticated decrypt and of an unwrap (R169, R170, R173, R208): a tag that agrees, under the two-key rule or in the selection of a pair before its second pass, ends the job OK, and the last slice's output buffer is written back with its plaintext; one that does not ends it AUTH_FAIL, that buffer is written back with zeros, and zeros are written over what lies before it, or over all that was written when no buffer waits. An unwrapped key of a permitted length waits beside its target slot, one of another length is KEY_DENIED, and one that neither key opens is AUTH_FAIL. Model's readings it rests on: notes/assumptions/2. -/
def Obligations.AuthenticatedEnds : Prop :=
  ∀ (q : Nat) (c : BitVec 17) (s : State) (j : Job), s.job? q c = some j → j.phase = .slices → j.allDelivered = true → j.status = none →
    (∀ p ∈ [(0x11, true, Instr.aesGcmDecrypt), (0x15, true, .aesCcmDecrypt), (0x21, true, .aesSivDecrypt),
        (0x31, true, .chacha20Poly1305Decrypt), (0x50, bit (eSub j.entry) 7, .verifyThenDecrypt)],
      eOp j.entry = p.1 → p.2.1 = true →
      let second := p.1 == 0x50
      let newer := j.memberLives second false && j.made.take (macLen j.entry) == j.tagIn
      let older := (j.olderKey second).isSome && j.memberLives second true && j.madeOld.take (macLen j.entry) == j.tagIn
      let good := j.selects || newer || older
      let both := if j.selects then j.pairBoth else newer && older
      let old := if j.selects then j.pairOld else !newer && older
      let judged (x : LaneOut) : LaneOut := if x.queue = q ∧ x.count = c ∧ x.held = true then
          { x with held := false, zeroed := !good, data := if good then x.data else Machine.zeros x.data.length } else x
      let t : State := { s with thyme := { s.thyme with outs := s.thyme.outs.map judged } }
      (good = true → let u := (t.setJob q c fun j => { j with pairBoth := both, pairOld := old }).endJob q c .ok
        exec (p.2.2 q c) s = .next u.flow ∧ u.endedWith q c .ok ∧ u.thyme.outs = t.thyme.outs) ∧
      (good = false →
        (∀ x, s.thyme.outs.find? (fun x => x.queue == q && x.count == c && x.held) = some x →
          let u := t.endJobZ q c .authFail (j.outSpan x.slice).1
          exec (p.2.2 q c) s = .next u.flow ∧ u.endedWith q c .authFail) ∧
        ((∀ x ∈ s.thyme.outs, ¬(x.queue = q ∧ x.count = c ∧ x.held = true)) →
          let u := t.endJobZ q c .authFail (eLen j.entry)
          exec (p.2.2 q c) s = .next u.flow ∧ u.endedWith q c .authFail))) ∧
    (eOp j.entry = 0x25 →
      let newer := if j.memberLives false false then kwOpen (eSub j.entry) j.made else none
      let older := if (j.olderKey false).isSome && j.memberLives false true then kwOpen (eSub j.entry) j.madeOld else none
      (∀ m h, newer.or older = some m → j.mainKey true = some h →
        (s.targetOpen j.domain h = true → (s.recOf j.domain h).any (fun r => unwrapFits r m) = true →
          ∃ u : State, exec (.keyUnwrap q c) s = .next u.flow ∧ u.endedWith q c .ok ∧
            (∃ x, u.slot? j.domain h = some x ∧ x.newKey = some m) ∧
            ∀ j', u.job? q c = some j' → j'.pairBoth = (newer.isSome && older.isSome) ∧ j'.pairOld = (newer.isNone && older.isSome)) ∧
        ((s.targetOpen j.domain h = false ∨ (s.recOf j.domain h).any (fun r => unwrapFits r m) = false) →
          exec (.keyUnwrap q c) s = .next (s.endJob q c .keyDenied).flow)) ∧
      (newer.or older = none ∨ j.mainKey true = none → exec (.keyUnwrap q c) s = .next (s.endJob q c .authFail).flow))

/-- The public-key sub-operations of 0x60 (R249, R253 to R273, R283) and the signing of a 0x70 (R282, R314): in its delivering step an operation's result is what the sub-operation computes from its image, its key and its draw; one whose check before release fails is not used, and its sequencer is suspended; a further budget is left to CANDIDATE_BUDGET_EXHAUSTED. A signed statement ends TIME_UNTRUSTED when its untrusted flag is set. Model's readings it rests on: notes/assumptions/1, 2, 24 and 27. -/
def Obligations.PublicKeyResults : Prop :=
  (∀ (q : Nat) (c : BitVec 17) (s : State) (i : Nat) (o : Op) (j : Job),
    ∀ p ∈ [(0x01, Instr.rsaPrivate), (0x02, .rsaPublic), (0x10, .ecdsaSign), (0x11, .ecdsaVerify), (0x12, .ecdh),
        (0x13, .keyGeneration), (0x20, .eddsaSign), (0x21, .eddsaVerify), (0x24, .x25519), (0x30, .mlKemKeyGeneration),
        (0x31, .mlKemEncapsulation), (0x32, .mlKemDecapsulation), (0x38, .mlDsaKeyGeneration), (0x39, .mlDsaSign),
        (0x3A, .mlDsaVerify), (0x40, .curveLoad)],
      s.opOf q c 0x60 p.1 = some (i, o, j) → exec (p.2 q c) s = .next (match s.pkRun j o.draw o.budgets with
        | none => s
        | some r =>
          if r.bad then (s.failOp i).suspendSeq i
          else s.setOp i (some { o with result := some (r.status, r.result), secret := r.secret }))) ∧
  (∀ (s : State) (j : Job) (draw budgets : Nat), eSub j.entry ≠ 0x39 → (s.pkRun j draw budgets).isSome = true) ∧
  (∀ (q : Nat) (c : BitVec 17) (s : State) (i : Nat) (o : Op) (j : Job) (stmt : Bytes),
    s.opOf q c 0x70 0 = some (i, o, j) → j.pk = some stmt →
    exec (.timeStatementRequest q c) s = .next (s.setOp i (some { o with result := some (match
        signStatement (s.lovage.attKey.getD 0) stmt o.draw with
      | some b => (if (byteAt stmt 6).getLsbD 0 then .timeUntrusted else .ok, b)
      | none => (.aborted, [])) })))

/-! ## Secure time -/

/-- The control jobs of Q1 (R299, R289), FENCE and NO_OP (R130): ADJUST outside FW mode is UNSUPPORTED, a STEP to a time outside the counter's range is MALFORMED and another one replaces the pending step, a SAMPLE is not used while a step is pending; every other accepted change waits for the next boundary; a key entry takes effect once its keys are there and suit it. Model's readings it rests on: notes/assumptions/28, 72 and 73. -/
def Obligations.ControlJobs : Prop :=
  (∀ (c : BitVec 17) (s : State) (j : Job), s.controlJob c 0x01 = some j →
    exec (.adjust c) s = .next (if s.sage.modeSoon = .fw then
      s.controlDone c (.adjust (fieldInt j.image 8 8) (BitVec.ofNat 32 (fieldLe j.image 16 4)))
    else (s.endJob 1 c .unsupported).flow)) ∧
  (∀ (c : BitVec 17) (s : State) (j : Job), s.controlJob c 0x02 = some j →
    exec (.step c) s = .next (match (stepTarget j.image).time s.sage.now with
      | none => (s.endJob 1 c .malformed).flow
      | some v =>
        let p : PendingStep := { target := stepTarget j.image, eStep := some (BitVec.ofNat 32 (fieldLe j.image 20 4)) }
        if endTime ≤ v then (s.endJob 1 c .malformed).flow
        else ((s.setSage fun g => { g with pendingStep := some p }).endJob 1 c .ok).flow)) ∧
  (∀ (c : BitVec 17) (s : State) (j : Job), s.controlJob c 0x03 = some j →
    exec (.sample c) s = .next (if s.sage.pendingStep.isSome then (s.endJob 1 c .ok).flow else
      s.controlDone c (.sample (fieldInt j.image 8 8) (BitVec.ofNat 32 (fieldLe j.image 16 4)) (BitVec.ofNat 32 (fieldLe j.image 20 4))
        (sub j.image 24 8)))) ∧
  (∀ (c : BitVec 17) (s : State) (j : Job), s.controlJob c 0x04 = some j →
    exec (.modeSelect c) s = .next (s.controlDone c (.servoMode (servoModeOf (byteAt j.image 4).toNat)))) ∧
  (∀ (c : BitVec 17) (s : State) (j : Job), s.controlJob c 0x06 = some j →
    exec (.utc c) s = .next (s.controlDone c (.utc (BitVec.ofNat 16 (fieldLe j.image 8 2)) (byteAt j.image 10)
      (BitVec.ofNat 48 (fieldLe j.image 12 6))))) ∧
  (∀ (c : BitVec 17) (s : State) (j : Job), s.controlJob c 0x05 = some j →
    (timeKeyOf j.image = none → exec (.keyEntry c) s = .next (s.controlDone c (.keyEntry (byteAt j.image 4).toNat none))) ∧
    (∀ k, timeKeyOf j.image = some k →
      (s.sage.keyClash k = true → exec (.keyEntry c) s = .next (s.endJob 1 c .malformed).flow) ∧
      (s.sage.keyClash k = false → ∀ u r, s.lookKeys j k.handles = (u, r) → exec (.keyEntry c) s = .next (
        if r = .wait then u.flow
        else if r = .ok ∧ (k.handles.all fun h => (u.recOf j.domain h).any k.suits) = true then
          u.controlDone c (.keyEntry (byteAt j.image 4).toNat (some k))
        else (u.endJob 1 c .keyDenied).flow)))) ∧
  (∀ (q : Nat) (c : BitVec 17) (s : State) (j : Job), q ≠ 0 → s.job? q c = some j → eOp j.entry = 0x7F → j.phase = .command →
    (bit (eSub j.entry) 0 = true → exec (.fence q c) s = .next (s.endJob q c .ok).flow) ∧
    (bit (eSub j.entry) 0 = false → exec (.noOp q c) s = .next (s.endJob q c .ok).flow)) ∧
  (∀ (c : BitVec 17) (s : State) (x : TimeChange),
    s.controlDone c x = ((s.setSage fun g => { g with waiting := g.waiting ++ [x] }).endJob 1 c .ok).flow)

/-- The authentication pipeline (R302 to R308): PIPELINE_START takes the oldest staged message, with its entry and launch time, or with the status of the check that it fails; PIPELINE_HANDOVER, four ticks later, hands an egress message over at its launch time, or ends the job with the message's status, MALFORMED when the destination of a 0x04 or a 0x05 cannot hold what it gives (R116, R135, notes/assumptions/106), RESOURCE_BUSY when the link refuses it, after the header and the first data word (R469), ABORTED when a counter swap has abandoned it; a verdict that fails sends the job back. The IV rule of R302: a key's 65,536th generation is KEY_EXHAUSTED, and a sequence number other than the last plus one is KEY_DENIED. Model's readings it rests on: notes/assumptions/40 and 74. -/
def Obligations.PipelineRule : Prop :=
  (∀ (c : BitVec 17) (s : State) (j : Job), s.startable c = some j →
    (∀ st, s.pipeNeeds j = .error st → exec (.pipelineStart c) s = .next (s.startFailed j st) ∧
      ∃ m ∈ (s.startFailed j st).sage.pipe, m.count = j.count ∧ m.start = s.thyme.tick ∧ m.result = some (st, [])) ∧
    (∀ n u r, s.pipeNeeds j = .ok n → s.lookKeys j n.handles = (u, r) → exec (.pipelineStart c) s = .next (match r with
      | .wait => u.flow
      | .fail _ => u.startFailed j .keyDenied
      | .ok => if j.charged || u.usesKnown j.domain n.handles then u.startChecked j n else u.flow))) ∧
  (∀ (c : BitVec 17) (refused ok : Bool) (s : State) (m : PipeMsg) (j : Job) (st : Status) (out : Bytes),
    s.sage.pipe.find? (·.count == c) = some m → m.start + 4 ≤ s.thyme.tick → s.job? 1 c = some j → j.status = none →
    m.result = some (st, out) →
    let misfit : Prop := (eSub j.entry = 0x04 ∨ eSub j.entry = 0x05) ∧ (st = .ok ∨ out ≠ []) ∧ j.dstFits out.length = false
    ∃ u : State, exec (.pipelineHandover c refused ok) s = .next u.flow ∧ (∀ x ∈ u.sage.pipe, x.count ≠ c) ∧
      (m.abandoned = true → u.endedWith 1 c .aborted) ∧
      (m.abandoned = false → ok = false → ∃ j', u.job? 1 c = some j' ∧ j'.phase = .command ∧ j'.retried = true ∧ j'.status = none) ∧
      (m.abandoned = false → ok = true → misfit → u.endedWith 1 c .malformed) ∧
      (m.abandoned = false → ok = true → ¬misfit → st ≠ .ok → u.endedWith 1 c st) ∧
      (m.abandoned = false → ok = true → ¬misfit → st = .ok → isEgress (eSub j.entry) = true → refused = true →
        u.endedWith 1 c .resourceBusy ∧ Output.handoverRefused (j.timeByte 0 % 16) (m.launch.getD 0) (out.take 32) ∈ u.outbox) ∧
      (m.abandoned = false → ok = true → ¬misfit → st = .ok → (isEgress (eSub j.entry) = true → refused = false) → u.endedWith 1 c .ok ∧
        (isEgress (eSub j.entry) = true → Output.handover (j.timeByte 0 % 16) (m.launch.getD 0) out ∈ u.outbox))) ∧
  (∀ (k : TimeKey) (b : Bytes),
    let t := bits (byteAt b 0).toNat 3 0
    let n : BitVec 16 := BitVec.ofNat 16 (beNat (sub b 30 2))
    (65535 ≤ k.generations → gmacNext k b = .error .keyExhausted) ∧
    (k.generations < 65535 → (∃ v, k.lastSeq.lookup t = some v ∧ n ≠ v + 1) → gmacNext k b = .error .keyDenied) ∧
    (k.generations < 65535 → (∀ v, k.lastSeq.lookup t = some v → n = v + 1) →
      gmacNext k b = .ok { k with lastSeq := assocSet k.lastSeq t n, generations := k.generations + 1 }))

/-- What each message of the pipeline forms (R305 to R307): a PTP egress message with its timestamps and ICV, a PTP ingress verdict, a client request with its transmit timestamp, nonce and tag, a client response's plaintext or as many zeros with AUTH_FAIL, and a server response with its new cookie; NTP times are under the utc_offset of T0. Model's readings it rests on: notes/assumptions/37, 38 and 39. -/
def Obligations.MessagesFormed : Prop :=
  (∀ (c : BitVec 17) (s : State) (j : Job) (m : PipeMsg), s.inPipe c 0x01 = some (j, m) →
    let b := ptpStamp (j.timeByte 1) m.launch16 (timeOf (sub (eTimeParam j.entry) 4 12) / 2 ^ 24) j.message
    (b = none → exec (.ptpEgress c) s = .next (s.formed c .malformed [])) ∧
    (∀ x, b = some x →
      (∀ k icv id, m.entry = some k → ptpForm x = .auth icv id →
        exec (.ptpEgress c) s = .next (s.formed c .ok (putAt x icv (s.icvOf j k x icv)))) ∧
      (m.entry = none → exec (.ptpEgress c) s = .next (s.formed c .ok x)))) ∧
  (∀ (c : BitVec 17) (s : State) (j : Job) (m : PipeMsg), s.inPipe c 0x02 = some (j, m) →
    (∀ k icv id, m.entry = some k → ptpForm j.message = .auth icv id → exec (.ptpIngressVerify c) s =
      .next (s.formed c (if s.icvOf j k j.message icv = sub j.message icv 16 then .ok else .authFail) [])) ∧
    (m.entry = none → exec (.ptpIngressVerify c) s = .next (s.formed c .keyDenied []))) ∧
  (∀ (c : BitVec 17) (s : State) (j : Job) (m : PipeMsg), s.inPipe c 0x03 = some (j, m) →
    ∀ u n, s.nextNonce j.domain = (u, n) → exec (.ntsClientRequest c) s = .next (match n with
      | none => u.formed c .resourceBusy []
      | some n =>
        let b := putAt j.message 40 (ntpTime m.launch16 m.utc)
        u.formed c .ok (b ++ n ++ sivSeal (u.entryKey j m.entry) (requestAad b) n []))) ∧
  (∀ (c : BitVec 17) (s : State) (j : Job) (m : PipeMsg) (k : TimeKey), s.inPipe c 0x04 = some (j, m) → m.entry = some k →
    exec (.ntsClientResponseVerify c) s = .next (match ntsAuth j.message with
      | none => s.formed c .authFail []
      | some a => match sivOpen (s.matOf j.domain k.handle2) (j.message.take a.off) a.nonce a.ct with
        | some p => s.formed c .ok p
        | none => s.formed c .authFail (Machine.zeros (a.ct.length - 16)))) ∧
  (∀ (c : BitVec 17) (s : State) (j : Job) (m : PipeMsg), s.inPipe c 0x05 = some (j, m) →
    exec (.ntsServerExchange c) s = .next (match openRequest (s.entryKey j m.entry) j.exchange.1 with
      | none => s.formed c .authFail []
      | some (c2s, s2c, uid) => match s.nextNonce j.domain with
        | (u, none) => u.formed c .resourceBusy []
        | (u, some n1) => match u.nextNonce j.domain with
          | (v, none) => v.formed c .resourceBusy []
          | (v, some n2) =>
            let cookie := sealCookie ((m.sealer.map (·.keyId)).getD 0) (v.entryKey j m.sealer) n1 c2s s2c
            let received := timeOf (sub (eTimeParam j.entry) 4 12) / 2 ^ 24
            let aad := putAt (putAt j.exchange.2 32 (ntpTime received m.utc)) 40 (ntpTime m.launch16 m.utc) ++ uid
            v.formed c .ok (aad ++ authField n2 (sivSeal s2c aad n2 (beBytes 2 0x0204 ++ beBytes 2 108 ++ cookie))))) ∧
  (∀ (c : BitVec 17) (s : State) (st : Status) (out : Bytes), ∀ x ∈ (s.formed c st out).sage.pipe, x.count = c → x.result = some (st, out))

/-- SAGE's own events (R34, R288 to R290, R292, R296, R299, R311, R312, R497): HOLDOVER_ENTRY puts the servo in HOLDOVER after SG_HOLD_AFTER ticks without an input, and the addend follows the model from that boundary on; a temperature sample is taken every 65,536 ticks and summed; STEP_APPLIED sets the counter to the step's target, takes the tick number from it, and begins a short tick when the target is off the 160 ns grid; the initial time is honoured in Start-up test for a target in range, in its turn at the port (R477); a leap second moves utc_offset by one; a repaired counter returns after 65,536 agreeing ticks. Model's readings it rests on: notes/assumptions/43 and 73. -/
def Obligations.SageRule : Prop :=
  (∀ (s : State) (n : Nat), s.mode.timeOn = true → s.mode.steps.s1 = true → s.sage.servoState ≠ .freerun → s.sage.servoState ≠ .holdover →
    s.sage.sinceInput = some n → s.sg 0x18 ≤ n →
    ∃ t : State, exec .holdoverEntry s = .next t ∧ t.sage.servoState = .holdover ∧ t.sage.now = s.sage.now ∧ t.thyme.tick = s.thyme.tick ∧
      t.sage.adjNext = none ∧
      t.sage.adj = clampInt adjLimit (adjOf (if s.sage.model.isSet then s.sage.model.fNeed s.sage.theta else s.sage.freq))) ∧
  (∀ (theta : Int) (s : State), s.mode.timeOn = true → s.mode.steps.s1 = true →
    (s.sage.sampleIn ≠ 0 → exec (.temperatureSample theta) s = .next s) ∧
    (s.sage.sampleIn = 0 → ∃ t : State, exec (.temperatureSample theta) s = .next t ∧ t.sage.theta = theta ∧
      t.sage.thetaSum = s.sage.thetaSum + theta ∧ t.sage.thetaCnt = s.sage.thetaCnt + 1 ∧ t.sage.sampleIn = 65536 ∧
      t.sage.adjNext = if s.sage.servoState = .holdover then some (clampInt adjLimit (adjOf (s.sage.model.fNeed theta)))
        else s.sage.adjNext)) ∧
  (∀ (s : State) (p : PendingStep), s.sage.pendingStep = some p → s.stepFits = true →
    ∃ t : State, exec .stepApplied s = .next t ∧ t.sage.pendingStep = none ∧
      (∀ v, p.target.time s.sage.now = some v → v < endTime → t.sage.now = v ∧ t.thyme.tick = v / tickUnit ∧
        t.thyme.epoch = v / tickUnit / 65536 ∧ (t.thyme.short = true ↔ v % tickUnit ≠ 0) ∧
        (∀ e, p.eStep = some e → t.sage.eServo = e)) ∧
      ((∀ v, p.target.time s.sage.now = some v → endTime ≤ v) → t.sage.now = s.sage.now ∧ t.thyme.tick = s.thyme.tick)) ∧
  (∀ (src : From) (s : State), s.unitWrite src = true → s.mode.mode = .startup →
    let ns := s.regSoon 0x70010
    let v := (s.regSoon 0x70008 * 1000000000 + ns) * nsUnit
    let p : PendingStep := { target := .absolute v, eStep := none }
    (s.dill.rp.held = [] →
      exec (.sgInitLoad src) s = .next (if ns < 1000000000 ∧ v < endTime then s.setSage fun g => { g with pendingStep := some p } else s)) ∧
    (s.dill.rp.held ≠ [] → exec (.sgInitLoad src) s = .next (s.holdAccess (.write src 0x70014 4 1)))) ∧
  (∀ s : State, s.mode.timeOn = true → s.mode.steps.s1 = true → s.sage.leap ≠ 0 →
    s.sage.leapAt.toNat * 1000000000 * nsUnit ≤ s.sage.now →
    exec .leap s = .next (s.setSage fun g => { g with
      utcOffset := if g.leap = 1 then g.utcOffset + 1 else g.utcOffset - 1, leap := 0 })) ∧
  (∀ (b : Bool) (s : State), s.mode.timeOn = true → s.mode.steps.s1 = true → (s.sage.counter b).failed = true →
    (s.sage.counter b).retired = false → 65536 ≤ (s.sage.counter b).agreed →
    ∃ t : State, exec (.counterReturn b) s = .next t ∧ t.sage.counter b = { s.sage.counter b with failed := false, agreed := 0 } ∧
      t.sage.counter (!b) = s.sage.counter (!b))

/-- Timestamps and PPS outputs (R293 to R295, R309): an enabled channel of a well-formed ring writes the record of Table 9.2 at its ring position, unless the host link of Q1's owner is down (R111), and its sequence advances; an ill-formed one posts a channel configuration event; a disabled one does nothing; a PPS edge is stamped on its channel and, in its servo mode, is the servo's input; an output edge stands where the counter reaches a whole second plus SG_PPSOFFn, w after the start of the tick in which it falls, and its pulse lasts its width in ticks. Model's readings it rests on: notes/assumptions/73. -/
def Obligations.TimestampRule : Prop :=
  (∀ (ch : Nat) (x : Strobe) (s : State), ch < 16 → s.mode.timeOn = true → s.mode.steps.s1 = true → s.inAlarm = false →
    (s.channelOn ch = false → exec (.timestampStrobe ch x) s = .next s) ∧
    (s.channelOn ch = true → s.channelOk ch = false → exec (.timestampStrobe ch x) s = .next (s.event 0 0x24 2 ch [])) ∧
    (s.channelOn ch = true → s.channelOk ch = true →
      let seq := nth s.sage.chSeq ch 0
      let at' := s.channelReg ch 0x10 % 2 ^ 52 + seq.toNat % 2 ^ bits (s.channelReg ch 0) 3 0 * 32
      let u := s.setSage fun g => { g with chSeq := g.chSeq.set ch (seq + 1) }
      exec (.timestampStrobe ch x) s = .next (if s.portsRun = true ∧ s.linkOff s.q1Owner = false then (u.issue .write .metadata (bits (s.sg 0) 8 0) at' 32
        (s.stampRecord ch x (s.stampOf ch x)) fun _ => .stamp ch).sendAll else u))) ∧
  (∀ (n : Nat) (x : Strobe) (s u : State) (ts : Option Nat), n < 2 → s.mode.mode ≠ .lightSleep → s.stamp (16 + n) x = (u, ts) →
    exec (.ppsInputEdge n x) s = .next (match ts with
      | some ts => if u.sage.servoMode = (if n = 0 then .pps0 else .pps1) then u.acceptInput (ppsOffset ts) (ppsOffset ts).natAbs none else u
      | none => u)) ∧
  (∀ (n w : Nat) (s : State), n < 2 → s.mode.timeOn = true → s.mode.steps.s1 = true → bit (s.sg (0x40 + 8 * n)) 31 = true →
    (∀ v : Nat, v = s.sg (0x44 + 8 * n) → let off : Int := if v < 2 ^ 31 then (v : Int) else (v : Int) - 2 ^ 32
      ((s.sage.now + w : Nat) : Int) % (1000000000 * nsUnit : Nat) = (off % 1000000000) * (nsUnit : Nat)) →
    w < s.sage.nextEdge - s.sage.now → w < 1000000000 * nsUnit → ∃ t : State, exec (.ppsOutputEdge n) s = .next t ∧
      t.outbox = s.outbox ++ [.pps n (16 * w / s.sage.addend)] ∧
      (if n = 0 then t.sage.ppsEnd0 else t.sage.ppsEnd1) = some (s.thyme.tick + bits (s.sg (0x40 + 8 * n)) 22 0))

/-! ## Events, the dirty log and mailboxes -/

/-- EVENT_WRITE and EVENT_TIMEOUT (R362 to R365), HEAD_WORD_READ (R365) and EVENT_WRITE_RESPONSE (R368): a write takes the gap marker and then staged records, advances the count by what it takes and leaves the rest staged; the head word that has been read is kept; the response of a write that asks for an interrupt requests one, at most one in a tick. Model's readings it rests on: notes/assumptions/71. -/
def Obligations.EventRule : Prop :=
  (∀ (d : Nat) (s : State) (q : EventQ), s.evq? d = some q → s.eventsOpen q = true →
    let c := q.count.toNat
    let g := if q.gap = 0 then 0 else 1
    let p := takeEvents q.staged.length (4 - c % 4) q.freePos g false q.staged
    let n := g + (eventList p.1 (c + g)).length
    ∀ i ∈ [(Instr.eventWrite d, q.starts), (.eventTimeout d, q.timedOut s.thyme.tick)], i.2 = true →
      (n = 0 → exec i.1 s = .next s) ∧
      (n ≠ 0 → ∃ t : State, exec i.1 s = .next t ∧ ∃ q', t.evq? d = some q' ∧
        q'.count = q.count + BitVec.ofNat 16 n ∧ q'.gap = 0 ∧ q'.staged = p.2 ∧ t.eventsOut d = true)) ∧
  (∀ (d : Nat) (w : BitVec 64) (s : State) (t : Txn),
    s.txns.find? (fun t => t.purpose == .headWord d && t.tag.isSome) = some t → t.dead = false →
    exec (.headWordRead d w) s = .next (((s.endTxn t.port (t.tag.getD 0)).setEvq d fun q => { q with headWord := w.setWidth 16 }).sendAll)) ∧
  (∀ (port tag : Nat) (s : State) (t : Txn) (d c n : Nat) (i : Bool), s.txn? port tag = some t → t.purpose = .events d c n i → t.dead = false →
    let u := (s.endTxn port tag).logTxn t
    exec (.eventWriteResponse port tag) s = .next (if i = true ∧ u.eventsOut d = false then (u.eventInt d).sendAll else u.sendAll) ∧
    (∀ q, u.evq? d = some q → u.linkOff d = false → (u.eventInt d).outbox =
      if q.lastInt = some s.thyme.tick then u.outbox else u.outbox ++ [.irq (if u.isHost d then .p0 else .p3) d q.vector]))

/-- DIRTY_LOG_RECORD_WRITE (R333, R334), OVERFLOW_CLEAR (R334) and STOPPED (R335): the oldest closed run is written at the ring's tail and the tail advances; a full ring drops it and every other with overflow; the manager clears overflow, and runs are recorded again from the next tick; a STOPPING domain with nothing left writes its marker, and once that is confirmed it is STOPPED under the next stop_seq. Model's readings it rests on: notes/assumptions/76. -/
def Obligations.MigrationRule : Prop :=
  (∀ (d : Nat) (s : State) (x : Domain) (a n : Nat) (rs : List (Nat × Nat)), s.domain? d = some x → x.mig.closed = (a, n) :: rs →
    let m := { x.mig with closed := rs, ending := x.mig.ending && !rs.isEmpty }
    ∃ t : State, exec (.dirtyLogRecordWrite d) s = .next t ∧
      (x.mig.overflow = true → t.domainNow d (fun y => y.mig = m)) ∧
      (x.mig.overflow = false → x.mig.full = true → t.domainNow d (fun y => y.mig = { m with overflow := true, overflowed := true, closed := [] })) ∧
      (x.mig.overflow = false → x.mig.full = false → t.domainNow d (fun y => y.mig = { m with tail := m.tail + 1 }) ∧
        ∃ w ∈ t.txns, w.purpose = .dirty d ∧ w.iova = (m.base + 8 * (m.tail.toNat % m.ring)) % 2 ^ 52 ∧ w.op = .write)) ∧
  (∀ (src : From) (page : Nat) (s : State) (x : Domain), s.pagesOpen = true → s.eventHold src.domain = false → page ≠ 0 →
    src.port ≠ .p1 → src.domain = 0 → s.resetting 0 = false → s.domain? page = some x →
    let u := (s.setDomain page fun x => { x with mig := { x.mig with overflow := false, paused := true } }).addChange (.resumeLog page)
    exec (.overflowClear src page) s = .next (if x.mig.overflow then u else s).flow ∧
      ∃ y, (u.applyChange (.resumeLog page)).domain? page = some y ∧ y.mig = { x.mig with overflow := false, paused := false }) ∧
  (∀ (d : Nat) (s : State) (x : Domain), s.domain? d = some x → s.stopReady x = true →
    (x.mig.marker = .none → ∃ t : State, exec (.stopped d) s = .next t ∧
      t.domainNow d (fun y => (x.mig.full = true → y.mig.overflow = true ∧ y.mig.marker = .none) ∧ (x.mig.full = false → y.mig.marker = .issued))) ∧
    (x.mig.marker = .issued → exec (.stopped d) s = .next s) ∧
    (x.mig.marker = .confirmed → ∃ t : State, exec (.stopped d) s = .next t ∧ t.still = (s.setDomain d fun y => { y with mig := { y.mig with
      state := .stopped, stopSeq := x.mig.stopSeq + 1, marker := .none } }).still))

/-- Mailbox pages (R322 to R325, R329, R336). A post into a free area of an enabled mailbox, 1 to 1,024 bytes long, fills it, and a tenant's takes its domain out of STOPPED; any other post is discarded with the sender's error bit. An ack empties a full area, and of an empty one sets the acker's error bit. MB_CTL disables, enables an idle disabled mailbox, and refuses else. An area write lands whole in an area that is not full. A write by another domain than the field's writer changes nothing but an event. Model's readings it rests on: notes/assumptions/75. -/
def Obligations.MailboxRule : Prop :=
  ∀ (src : From) (page : Nat) (s : State) (x : Domain),
    s.pagesOpen = true → s.eventHold src.domain = false → s.writeHeld src.domain = false → s.domain? page = some x →
    let tenant : Prop := page ≠ 0 ∧ src.port ≠ .p1 ∧ src.domain = page ∧ s.resetting page = false
    let manager : Prop := page ≠ 0 ∧ src.port ≠ .p1 ∧ src.domain = 0 ∧ s.resetting 0 = false
    let is (c : Instr) (u : State) : Prop := ∃ t : State, exec c s = .next t ∧ t.still = u.still
    let m := x.mailbox
    let put := s.setMailbox page
    (∀ w : BitVec 32,
      let tag : BitVec 16 := BitVec.ofNat 16 (w.toNat / 65536)
      let len : BitVec 11 := w.setWidth 11
      let good : Prop := m.enabled = true ∧ 1 ≤ len.toNat ∧ len.toNat ≤ 1024
      (tenant → (good ∧ m.t2mFull = false → is (.mbT2mDb src page w) ((put (·.setFull .tenant true tag len)).reenter page)) ∧
        (¬(good ∧ m.t2mFull = false) → is (.mbT2mDb src page w) (put fun m => { m with t2mErr := true }))) ∧
      (manager → (good ∧ m.m2tFull = false → is (.mbM2tDb src page w) (put (·.setFull .manager true tag len))) ∧
        (¬(good ∧ m.m2tFull = false) → is (.mbM2tDb src page w) (put fun m => { m with m2tErr := true }))) ∧
      (manager →
        (w.getLsbD 0 = false → is (.mailboxDisable src page w) (put fun m => { m with
          enabled := false, disabling := m.t2mFull || m.m2tFull })) ∧
        (w.getLsbD 0 = true → is (.mailboxDisable src page w) (put fun m => { m with m2tErr := true })) ∧
        (w.getLsbD 1 = false → is (.mailboxEnable src page w)
          (if m.t2mFull = false ∧ m.m2tFull = false ∧ m.enabled = false ∧ m.disabling = false then put fun m => { m with enabled := true }
           else put fun m => { m with m2tErr := true })) ∧
        (w.getLsbD 1 = true → is (.mailboxEnable src page w) (put fun m => { m with m2tErr := true })))) ∧
    (manager → is (.t2mAck src page) (if m.t2mFull = true then put fun m => (m.setFull .tenant false 0 0).settled
      else put fun m => { m with m2tErr := true })) ∧
    (tenant → is (.m2tAck src page) (if m.m2tFull = true then put fun m => (m.setFull .manager false 0 0).settled
      else put fun m => { m with t2mErr := true })) ∧
    (∀ (off : Nat) (data : Bytes),
      (tenant → off + data.length ≤ 0x400 → is (.mailboxAreaWrite src page off data) (if m.t2mFull = true then put fun m => { m with t2mErr := true }
        else put fun m => { m with area := memWrite m.area off data })) ∧
      (manager → 0x400 < off + data.length → 0x400 ≤ off → off + data.length ≤ 0x800 → is (.mailboxAreaWrite src page off data)
        (if m.m2tFull = true then put fun m => { m with m2tErr := true } else put fun m => { m with area := memWrite m.area off data })) ∧
      ((off < 0x400 ∧ 0x400 < off + data.length) ∨ 0x800 < off + data.length → is (.mailboxAreaWrite src page off data) s)) ∧
    (src.domain ≠ page → ∀ w, is (.mbT2mDb src page w) s ∧ is (.m2tAck src page) s) ∧
    (src.domain ≠ 0 → ∀ w, is (.mbM2tDb src page w) s ∧ is (.t2mAck src page) s ∧ is (.mailboxDisable src page w) s ∧
      is (.mailboxEnable src page w) s ∧ is (.overflowClear src page) s)

/-! ## Administration -/

/-- Identify, Get Log Page and Get Features (R357 to R360, R337, R349): the entry's data buffer takes the Identify data, or the settings, and the entry ends OK once it is written, its byte count being that of the writes that have returned; a Get Log Page is taken, and at the start of the next tick the asked part of its page, as it stands then, is written the same way. A target or a queue that does not exist is MALFORMED, with the offset of its field. Model's readings it rests on: notes/assumptions/41 and 77. -/
def Obligations.AdminReads : Prop :=
  (∀ (c : BitVec 17) (s : State) (j : Job),
    s.job? 0 c = some j → j.phase = .command → j.status = none → s.plansRun = true →
    let op := eOp j.entry
    let sub' := eSub j.entry
    (op = 0x01 → sub' = 0 → exec (.identify c) s = .next (s.adminWrite j s.identify 0 0).flow) ∧
    (op = 0x02 → ∀ p ∈ [(1, Instr.getLogDeferredError c), (2, .getLogPlan c), (4, .getLogSelfTest c)], sub' = p.1 →
      exec p.2 s = .next (s.askPage c).flow) ∧
    (op = 0x02 → sub' = 3 →
      ((s.domain? j.target).isSome = true → exec (.getLogMigrationState c) s = .next (s.askPage c).flow) ∧
      (s.domain? j.target = none → exec (.getLogMigrationState c) s = .next (s.adminFail c .malformed 24).flow)) ∧
    (op = 0x02 → s.admin.page = some c →
      let u : State := { s with admin := { s.admin with page := none } }
      let writes (v : State) (page : Bytes) : Prop :=
        s.pageDue = v.adminWrite j (Machine.sub (padTo (pageSize sub') page) (fieldLe j.entry 32 4) (eLen j.entry)) (pageSize sub') s.thyme.tick
      (sub' = 1 →
        let es := s.admin.defLog.filter (·.domain == j.target)
        let ids := (writtenEntries es (fieldLe j.entry 32 4) (eLen j.entry)).map (·.load.toNat)
        s.pageDue = (u.setJob 0 c fun j => { j with deliveredIdx := ids }).adminWrite j (Machine.sub (padTo (pageSize 1)
          (leBytes 2 es.length ++ Machine.zeros 2 ++ leBytes 4 s.admin.defLost.toNat ++ Machine.zeros 8 ++ es.flatMap DefErr.bytes))
          (fieldLe j.entry 32 4) (eLen j.entry)) (pageSize 1) s.thyme.tick) ∧
      (sub' = 2 → writes u s.planPage) ∧
      (sub' = 3 → ∀ x, s.domain? j.target = some x → writes u (s.migrationPage x)) ∧
      (sub' = 4 → writes u (leBytes 2 s.sorrel.testLog.length ++ Machine.zeros 14 ++ s.sorrel.testLog.flatMap TestLogEntry.bytes))) ∧
    (op = 0x03 → sub' = 1 → ∀ d, s.domain? j.target = some d →
      (∀ x, s.queue? (fieldLe j.entry 32 2) = some x → x.domain = j.target → exec (.getFeaturesInterruptCoalescing c) s =
        .next (s.adminWrite j (padTo 32 (leBytes 2 x.num ++ leBytes 1 (genNum x.gen) ++ leBytes 1 x.n ++ leBytes 2 x.vector.toNat
          ++ leBytes 1 x.coalCount.toNat ++ leBytes 1 (if x.urgent then 1 else 0) ++ leBytes 2 x.coalTicks.toNat)) 0 0).flow) ∧
      ((∀ x, s.queue? (fieldLe j.entry 32 2) = some x → x.domain ≠ j.target) →
        exec (.getFeaturesInterruptCoalescing c) s = .next (s.adminFail c .malformed 32).flow)) ∧
    (op = 0x03 → sub' = 2 → ∀ x q, s.domain? j.target = some x → s.evq? x.num = some q → exec (.getFeaturesEventQueue c) s =
      .next (s.adminWrite j (padTo 32 (leBytes 8 q.base ++ leBytes 2 q.vector.toNat ++ leBytes 1 q.intPrio.toNat ++ [0]
        ++ leBytes 2 q.timeout.toNat ++ leBytes 1 q.hwm.toNat ++ leBytes 1 q.lwm.toNat)) 0 0).flow) ∧
    (op = 0x03 → sub' = 3 → ∀ x, s.domain? j.target = some x → exec (.getFeaturesMigrationControl c) s =
      .next (s.adminWrite j (padTo 32 ([0] ++ leBytes 1 (migNum x.mig.state) ++ Machine.zeros 6 ++ leBytes 4 x.mig.base
        ++ leBytes 4 x.mig.stopSeq.toNat ++ leBytes 1 x.mig.k)) 0 0).flow) ∧
    (op = 0x03 → s.domain? j.target = none → ∀ p ∈ [(1, Instr.getFeaturesInterruptCoalescing c), (2, .getFeaturesEventQueue c),
      (3, .getFeaturesMigrationControl c)], sub' = p.1 → exec p.2 s = .next (s.adminFail c .malformed 24).flow) ∧
    (∀ (data : Bytes) (r0 r1 : Nat), (s.adminWrite j data r0 r1).endedWith 0 c .ok ∧ (s.adminWrite j data r0 r1).still = s.still ∧
      ∃ j', (s.adminWrite j data r0 r1).job? 0 c = some j' ∧ j'.bytesDone = 0 ∧
        j'.result0 = BitVec.ofNat 64 r0 ∧ j'.result1 = BitVec.ofNat 64 r1)) ∧
  ∀ (port tag : Nat) (s : State) (t : Txn) (c : BitVec 17) (j : Job), s.txn? port tag = some t → t.op = .write →
    t.purpose = .result 0 c → t.dead = false → s.job? 0 c = some j → ∃ u : State, exec (.writeResponse port tag false) s = .next u.flow ∧
      ∃ j', u.job? 0 c = some j' ∧ j'.bytesDone = j.bytesDone + t.len

/-- Set Features (R349, R367) and Migration control (R331, R333, R335, R338, Table 10.6): accepted settings take effect at the next boundary; LOG_START begins logging from NORMAL, STOP from LOGGING, LOG_END from any other state than NORMAL, and RESTORE_COUNT sets the counts of an unused queue; domain 0 is never migrated; a target that does not exist is MALFORMED (R344); every other case is refused, and changes nothing. Model's readings it rests on: notes/assumptions/77 and 78. -/
def Obligations.AdminSettings : Prop :=
  (∀ (c : BitVec 17) (s : State) (j : Job), s.job? 0 c = some j → j.phase = .command → j.status = none → s.plansRun = true →
    eOp j.entry = 0x04 → s.domain? j.target = none → ∀ p ∈ [(1, 0, Instr.setFeaturesInterruptCoalescing c), (2, 0, .setFeaturesEventQueue c),
      (3, 1, .logStart c), (3, 2, .stop c), (3, 3, .logEnd c), (3, 4, .restoreCount c)], eSub j.entry = p.1 →
      (p.1 = 3 → (byteAt j.entry 32).toNat = p.2.1) → s.adminEnds p.2.2 c .malformed s) ∧
  ∀ (c : BitVec 17) (s : State) (j : Job) (x : Domain),
    s.job? 0 c = some j → j.phase = .command → j.status = none → s.plansRun = true → eOp j.entry = 0x04 → s.domain? j.target = some x →
    let e := j.entry
    let mig (m : Migration) : State := s.setDomain x.num fun x => { x with mig := m }
    (eSub e = 1 →
      (∀ q, s.queue? (fieldLe e 32 2) = some q → q.domain = j.target → s.adminEnds (.setFeaturesInterruptCoalescing c) c .ok
        (s.addChange (.interrupts q.num (BitVec.ofNat 16 (fieldLe e 36 2)) (byteAt e 38) (BitVec.ofNat 16 (fieldLe e 40 2))
          ((byteAt e 39).getLsbD 0)))) ∧
      ((∀ q, s.queue? (fieldLe e 32 2) = some q → q.domain ≠ j.target) →
        s.adminEnds (.setFeaturesInterruptCoalescing c) c .malformed s)) ∧
    (eSub e = 2 →
      (∀ ch, eventSettings x.num e 32 true = some ch → s.adminEnds (.setFeaturesEventQueue c) c .ok (s.addChange ch)) ∧
      (eventSettings x.num e 32 true = none → s.adminEnds (.setFeaturesEventQueue c) c .malformed s)) ∧
    (eSub e = 3 → x.num = 0 → ∀ p ∈ [(1, Instr.logStart c), (2, .stop c), (3, .logEnd c), (4, .restoreCount c)],
      (byteAt e 32).toNat = p.1 → s.adminEnds p.2 c .malformed s) ∧
    (eSub e = 3 → x.num ≠ 0 → (byteAt e 32).toNat = 1 →
      let base := fieldLe e 40 8
      let k := (byteAt e 48).toNat
      (s.q1Owner = x.num → s.adminEnds (.logStart c) c .unsupported s) ∧
      (s.q1Owner ≠ x.num → (base % 4096 ≠ 0 ∨ k < 8 ∨ 20 < k) → s.adminEnds (.logStart c) c .malformed s) ∧
      (s.q1Owner ≠ x.num → base % 4096 = 0 → 8 ≤ k → k ≤ 20 →
        let begun : Migration := { x.mig with
          state := .logging, base := base, k := k, head := 0, tail := 0, overflow := false, overflowed := false, paused := false, marker := .none,
          ending := false }
        (x.mig.state ≠ .normal → s.adminEnds (.logStart c) c .resourceBusy s) ∧
        (x.mig.state = .normal → s.adminEnds (.logStart c) c .ok (mig begun)))) ∧
    (eSub e = 3 → x.num ≠ 0 → (byteAt e 32).toNat = 2 →
      (x.mig.state = .logging → s.adminEnds (.stop c) c .ok (mig { x.mig with state := .stopping })) ∧
      (x.mig.state ≠ .logging → s.adminEnds (.stop c) c .resourceBusy s)) ∧
    (eSub e = 3 → x.num ≠ 0 → (byteAt e 32).toNat = 3 →
      (x.mig.state ≠ .normal → s.adminEnds (.logEnd c) c .ok (mig x.mig.logOff)) ∧
      (x.mig.state = .normal → s.adminEnds (.logEnd c) c .resourceBusy s)) ∧
    (eSub e = 3 → x.num ≠ 0 → (byteAt e 32).toNat = 4 →
      ((∀ q, s.queue? (fieldLe e 34 2) = some q → q.domain ≠ j.target) → s.adminEnds (.restoreCount c) c .malformed s) ∧
      (∀ q, s.queue? (fieldLe e 34 2) = some q → q.domain = j.target →
        let fresh : Prop := x.mig.state = .normal ∧ q.head = 0 ∧ q.tail = 0 ∧ q.used = false
        let n := BitVec.ofNat 17 (fieldLe e 36 4)
        (fresh → s.adminEnds (.restoreCount c) c .ok (s.setQueue q.num fun y => { y with head := n, tail := n, validated := n })) ∧
        (¬fresh → s.adminEnds (.restoreCount c) c .resourceBusy s)))

/-- Create Queue and Delete Queue (R74, R76, R108, R297, R346, R347): a queue of settings in range, of a number that is free and allowed, is there from the next boundary; an idle data queue or Q1 can be deleted. A target that does not exist is MALFORMED, whichever queue is named (R344). Every refusal changes nothing. Model's readings it rests on: notes/assumptions/77. -/
def Obligations.QueueAdmin : Prop :=
  (∀ (c : BitVec 17) (s : State) (j : Job), s.job? 0 c = some j → j.phase = .command → j.status = none → s.plansRun = true →
    s.domain? j.target = none → eSub j.entry = 0 → (eOp j.entry = 0x08 → s.adminEnds (.createQueue c) c .malformed s) ∧
      (eOp j.entry = 0x09 → s.adminEnds (.deleteQueue c) c .malformed s)) ∧
  ∀ (c : BitVec 17) (s : State) (j : Job) (x : Domain),
    s.job? 0 c = some j → j.phase = .command → j.status = none → s.plansRun = true → s.domain? j.target = some x →
    let e := j.entry
    let q := fieldLe e 32 2
    (eOp e = 0x08 → eSub e = 0 →
      let n := (byteAt e 35).toNat
      let base := fieldLe e 48 8
      (genOf (byteAt e 34).toNat = none → s.adminEnds (.createQueue c) c .malformed s) ∧
      (∀ g, genOf (byteAt e 34).toNat = some g →
        (n < 4 ∨ 16 < n → s.adminEnds (.createQueue c) c .malformed s) ∧
        (4 ≤ n → n ≤ 16 →
          let allowed : Prop := q ≠ 0 ∧ (q = 1 → bits (s.sg 0) 8 0 = x.num)
          (¬allowed → s.adminEnds (.createQueue c) c .unsupported s) ∧
          (allowed → (s.soon.queue? q).isSome = true → s.adminEnds (.createQueue c) c .resourceBusy s) ∧
          (allowed → s.soon.queue? q = none →
            let ok : Prop := (q = 1 → g = .c) ∧ base ≠ 0 ∧ base % 4096 = 0 ∧ base + 2 ^ n * g.size ≤ 2 ^ 52
            (ok → s.adminEnds (.createQueue c) c .ok (s.addChange (.addQueue (newQueue q x.num g n base e)))) ∧
            (¬ok → s.adminEnds (.createQueue c) c .malformed s))))) ∧
    (eOp e = 0x09 → eSub e = 0 →
      (q = 0 → s.adminEnds (.deleteQueue c) c .unsupported s) ∧
      (q ≠ 0 → (∀ y, s.queue? q = some y → y.domain ≠ j.target) → s.adminEnds (.deleteQueue c) c .malformed s) ∧
      (q ≠ 0 → ∀ y, s.queue? q = some y → y.domain = j.target →
        (y.idle = false → s.adminEnds (.deleteQueue c) c .resourceBusy s) ∧
        (y.idle = true → s.adminEnds (.deleteQueue c) c .ok (s.deleteQueue q) ∧ (s.deleteQueue q).queue? q = none)))

/-- The domain commands (R317 to R321, R327, R345, R348): a domain of settings in range, of a free number, that the plan admits and whose slots fit, is there from the next boundary with its plan staged for the epoch that the entry reports; a resize takes effect whole or not at all, and a domain that holds a saved context record is not resized (Table 10.2); a reset starts in its own tick and the entry waits for its end; domain 0 is neither created, reset nor deleted. Model's readings it rests on: notes/assumptions/78. -/
def Obligations.DomainAdmin : Prop :=
  ∀ (c : BitVec 17) (s : State) (j : Job), s.job? 0 c = some j → j.phase = .command → j.status = none → s.plansRun = true →
    let e := j.entry
    let d := j.target
    (eOp e = 0x0C → eSub e = 0 →
      (d = 0 → s.adminEnds (.domainCreate c) c .malformed s) ∧
      (d ≠ 0 → ∀ off, domainSettings d e true = .inr off → s.adminEnds (.domainCreate c) c .malformed s) ∧
      (d ≠ 0 → ∀ x ev, domainSettings d e true = .inl x → eventQOf x.events s.thyme.tick = some ev →
        let free : Prop := (s.soon.domain? d).isSome = false ∧ (s.thyme.plan.lookup d).isSome = false ∧
          s.thyme.staged.any (·.domain == d) = false ∧ s.wouldAdmit d x.plan = true ∧ s.soon.otherSlots d + x.slotRes ≤ 65536
        (¬free → s.adminEnds (.domainCreate c) c .resourceBusy s) ∧
        (free → s.adminEnds (.domainCreate c) c .ok ((s.stageRecord d x.plan).addChange (.addDomain (newDomain d x) ev))))) ∧
    (eOp e = 0x0D → eSub e = 0 → s.domain? d = none → s.adminEnds (.domainResize c) c .malformed s) ∧
    (eOp e = 0x0D → eSub e = 0 → ∀ y, s.domain? d = some y →
      (∀ off, domainSettings y.num e false = .inr off → s.adminEnds (.domainResize c) c .malformed s) ∧
      (∀ x, domainSettings y.num e false = .inl x →
        let fits : Prop := s.wouldAdmit y.num x.plan = true ∧ s.soon.otherSlots y.num + x.slotRes ≤ 65536 ∧
          s.pinnedOf y.num ≤ x.slotRes ∧ s.holdsSaved y.num = false
        (¬fits → s.adminEnds (.domainResize c) c .resourceBusy s) ∧
        (fits → s.adminEnds (.domainResize c) c .ok (((s.stageRecord y.num x.plan).addChange
          (.settings y.num x.nsBase x.nsLog2 x.slotRes x.saveBase x.saveCount)).addChange x.events)))) ∧
    (eOp e = 0x0E → j.resetMark = false → ∀ p ∈ [(0, Instr.domainReset c, false), (1, .domainDelete c, true)], eSub e = p.1 →
      (s.domain? d = none → s.adminEnds p.2.1 c .malformed s) ∧
      (∀ x, s.domain? d = some x → x.num = 0 → s.adminEnds p.2.1 c .malformed s) ∧
      (∀ x, s.domain? d = some x → x.num ≠ 0 → ∃ t : State, exec p.2.1 s = .next t ∧
        t.domainNow d (fun y => y.deleting = (x.deleting || p.2.2) ∧
          y.resetting = if x.resetting.isSome = true then x.resetting else some s.thyme.tick)))

/-- Microcode Download and Activate (R277, R279, R280): a download into an EMPTY or STANDBY bank makes it VERIFYING, or EMPTY again when no package has its length; an activation of a STANDBY bank of a permitted version is accepted for the next tick, in which the bank becomes ACTIVE and the other drains. A bank that an accepted activation names takes no other command until then. Model's readings it rests on: notes/assumptions/79. -/
def Obligations.MicrocodeAdmin : Prop :=
  (∀ (c : BitVec 17) (s : State) (j : Job), s.job? 0 c = some j → j.phase = .command → j.status = none → s.plansRun = true →
    let b := j.bankB
    let st := (s.basil.bank b).state
    (eOp j.entry = 0x05 → (∀ v ∈ s.basil.verify, v.admin ≠ some c) →
      ((st ≠ .empty ∧ st ≠ .standby) ∨ s.switching b = true → s.adminEnds (.microcodeDownload c) c .resourceBusy s) ∧
      ((st = .empty ∨ st = .standby) → s.switching b = false →
        (eLen j.entry < 4112 ∨ 139891 < eLen j.entry → s.adminEnds (.microcodeDownload c) c .malformed (s.setBank b fun _ => .none)) ∧
        (4112 ≤ eLen j.entry → eLen j.entry ≤ 139891 → ∃ u : State, exec (.microcodeDownload c) s = .next u.flow ∧
          (u.basil.bank b).state = .verifying ∧ ∃ v ∈ u.basil.verify, v.bankB = b ∧ v.admin = some c ∧ v.base = j.buffer ∧ v.len = eLen j.entry))) ∧
    (eOp j.entry = 0x06 →
      (st ≠ .standby ∨ s.switching b = true → s.adminEnds (.microcodeActivate c) c .resourceBusy s) ∧
      (st = .standby → s.switching b = false → s.svnOk (s.basil.bank b) = false → s.adminEnds (.microcodeActivate c) c .unsupported s) ∧
      (st = .standby → s.switching b = false → s.svnOk (s.basil.bank b) = true → s.adminEnds (.microcodeActivate c) c .ok
        { s with basil := { s.basil with switch := some (b, bit (eSub j.entry) 1) } }))) ∧
  ∀ (s : State) (b commit : Bool), s.basil.switch = some (b, commit) → (s.basil.bank b).state = .standby →
    s.switchBank.basil.switch = none ∧ (s.switchBank.basil.bank b).state = .active ∧ (s.switchBank.basil.bank (!b)).state ≠ .active ∧
    ((s.basil.bank (!b)).state = .active →
      (s.switchBank.basil.bank (!b)).state = if s.bankInUse (!b) = true then .draining else .standby)

/-- Self-Test (R350 to R352, R389, Tables 11.7 and 11.7a): an index past the kind's last is MALFORMED, a retired unit answers outcome 2, any other test waits for its start. It starts when its condition holds, after the tick of its acceptance and within 65,536 ticks of it; past them it ends with RESOURCE_BUSY or outcome 3. At its end it is logged with outcome 0, or 1 when the unit is retired; the first half or cell of a pair that passes gives its place to the second, a DILL lane's test does not pass before its whole set has run, and a port's ends as SORREL's comparison says, once every transfer of it has returned (R456). Model's readings it rests on: notes/assumptions/79. -/
def Obligations.SelfTestRule : Prop :=
  (∀ (c : BitVec 17) (s : State) (j : Job), s.job? 0 c = some j → j.phase = .command → j.status = none → s.plansRun = true →
    eOp j.entry = 0x10 → (∀ t ∈ s.sorrel.tests, t.count ≠ c) →
    ∀ p ∈ [(1, Instr.selfTestChiveLane c), (2, .selfTestBunch c), (3, .selfTestDillLane c), (4, .selfTestBasilSequencer c),
        (5, .selfTestMemoryDataPort c), (6, .selfTestSageStandbyCounter c), (7, .selfTestThymeLockstepPair c),
        (8, .selfTestKeyBusLane c), (9, .selfTestEntropySource c)], eSub j.entry = p.1 →
      let i := fieldLe j.entry 32 2
      (lastIndex p.1 < i → s.adminEnds p.2 c .malformed s) ∧
      (i ≤ lastIndex p.1 → s.unitRetired p.1 i = true → exec p.2 s = .next (s.adminOk c 2).flow ∧ (s.adminOk c 2).endedWith 0 c .ok) ∧
      (i ≤ lastIndex p.1 → s.unitRetired p.1 i = false → ∃ u : State, exec p.2 s = .next u.flow ∧ u.sorrel.tests = s.sorrel.tests ++
        [{ kind := p.1, index := i, accepted := s.thyme.tick, started := false, second := false, count := c }])) ∧
  (∀ (kind i : Nat) (s : State) (t : SelfTest), s.test? kind i false = some t → s.plansRun = true →
    (t.accepted < s.thyme.tick → s.thyme.tick ≤ t.accepted + 65536 → s.testCanStart kind i = true →
      ∃ u : State, exec (.selfTestStart kind i) s = .next u.flow ∧ { t with started := true } ∈ u.sorrel.tests ∧ t ∉ u.sorrel.tests) ∧
    (s.thyme.tick ≤ t.accepted ∨ t.accepted + 65536 < s.thyme.tick ∨ s.testCanStart kind i = false →
      exec (.selfTestStart kind i) s = .next s) ∧
    (t.accepted + 65536 < s.thyme.tick → ∀ j, s.job? 0 t.count = some j → j.status = none →
      ∃ u : State, exec (.selfTestTimeout kind i) s = .next u.flow ∧ (∀ x ∈ u.sorrel.tests, x.count ≠ t.count) ∧
        u.endedWith 0 t.count (if s.unitRetired kind i = false ∧ kind ≤ 5 then .resourceBusy else .ok))) ∧
  (∀ (kind i : Nat) (pass : Bool) (s : State) (t : SelfTest), s.test? kind i true = some t → s.plansRun = true →
    let again : Prop := pass = true ∧ t.second = false ∧ ((t.kind = 7 ∧ (s.halvesOf .thyme).2 = .inPair) ∨
      (t.kind = 9 ∧ s.sorrel.cells = [false, true]))
    let whole : Prop := (t.kind = 3 → pass = true → ∃ x, s.sorrel.dill[t.index]? = some x ∧ (x.health = .retired ∨ testSet .dill ≤ x.tested)) ∧
      (t.kind = 5 → ∃ x, s.sorrel.ports[t.index]? = some x ∧ (x.role = .suspended → s.portTesting t.index = false ∧ pass ≠ x.bad) ∧
        (x.role = .retired → pass = false) ∧ (x.role ≠ .suspended → x.role ≠ .retired → pass = true))
    let v := s.finishTest t pass
    let outcome := if pass = true ∧ v.unitRetired kind i = false then 0 else 1
    (whole → again → exec (.selfTestEnd kind i pass) s = .next (v.nextTurn t).flow ∧ { t with second := true } ∈ (v.nextTurn t).sorrel.tests) ∧
    (whole → ¬again → exec (.selfTestEnd kind i pass) s = .next (v.logTest t outcome).flow ∧ (v.logTest t outcome).sorrel.testLog.getLast? =
      some { tick := v.thyme.tick, kind := t.kind, outcome := outcome, index := t.index, count := t.count }) ∧
    (¬whole → exec (.selfTestEnd kind i pass) s = .next s))

/-- Load Key (R353 to R356, R194, R208): a load of handles in the target's and domain 0's windows is posted under the next number; when it runs, a load by handle ends once its slot is filled, and of a pair once its members' are too (R204), a wrapped one, unwrapped in slices of domain 0, only in a pinned slot-only slot, by the two-key rule and the length of its key, and a failure takes the load away with an entry in the Deferred Error log. Model's readings it rests on: notes/assumptions/80. -/
def Obligations.LoadKeyRule : Prop :=
  (∀ (c : BitVec 17) (s : State) (j : Job), s.job? 0 c = some j → j.phase = .command → j.status = none → s.plansRun = true →
    eOp j.entry = 0x11 → s.admin.loads.length < 64 →
    ∀ p ∈ [(0, Instr.loadKeyByHandle c, LoadKind.handle), (1, .loadKeyAesKw c, .kw), (2, .loadKeyAesKwp c, .kwp)], eSub j.entry = p.1 →
      let h := fieldLe j.entry 32 3
      let kek := fieldLe j.entry 36 3
      (s.domain? j.target = none → s.adminEnds p.2.1 c .malformed s) ∧
      (∀ x, s.domain? j.target = some x →
        let inside : Prop := inWindow x h = true ∧ (p.2.2 = .handle ∨ (s.domain? 0).any (fun m => inWindow m kek) = true)
        let n := s.admin.loadNumber + 1
        let l : PostedLoad := { load := n, kind := p.2.2, domain := x.num, handle := h, kek := kek, data := j.buffer, len := eLen j.entry,
                                count := c, tag := BitVec.ofNat 16 (eTag j.entry), accepted := s.thyme.tick }
        (inside → s.adminEnds p.2.1 c .ok { s with admin := { s.admin with loadNumber := n, loads := s.admin.loads ++ [l] } }) ∧
        (¬inside → s.adminEnds p.2.1 c .keyDenied s))) ∧
  (∀ (s u : State) (l : PostedLoad) (r : SlotCheck), s.load? l.load = some l → s.plansRun = true → s.resetting l.domain = false →
    l.accepted < s.thyme.tick → s.checkSlot l.domain l.handle false = (u, r) →
    let run (v : State) : Prop := exec (.postedLoadRun l.load) s = .next v.flow
    (r = .wait → run u) ∧
    (∀ st, r = .fail st → run (u.failLoad l st) ∧ (u.failLoad l st).load? l.load = none ∧
      (u.admin.defLog.length < 256 → ∃ e ∈ (u.failLoad l st).admin.defLog, e.load = l.load ∧ e.status = st ∧ e.handle = l.handle)) ∧
    (∀ k, r = .ready k →
      (l.kind = .handle → k.typ ≠ 1 → run (u.loadDone l.load) ∧ (u.loadDone l.load).load? l.load = none) ∧
      (l.kind = .handle → k.typ = 1 →
        let inside : Bool := (u.domain? l.domain).any fun x => inWindow x k.newer && inWindow x k.older
        let member (role : KeyRole) (h : Nat) : JobKey := { role := role, second := true, handle := h, failed := none }
        (inside = false → run (u.failLoad l .keyDenied)) ∧
        (inside = true → ∀ v r', State.checkKeys l.domain 0 [member .newer k.newer, member .older k.older] u .ok = (v, r') →
          (r' = .wait → run v) ∧ (∀ st, r' = .fail st → run (v.failLoad l st)) ∧ (r' = .ok → run (v.loadDone l.load)))) ∧
      (l.kind ≠ .handle → k.typ ≠ 2 → run (u.failLoad l .keyDenied)) ∧
      (l.kind ≠ .handle → k.typ = 2 → (u.slot? l.domain l.handle).any (·.pinned) = false → run (u.failLoad l .keyCacheFull)) ∧
      (l.kind ≠ .handle → k.typ = 2 → (u.slot? l.domain l.handle).any (·.pinned) = true →
        (u.job? loadQueue (l.load.setWidth 17) = none → run (u.runWrapped l)) ∧
        ∀ w, u.job? loadQueue (l.load.setWidth 17) = some w →
          let opens (m : Bytes) : Prop := u.targetOpen l.domain l.handle = true ∧ (u.recOf l.domain l.handle).any (fun r => unwrapFits r m) = true
          (∀ st, w.status = some st → run (u.failLoad l st)) ∧
          (w.status = none → w.allDelivered = false → run u) ∧
          (w.status = none → w.allDelivered = true →
            (w.unwrapped.1 = none → run (u.failLoad l .authFail)) ∧
            ∀ m, w.unwrapped.1 = some m → (opens m → run ((u.readyKey l.domain l.handle m).loadDone l.load)) ∧
              (¬opens m → run (u.failLoad l .keyDenied))))))

/-- The register path (R238 to R244, R464): an access waits at the port behind those that wait there, and a data or last word of a session waits while the FIFO has no room; it goes on when room has come back. An ill-formed OPEN ends MALFORMED, and one while a session is open or opening does nothing; a session has the DG_RP_CFG and DG_RP_KEY in force when OPEN was accepted; data and last words append to the message; FINISH takes DG_RP_TOTAL bytes; the end of the message compares, or leaves the result; CLOSE is for the owner; poisoned data ends the session. Model's readings it rests on: notes/assumptions/43, 81 and 113. -/
def Obligations.RegisterPathRule : Prop :=
  ∀ (src : From) (s : State), s.unitWrite src = true → s.rpMode = true →
    let r := s.dill.rp
    let rp (f : RegPath → RegPath) : State := { s with dill := { s.dill with rp := f s.dill.rp } }
    let waits (addr size : Nat) (v : BitVec 64) : State := rp fun r => { r with held := r.held ++ [.write src addr size v] }
    let n8 := s.regSoon 0x58018 % 16
    let total := s.regN 0x58010
    let since := if r.busy then r.since else s.thyme.tick + 1
    let more (w : BitVec 64) : State := rp fun r => { r with
      msg := r.msg ++ leBytes 8 w.toNat, words := r.words + 1, fifo := r.fifo + 1, busy := true, since := since }
    (r.held ≠ [] → exec (.registerPathOpen src) s = .next (waits 0x58008 4 1).sendAll ∧
      (∀ w, exec (.dgRpData src w) s = .next (waits 0x58040 8 w) ∧ exec (.dgRpLast src w) s = .next (waits 0x58048 8 w)) ∧
      exec (.registerPathFinish src) s = .next (waits 0x58008 4 2) ∧ exec (.registerPathClose src) s = .next (waits 0x58008 4 3)) ∧
    (r.takes = true → 32 ≤ r.fifo → ∀ w, exec (.dgRpData src w) s = .next (waits 0x58040 8 w) ∧
      exec (.dgRpLast src w) s = .next (waits 0x58048 8 w)) ∧
    (∀ w, r.takes = true → r.fifo < 32 → r.held = [.write src 0x58040 8 w] → s.drainPort = (more w).setRp fun r => { r with held := [] }) ∧
    (r.held = [] → r.opened = true ∨ r.opening = true → exec (.registerPathOpen src) s = .next s.sendAll) ∧
    (r.held = [] → r.opened = false → r.opening = false →
      let v := s.setRp fun r => { r with
        cfg := s.regN 0x58000, key := s.regN 0x58004, owner := src, openTick := s.thyme.tick, ctx := false, done := false, status := 0xFF }
      (rpFormOk v.rpSel v.rpOut v.rpHmac = true →
        exec (.registerPathOpen src) s = .next ((v.setRp fun r => { r with opening := true }).openProgress).sendAll) ∧
      (rpFormOk v.rpSel v.rpOut v.rpHmac = false → exec (.registerPathOpen src) s = .next (v.setRp fun r => { r with
        opening := false, ctx := false, done := true, status := BitVec.ofNat 8 Status.malformed.code }).sendAll) ∧
      (rpFormOk v.rpSel v.rpOut v.rpHmac = true → v.rpHmac = false → v.sharedOnDie + 1 < v.sharedCtxRoom →
        ∃ t : State, exec (.registerPathOpen src) s = .next t ∧ t.dill.rp.opened = true ∧ t.dill.rp.owner = src ∧ t.dill.rp.msg = [])) ∧
    (∀ w : BitVec 64, r.held = [] →
      (r.takes = true → r.fifo < 32 → exec (.dgRpData src w) s = .next (more w)) ∧
      (r.takes = false → exec (.dgRpData src w) s = .next s ∧ exec (.dgRpLast src w) s = .next s) ∧
      (r.takes = true → r.fifo < 32 → n8 ≤ 8 → exec (.dgRpLast src w) s = .next (rp fun r => { r with
        msg := r.msg ++ leBytes n8 w.toNat, fifo := r.fifo + 1, busy := true, finishing := true, since := since })) ∧
      (r.takes = true → r.fifo < 32 → 8 < n8 → exec (.dgRpLast src w) s = .next (s.rpEnd .malformed []))) ∧
    (r.held = [] → r.takes = true →
      (r.words = ceilDiv total 8 → exec (.registerPathFinish src) s = .next (rp fun r => { r with
        msg := r.msg.take total, busy := true, finishing := true, since := since })) ∧
      (r.words ≠ ceilDiv total 8 → exec (.registerPathFinish src) s = .next (s.rpEnd .malformed []))) ∧
    (r.opened = true → r.finishing = true → r.busy = false → r.done = false → exec .registerPathDone s = .next (
      if s.rpVerify = true then
        s.rpEnd (if s.rpMatches r.newer = true ∨ (r.older.isSome = true ∧ s.rpMatches r.older = true) then .ok else .authFail) []
      else s.rpEnd .ok (s.rpResult r.newer))) ∧
    (r.held = [] → r.opened = true → r.owner = src →
      exec (.registerPathClose src) s = .next (rp fun r => { RegPath.reset with expect := r.expect })) ∧
    (r.held = [] → r.opened = false ∨ r.owner ≠ src → ∃ t : State, exec (.registerPathClose src) s = .next t ∧ t.still = s.still) ∧
    (r.opened = true → ∃ t : State, exec .registerPathDataError s = .next t ∧ t.dill.rp.done = true ∧ t.dill.rp.dead = true ∧
      t.dill.rp.status = BitVec.ofNat 8 Status.poisoned.code ∧ t.dill.rp.msg = []) ∧
    (∀ st b, ∃ x, s.rpEnd st b = rp x ∧ (x r).done = true ∧ (x r).status = BitVec.ofNat 8 st.code ∧ (x r).result = padTo 64 b)

/-! ## Modes and resets -/

/-- The requests of GL_MODE_CTL (R425, R428, R432 to R437, R484) and the sleeps: a request is latched, carried out or refused with req_err by the mode, the target and the checks, which run at every GO; a value that is no request is refused; a request waits behind the accesses that wait at the port; the drained point enters the sleep or the debug mode that the target names; the drain limit ends every job and posted load; a wake enters Sense with its cause. Model's readings it rests on: notes/assumptions/8, 43, 51, 52, 113 and 133. -/
def Obligations.ModeRequests : Prop :=
  (∀ (src : From) (s : State), s.windowWrite src = true → s.mode.fail = 0 → s.dill.rp.held ≠ [] →
    ∀ p ∈ [(Instr.go src, (1 : BitVec 64)), (.resume src, 2), (.drain src, 3), (.quiesce src, 4), (.lightSleep src, 5), (.deepSleep src, 6),
      (.provision src, 7), (.reset src, 8)], exec p.1 s = .next (s.setRp fun r => { r with held := r.held ++ [.write src 0x100 4 p.2] })) ∧
  (∀ (src : From) (s : State), s.windowWrite src = true → s.mode.fail = 0 → s.dill.rp.held = [] →
    let m := s.mode
    let refused (c : Instr) : Prop := exec c s = .next { s with mode := { m with reqErr := true } }
    let drains (c : Instr) (n : BitVec 4) : Prop := ∃ t : State, exec c s = .next t ∧
      t.mode = { m with mode := .drain, target := n, quiet := false, drainTick := s.thyme.tick, fromProv := m.mode == .provisioning,
                        resume := false, drainedPt := false }
    let goOk : Prop := m.target = 0 ∧ ((m.mode = .startup ∧ m.hold = true) ∨ (m.mode = .provisioning ∧ s.lovage.goAllowed = true))
    let resumes : Prop := m.mode = .drain ∧ m.target = 3
    s.recordChecks.regN 0x20 = s.setupErr % 2 ^ 64 ∧
    (goOk → exec (.go src) s = .next { s.recordChecks with
      mode := if s.setupErr = 0 then { m with latched := some .go, target := 1 } else { m with reqErr := true } }) ∧
    (¬goOk → exec (.go src) s = .next { s.recordChecks with mode := { m with reqErr := true } }) ∧
    (m.mode = .startup ∧ m.target = 0 ∧ m.hold = true →
      exec (.provision src) s = .next { s with mode := { m with latched := some .provision, target := 7 } }) ∧
    (¬(m.mode = .startup ∧ m.target = 0 ∧ m.hold = true) → refused (.provision src)) ∧
    (m.mode = .quiesce ∧ m.target = 0 → exec (.resume src) s = .next { s with mode := { m with target := 2 } }) ∧
    (resumes → m.fromProv = false → exec (.resume src) s = .next { s with mode := { m with resume := true } }) ∧
    (resumes → m.fromProv = true → exec (.resume src) s = .next { s.recordChecks with
      mode := if s.lovage.goAllowed = true ∧ s.setupErr = 0 then { m with resume := true } else { m with reqErr := true } }) ∧
    (¬(m.mode = .quiesce ∧ m.target = 0) → ¬resumes → refused (.resume src)) ∧
    ((m.mode = .service ∨ m.mode = .degraded) ∧ m.target = 0 → exec (.quiesce src) s = .next { s with mode := { m with target := 4 } }) ∧
    (¬((m.mode = .service ∨ m.mode = .degraded) ∧ m.target = 0) → refused (.quiesce src)) ∧
    (m.mode ∈ drainFrom ∧ m.target = 0 → drains (.drain src) 3 ∧ drains (.lightSleep src) 5 ∧ drains (.deepSleep src) 6) ∧
    (¬(m.mode ∈ drainFrom ∧ m.target = 0) → refused (.drain src) ∧ refused (.lightSleep src) ∧ refused (.deepSleep src)) ∧
    (∀ v : BitVec 64, v.toNat % 16 = 0 ∨ 8 < v.toNat % 16 → refused (.registerWrite src false 0x100 4 v))) ∧
  (∀ s : State, s.atDrainedPoint = true → ∃ t : State, exec .drainedPoint s = .next t ∧
    (s.mode.target = 5 → t.mode.mode = .lightSleep ∧ t.fennel.queues = [] ∧ t.bay.slots = [] ∧ t.sage.now = s.sage.now) ∧
    (s.mode.target = 6 → t.mode.mode = .deepSleep ∧ t.fennel.queues = [] ∧ t.bay.slots = [] ∧ t.sage = .reset ∧ t.aon.deepTick = s.thyme.tick ∧
      t.aon.aonCount = 0) ∧
    (s.mode.target = 9 → t.mode.mode = .authDebug ∧ t.bay.slots = [] ∧ t.lovage.dbgClosed = true ∧
      t.lovage.dbgClass = (s.lovage.granted.getD (0, false)).1) ∧
    (s.mode.target ≠ 5 → s.mode.target ≠ 6 → s.mode.target ≠ 9 → t = s)) ∧
  (∀ s : State, s.mode.mode = .drain → s.drainLimit = true →
    ∃ t : State, exec .drainLimitExpiry s = .next t ∧ t.fennel.jobs = [] ∧ t.admin.loads = []) ∧
  (∀ s : State, (s.mode.mode = .lightSleep ∨ s.mode.mode = .deepSleep) → ∀ p ∈ [(0, Instr.wakeTimer), (1, .wakeIn)], bit (s.regN 0x108) p.1 = true →
    (p.1 = 0 → s.mode.mode = .lightSleep → s.thyme.tick = s.regN 0x110) →
    (p.1 = 0 → s.mode.mode = .deepSleep → s.aon.aonCount % 2 ^ 48 = s.regN 0x110 % 2 ^ 48) →
    ∃ t : State, exec p.2 s = .next t ∧ t.mode.mode = .sense ∧ t.aon.wakeCause = s.aon.wakeCause ||| causeBit 4 p.1)

/-- POWER_ON_RESET leaves OTP alone, and so do PD_AON_SUPPLY_LOSS and the resets when no operation runs; of one that runs, the copy in progress gets some of its bits (R410, R426, R439, Table 14.6; the outbox and the free counter are the model's own); DEVICE_RESET and MAIN_RESET, but in the tick of an alarm's latch (R426), and RESET where it is allowed (R425, R439, Table 14.6), enter Sense with their cause, without queues, domains, slots or transactions; a main reset leaves SAGE's counter, the SG_ setup registers and the writes of them that wait as they were, and every other setup register at its Reset column. In Sense (R401, R417, R427) OTP is read first, and once PD_TIME and PD_MAIN are good the block goes to Start-up test, or to Alarm. Model's readings it rests on: notes/assumptions/16, 46, 47, 54 and 113. -/
def Obligations.ResetsAndSense : Prop :=
  let otp (s t : State) : Prop :=
    ((∀ o, s.lovage.op = some o → o.steps = []) → t.lovage.mono = s.lovage.mono ∧ t.lovage.vals = s.lovage.vals) ∧
    (∀ o st rest, s.lovage.op = some o → o.steps = st :: rest → ∃ (v : BitVec 32) (d : Bool),
      t.lovage.mono = (s.lovage.program st (st.bits &&& v) d).mono ∧ t.lovage.vals = (s.lovage.program st (st.bits &&& v) d).vals)
  (∀ s : State, s.mode.mode = .cold → exec .powerOnReset s = .next { State.reset with
    lovage := { Lovage.reset with mono := s.lovage.mono, vals := s.lovage.vals }, outbox := s.outbox, free := s.free, pending := s.pending }) ∧
  (∀ s : State, ∃ t : State, exec .pdAonSupplyLoss s = .next t ∧ t.mode.mode = .cold ∧ t.aon.alarmLatched = false ∧
    t.regs = regsReset ∧ t.domains = [] ∧ t.sage = .reset ∧ t.aon.resetCause = 0 ∧ otp s t) ∧
  (∀ (src : From) (s : State),
    let lost (c : Instr) (bit' : Nat) (keepTime : Bool) : Prop := ∃ t : State, exec c s = .next t ∧ t.mode.mode = .sense ∧
      t.mode.timeOn = true ∧ t.mode.target = 0 ∧ t.fennel = .reset ∧ t.domains = [] ∧ t.bay = .reset ∧ t.txns = [] ∧ t.mint = .reset ∧
      t.admin = { Admin.reset with changes := if keepTime then s.admin.changes.filter Change.isSg else [] } ∧
      t.aon.resetCause = s.aon.resetCause ||| causeBit 6 bit' ∧ t.aon.alarmLatched = s.aon.alarmLatched ∧ otp s t ∧
      (keepTime = true → t.sage.now = s.sage.now ∧ t.thyme.tick = s.thyme.tick ∧
        ∀ x ∈ regsReset, t.reg x.1 = if 0x70000 ≤ x.1 ∧ x.1 < 0x80000 then assocD s.regs x.1 x.2 else x.2) ∧
      (keepTime = false → t.sage = .reset ∧ t.regs = regsReset)
    (s.mode.mode ≠ .cold → s.aon.alarmNow = false → lost .deviceReset 1 false ∧ lost .mainReset 2 true) ∧
    (s.mode.mode = .cold ∨ s.aon.alarmNow = true → exec .deviceReset s = .next s ∧ exec .mainReset s = .next s) ∧
    (s.windowWrite src = true → s.dill.rp.held = [] →
      let allowed : Prop := ((s.mode.mode = .startup ∨ s.mode.mode = .provisioning ∨ s.mode.mode = .authDebug) ∧ s.mode.target = 0) ∨
        (s.mode.mode = .alarm ∧ s.mode.aborting = false ∧ s.aon.alarmNow = false) ∨
        (s.mode.mode = .drain ∧ s.mode.target = 3 ∧ s.atDrainedPoint = true)
      (allowed → lost (.reset src) 3 true) ∧ (¬allowed → exec (.reset src) s = .next { s with mode := { s.mode with reqErr := true } })) ∧
    (s.windowWrite src = true → s.dill.rp.held ≠ [] → exec (.reset src) s = .next (s.holdAccess (.write src 0x100 4 8)))) ∧
  (∀ s : State, s.mode.mode = .sense →
    let p := s.mode.steps
    (s.mode.timeOn = true → p.s1 = false → exec .timeGood s = .next { s with mode := { s.mode with steps := { p with s1 := true } } }) ∧
    (p.s2 = true → s.mode.mainOn = true → p.s3 = false →
      exec .mainGood s = .next { s with mode := { s.mode with steps := { p with s3 := true } } }) ∧
    (p.s2 = false → ∃ t : State, exec .sense s = .next t ∧ t.mode.steps.s2 = true ∧ t.mode.mainOn = true ∧
      t.lovage.life = s.lovage.atSense.life ∧ t.lovage.instSlot = s.lovage.atSense.instSlot) ∧
    (p.s2 = true → p.s1 = true → p.s3 = true → p.s4 = false → ∃ t : State, exec .sense s = .next t ∧ t.mode.steps.s4 = true ∧
      (s.senseToAlarm = true → t.mode.mode = .alarm) ∧
      (s.senseToAlarm = false → t.mode.mode = .startup ∧ t.mode.hold = !s.mode.fromLight ∧ t.parsley.qs.map (·.domain) = [0])))

/-- Start-up (R264, R282, R391, R402, R427 to R432, R480, R483, R484): step 5 instantiates the DRBGs and derives the attestation key; step 7 retires what its tests found, or fails with the lowest code of Table 14.3a; step 10 enters Service with Q0 and domain 0 as the registers set them, or Provisioning, or stays when a GO finds a check failed; a GO in Provisioning, or a RESUME in a Drain that began there, leads to Service under the conditions of R432, or fails. Model's readings it rests on: notes/assumptions/43, 50, 55 and 133. -/
def Obligations.StartupRule : Prop :=
  (∀ s : State, s.mode.mode = .startup → s.mode.fail = 0 → s.mode.steps.s4 = true → s.mode.steps.s5 = false →
    ∃ t : State, exec .entropyStartUpTestsEnd s = .next t ∧ t.mode.steps.s5 = true ∧ t.basil.drbgs.length = 17 ∧
      (∀ g ∈ t.basil.drbgs, g.instantiated = true) ∧ t.lovage.attKey = s.lovage.deriveKey ∧ t.dill.sealKey.isSome = true ∧ t.dill.saveCtr = 0) ∧
  (∀ (f : StartupFindings) (s : State), s.mode.mode = .startup → s.mode.fail = 0 → s.mode.steps.s5 = true → s.mode.steps.s6 = true →
    s.mode.steps.s7 = false → ∃ t : State, exec (.startupTestsEnd f) s = .next t ∧ t.sorrel = s.sorrel.mapOf f ∧
      (failureCode f = 0 → t.mode = { s.mode with steps := { s.mode.steps with s7 := true } }) ∧
      (failureCode f ≠ 0 → t.mode.fail = BitVec.ofNat 4 (failureCode f) ∧ t.mode.mode = .startup)) ∧
  (∀ s : State, s.startupOver = true → s.lovage.granted = none →
    let go : Prop := s.mode.latched = some .go
    ∃ t : State, exec .enterService s = .next t ∧
      (go → s.setupErr ≠ 0 → t.mode.mode = .startup ∧ t.mode.reqErr = true ∧ t.mode.latched = none ∧ t.mode.target = 0) ∧
      (¬(go ∧ s.setupErr ≠ 0) → s.mustProvision = true → t.mode.mode = .provisioning ∧ t.mode.target = 0 ∧ t.mode.hold = false) ∧
      (¬(go ∧ s.setupErr ≠ 0) → s.mustProvision = false → (t.mode.mode = .service ∨ t.mode.mode = .degraded) ∧ t.mode.target = 0 ∧
        t.fennel.queues.map (fun q => (q.num, q.domain, q.base, q.n)) = [(0, 0, s.regSoon 0x20008 % 2 ^ 52, s.regSoon 0x20010 % 32)] ∧
        t.domains.map (·.num) = [0] ∧ (s.lovage.life = .secured → ∀ a ∈ lockRegs, (t.reg a).getLsbD 31 = true))) ∧
  (∀ s : State, (s.mode.mode = .provisioning ∧ s.mode.latched = some .go) ∨
      (s.mode.mode = .drain ∧ s.mode.fromProv = true ∧ s.mode.resume = true) → s.lovage.granted = none →
    ∃ t : State, exec .enterService s = .next t ∧
      (s.setupErr ≠ 0 ∨ s.lovage.goAllowed = false → t.mode.mode = s.mode.mode ∧ t.mode.reqErr = true ∧
        t.mode.target = if s.mode.mode = .drain then s.mode.target else 0) ∧
      (s.setupErr = 0 → s.lovage.goAllowed = true → (t.mode.mode = .service ∨ t.mode.mode = .degraded) ∧ t.domains.map (·.num) = [0]))

/-! ## Life cycle, debug and tamper -/

/-- LOVAGE's operations (R399, R402, R404, R407 to R409, Tables 13.4 and 13.5). A transition is refused while an operation runs (8), for no code of Table 13.3 (9), or for what Table 13.4 lacks; a permitted one programs its word's three copies, RETURNED after wiping both secrets, PROVISIONED after a new secret. A programming or revocation is refused, or programs its words. The time of one copy sets its bits: the operation goes on to the next copy, ends with result 0 at the last one, with 4 when the hold-up supply is low before a first pulse, and with 7 when two pulses have not held. A write waits behind the accesses that wait at the port. Model's readings it rests on: notes/assumptions/43, 48, 56, 57 and 113. -/
def Obligations.OtpOperations : Prop :=
  (∀ (src : From) (s : State), s.unitWrite src = true → s.dill.rp.held ≠ [] →
    let waits (addr value : Nat) : State := s.holdAccess (.write src addr 4 (BitVec.ofNat 64 value))
    (∀ code : BitVec 32, exec (.transition src code) s = .next (waits 0x80008 code.toNat)) ∧
    (∀ i : Nat, exec (.programInstanceSlot src i) s = .next (waits 0x80010 (16 + min i 15)) ∧
      exec (.programEcdsaDigest src i) s = .next (waits 0x80010 (32 + min i 15)) ∧
      exec (.programMlDsaDigest src i) s = .next (waits 0x80010 (48 + min i 15)) ∧
      exec (.revokeEcdsaKey src i) s = .next (waits 0x80010 (64 + min i 15)) ∧
      exec (.revokeMlDsaKey src i) s = .next (waits 0x80010 (80 + min i 15)))) ∧
  (∀ (src : From) (s : State), s.unitWrite src = true → s.dill.rp.held = [] →
    (∀ code : BitVec 32,
      let refused (r : BitVec 8) : Prop := ∃ t : State, exec (.transition src code) s = .next t ∧
        t.lovage.opDone = true ∧ t.lovage.opResult = r ∧ t.lovage.opCode = 1
      (s.lovage.op.isSome = true → refused 8) ∧
      (s.lovage.op = none → lifeOf code = none → refused 9) ∧
      (s.lovage.op = none → ∀ x, lifeOf code = some x → ∀ r, s.moveRefusal x = some r → refused r) ∧
      (s.lovage.op = none → ∀ x, lifeOf code = some x → s.moveRefusal x = none →
        let w := if x = .scrapped then 16 else s.lovage.nextWord.getD 0
        let begun (steps : List OtpStep) : Prop := ∃ t : State, exec (.transition src code) s = .next t ∧
          t.lovage.op = some { kind := .transition, steps := steps, pulsed := false, halted := false }
        (x ≠ .provisioned → x ≠ .returned → begun (monoSteps w (lifeCode x))) ∧
        (x = .returned → begun (wipeSteps ++ monoSteps w (lifeCode x))) ∧
        (x = .provisioned → ∀ i, s.lovage.blankSecret = some i →
          ((s.drbgRequest 16).2 = true → begun (secretSteps i s.free ++ monoSteps w (lifeCode x))) ∧
          ((s.drbgRequest 16).2 = false → refused 6)))) ∧
    (∀ i : Nat,
      let l := s.lovage
      let starts (c : Instr) (r : Option (BitVec 8)) (steps : List OtpStep) : Prop := exec c s = .next (match if l.op.isSome then some 8 else r with
        | some r => s.otpReport .programming r
        | none => s.otpStart .programming steps)
      let digest (mlDsa : Bool) (c : Instr) : Prop := starts c
        (if 3 < i then some 9 else if !(l.life == .test || l.life == .provisioned) then some 1 else if !l.digestBlank mlDsa i then some 3 else none)
        ((List.range 12).flatMap fun w => valSteps (digestWord mlDsa i + w) (s.progData w))
      let revoke (mlDsa : Bool) (c : Instr) : Prop := starts c
        (if 3 < i then some 9 else if !l.life.active then some 1
         else if !((List.range 4).any fun k => k != i && !l.keyRevoked mlDsa k && !l.digestBlank mlDsa k) then some 6 else none)
        (monoSteps 19 (BitVec.ofNat 32 (2 ^ (i + if mlDsa then 4 else 0))))
      starts (.programInstanceSlot src i)
        (if 3 < i ∨ s.progData 0 &&& 0x7FFFFF = 0 then some 9
         else if !(l.life.active || (l.life == .test && i == 0)) then some 1
         else if !l.valBlank (20 + i) then some 3
         else if (List.range i).any fun k => l.valBlank (20 + k) then some 6
         else none)
        (valSteps (20 + i) (s.progData 0 &&& 0x7FFFFF)) ∧
      digest false (.programEcdsaDigest src i) ∧ digest true (.programMlDsaDigest src i) ∧
      revoke false (.revokeEcdsaKey src i) ∧ revoke true (.revokeMlDsaKey src i))) ∧
  (∀ (back hold : Bool) (s : State) (o : OtpOp) (st : OtpStep) (rest : List OtpStep), s.lovage.op = some o → o.steps = st :: rest →
    ∃ t : State, exec (.otpCopyDone back hold) s = .next t ∧
      (o.pulsed = false → hold = false → t.lovage.opDone = true ∧ t.lovage.opResult = 4 ∧ t.lovage.mono = s.lovage.mono ∧ t.lovage.vals = s.lovage.vals) ∧
      ((o.pulsed = true ∨ hold = true) → back = true →
        t.lovage.mono = (s.lovage.program st st.bits true).mono ∧ t.lovage.vals = (s.lovage.program st st.bits true).vals ∧
        (o.halted = false → rest ≠ [] → t.lovage.op = some { o with steps := rest, pulsed := false }) ∧
        (o.halted = false → rest = [] → t.lovage.opDone = true ∧ t.lovage.opResult = 0) ∧ (o.halted = true → t.lovage.opDone = true)) ∧
      ((o.pulsed = true ∨ hold = true) → back = false →
        (o.pulsed = false → t.lovage.op = some { o with pulsed := true }) ∧
        (o.pulsed = true → t.lovage.opDone = true ∧ t.lovage.opResult = 7)))

/-- Debug authorisation (R418 to R422). REQUEST forms a challenge when LOVAGE's DRBG serves it; SUBMIT takes the challenge and reads the response, in place of one whose check runs, answers 1 with no challenge, and 8 in Alarm, where no read is served; the checks' result is stored, and a good response grants its class; a challenge expires after 600 s; DEBUG_CLOSE lowers the class and disarms the return; DEBUG_OPEN opens a class in BLANK and TEST alone. A write waits behind the accesses that wait at the port. Model's readings it rests on: notes/assumptions/43, 58, 59, 113 and 134. -/
def Obligations.DebugRule : Prop :=
  (∀ (src : From) (s : State), s.unitWrite src = true → s.dill.rp.held ≠ [] →
    let waits (cmd cls : Nat) : State := s.holdAccess (.write src 0x800A0 4 (BitVec.ofNat 64 (cmd * 2 ^ 28 + min cls 7)))
    (∀ cls : Nat, exec (.request src cls) s = .next (waits 1 cls) ∧ exec (.debugOpen src cls) s = .next (waits 4 cls)) ∧
    exec (.submit src) s = .next (waits 2 0) ∧ exec (.debugClose src) s = .next (waits 3 0)) ∧
  (∀ (src : From) (s : State), s.unitWrite src = true → s.dill.rp.held = [] →
    (∀ cls : Nat,
      let formed : Prop := 1 ≤ cls ∧ cls ≤ 4 ∧ (s.basil.drbgs[16]?).any (·.instantiated) = true
      (¬formed → exec (.request src cls) s = .next s) ∧
      (formed → ∀ u b, s.drbgRequest 16 = (u, b) → exec (.request src cls) s = .next (if b then
          (u.setLovage fun l => { l with chal := some { bytes := u.challenge cls, cls := cls, tick := u.thyme.tick } }).useFree 32
        else u)) ∧
      (let here : Prop := (s.lovage.life = .blank ∨ s.lovage.life = .test) ∧ 1 ≤ cls ∧ cls ≤ 4
       (here → exec (.debugOpen src cls) s = .next (s.grantClass cls false)) ∧ (¬here → exec (.debugOpen src cls) s = .next s))) ∧
    (s.lovage.chal = none → exec (.submit src) s = .next (s.setLovage fun l => { l with dbgResult := 1 })) ∧
    (∀ c, s.lovage.chal = some c →
      (s.inAlarm = true → exec (.submit src) s = .next (s.setLovage fun l => { l with chal := none, dbgResult := 8 })) ∧
      (s.inAlarm = false → ∃ t : State, exec (.submit src) s = .next t ∧ t.lovage.chal = none ∧ t.lovage.checking = some c ∧
        t.lovage.respFailed = false ∧ t.lovage.resp = Machine.zeros 7571 ∧ ∃ x ∈ t.txns, ∃ off, x.purpose = .response off ∧ x.op = .read)) ∧
    (∃ t : State, exec (.debugClose src) s = .next t ∧ t.lovage.dbgClass = 0 ∧ t.lovage.retArmed = false ∧ t.lovage.chal = s.lovage.chal ∧
      ∀ k b, Change.debug k b ∉ t.admin.changes)) ∧
  (∀ (s : State) (c : Challenge), s.lovage.chal = some c → c.tick + 3750000000 ≤ s.thyme.tick →
    exec .challengeExpiry s = .next { s with lovage := { s.lovage with chal := none } }) ∧
  (∀ (s : State) (c : Challenge), s.lovage.checking = some c → s.portsRun = true →
    (∀ x ∈ s.txns, x.purpose.isResponse = true → x.dead = true) → (s.lovage.respFailed = true ∨ s.verifierRuns .response = true) →
    let r := s.responseResult c
    let u := s.setLovage fun l => { l with checking := none, resp := [], respFailed := false, dbgResult := r }
    exec .debugResponseChecked s = .next (if r = 0 then
      u.grantClass (byteAt s.lovage.resp 8).toNat ((byteAt s.lovage.resp 9).getLsbD 0) else u)) ∧
  (∀ (s : State) (cls : Nat) (ret : Bool), 1 ≤ cls →
    (cls ≤ 2 → s.grantClass cls ret = s.addChange (.debug cls ret)) ∧
    (2 < cls → s.mode.mode ∈ drainFrom → (s.grantClass cls ret).mode.mode = .drain ∧ (s.grantClass cls ret).mode.target = 9 ∧
      (s.grantClass cls ret).lovage.granted = some (cls, ret)))

/-- Tamper (R396, R412 to R417, R454). A source that fires sets its hit bit; an enabled one latches the alarm with the mode, the source, the tick and, in deep sleep, the ck_aon count, or is added to a latch that is set; an alarm in Sense before OTP has been read has it read, which may add source 10; the ports' stop ends every job and transaction; ALARM_CLEAR, in Alarm, clears the latch alone. Model's readings it rests on: notes/assumptions/8, 45, 46, 61, 62 and 113. -/
def Obligations.TamperRule : Prop :=
  (∀ (n : Nat) (s : State), sourceActive s.mode.mode n = true →
    let bitN : BitVec 12 := causeBit 12 n
    let torn : Bool := s.mode.mode == .sense && !s.mode.steps.s2 && s.lovage.atSense.controlTorn
    ∃ t : State, exec (.tamperSourceFire n) s = .next t ∧
    (s.tamperEnabled &&& bitN = 0 → t.aon = s.aon ∧ t.mode = s.mode ∧ t.lovage.hit = s.lovage.hit ||| bitN) ∧
    (s.tamperEnabled &&& bitN ≠ 0 → t.aon.alarmLatched = true ∧
      (s.aon.alarmLatched = true → t.aon.alarmSources = s.aon.alarmSources ||| bitN ∧ t.aon.alarmTick = s.aon.alarmTick ∧
        t.aon.alarmMode = s.aon.alarmMode ∧ t.mode = s.mode ∧ t.lovage.hit = s.lovage.hit ||| bitN) ∧
      (s.aon.alarmLatched = false → t.aon.alarmMode = BitVec.ofNat 4 (modeNum s.mode.mode) ∧
        (torn = false → t.aon.alarmSources = bitN ∧ t.lovage.hit = s.lovage.hit ||| bitN) ∧
        (torn = true → t.lovage.hit = s.lovage.hit ||| bitN ||| causeBit 12 10 ∧
          t.aon.alarmSources = bitN ||| ((s.setLovage Lovage.atSense).tamperEnabled &&& causeBit 12 10)) ∧
        (s.mode.mode = .sense → s.mode.steps.s2 = false → t.lovage.life = s.lovage.atSense.life) ∧
        (s.mode.mode ≠ .deepSleep → t.aon.alarmTick = BitVec.ofNat 64 s.thyme.tick ∧ t.aon.alarmAon = 0) ∧
        (s.mode.mode = .deepSleep → t.aon.alarmTick = BitVec.ofNat 64 s.aon.deepTick ∧ t.aon.alarmAon = BitVec.ofNat 48 s.aon.aonCount) ∧
        (s.mode.mode = .lightSleep ∨ s.mode.mode = .deepSleep → t.mode.mode = .sense) ∧
        (s.mode.mode ≠ .lightSleep → s.mode.mode ≠ .deepSleep → t.mode.mode = .alarm)))) ∧
  (∀ s : State, s.mode.aborting = true → (s.fennel.jobs = [] ∨ s.aon.alarmTick.toNat + 6250 ≤ s.thyme.tick) →
    ∃ t : State, exec .alarmPortsStop s = .next t ∧ t.mode = { s.mode with aborting := false } ∧ t.fennel.jobs = [] ∧ t.txns = [] ∧
      t.dill.lines = [] ∧ t.aon = s.aon) ∧
  (∀ (src : From) (s : State), s.windowWrite src = true → s.mode.mode = .alarm →
    (s.mode.aborting = false → s.dill.rp.held = [] → exec (.alarmClear src) s = .next { s with aon := { s.aon with alarmLatched := false } }) ∧
    (s.mode.aborting = false → s.dill.rp.held ≠ [] → exec (.alarmClear src) s = .next (s.holdAccess (.write src 0x80088 4 0x80000000))) ∧
    (s.mode.aborting = true → exec (.alarmClear src) s = .next s))

/-! ## Integrity and registers -/

/-- Faults inside the block (R265, R376 to R378, R381, R382, R393 to R395, R499, Table 12.2): the half that its own check blames leaves its pair, and rejoins or is retired by its test; a unit whose halves neither check blames repeats its work; an uncorrectable word of an element in use is counted, while SORREL runs, and answered by its element; a word corrected on two scrubs in a row takes one of four spare rows at the next tick boundary; a failed noise cell is disconnected; the clock monitor changes PLLs at the next tick boundary, unless start-up has retired the other one; a failed register interface stays failed. Model's readings it rests on: notes/assumptions/63, 64 and 65. -/
def Obligations.FaultRule : Prop :=
  (∀ (u : LockUnit) (a b : Bool) (s : State), s.mainRuns = true →
    (∀ y, s.halvesOf u = (.inPair, y) → ∃ t : State, exec (.lockstepMismatch u .halfA a b) s = .next t ∧ t.halvesOf u = (.left, y)) ∧
    (∀ x, s.halvesOf u = (x, .inPair) → ∃ t : State, exec (.lockstepMismatch u .halfB a b) s = .next t ∧ t.halvesOf u = (x, .left)) ∧
    (s.halvesOf u = (.inPair, .inPair) → ∃ t : State, exec (.lockstepMismatch u .neither a b) s = .next t ∧
      t.halvesOf u = (if a then .left else .inPair, if b then .left else .inPair) ∧
      (u = .thyme → t.thyme.idle = true) ∧ (u ≠ .thyme → u ∈ t.sorrel.repeating))) ∧
  (∀ (u : LockUnit) (pass : Bool) (s : State), s.mainRuns = true → (u = .thyme → s.test? 7 0 true = none) →
    let new : Half := if pass then .inPair else .retired
    (∀ y, s.halvesOf u = (.left, y) → ∃ t : State, exec (.halfRejoin u false pass) s = .next t ∧ t.halvesOf u = (new, y)) ∧
    (∀ x, s.halvesOf u = (x, .left) → ∃ t : State, exec (.halfRejoin u true pass) s = .next t ∧ t.halvesOf u = (x, new))) ∧
  (∀ (e : Element) (s : State), s.elementRuns e = true →
    (s.mainRuns = false → exec (.uncorrectableError e) s = .next (s.elementLost e).flow) ∧
    (s.mainRuns = true → exec (.uncorrectableError e) s = .next (s.countUe.elementLost e).flow) ∧ (s.countUe.elementLost e).sorrel.ue = satInc s.sorrel.ue ∧
      (∀ q c j, e = .jobState q c → s.job? q (BitVec.ofNat 17 c) = some j → j.status = none →
        (s.countUe.elementLost e).endedWith q (BitVec.ofNat 17 c) .poisoned) ∧
      (∀ n, e = .curveEntry n → ∀ x ∈ (s.countUe.elementLost e).basil.curves, x.1 ≠ n)) ∧
  (∀ (m w : Nat) (s : State), s.mainRuns = true →
    let x := s.sorrel
    let rest := x.scrubSeen.filter fun v => v != (m, w)
    let free : Prop := (x.scrubSeen.contains (m, w)) = true ∧ (x.spareRows.filter fun v => v.1 == m).length < 4
    exec (.scrub m w false) s = .next { s with sorrel := { x with scrubSeen := rest } } ∧
    (free → exec (.scrub m w true) s = .next ({ s with sorrel := { x with ce := satInc x.ce, scrubSeen := rest } }.addChange (.spareRow m w)) ∧
      s.applyChange (.spareRow m w) = { s with sorrel := { x with spareRows := x.spareRows ++ [(m, w)], spared := satInc x.spared } }) ∧
    (¬free → exec (.scrub m w true) s = .next { s with sorrel := { x with ce := satInc x.ce, scrubSeen := rest ++ [(m, w)] } })) ∧
  (∀ (i : Nat) (s : State), s.mainRuns = true → s.sorrel.cells[i]? = some true →
    ∃ t : State, exec (.entropyHealthFail i) s = .next t ∧ t.sorrel = { s.sorrel with cells := s.sorrel.cells.set i false }) ∧
  (∀ s : State,
    (s.mainRuns = true → ((true, !s.sorrel.pllCore) ∉ s.sorrel.pllBad → exec (.pllSwitch true) s = .next (s.addChange (.pll true))) ∧
      ((true, !s.sorrel.pllCore) ∈ s.sorrel.pllBad → exec (.pllSwitch true) s = .next s)) ∧
    (s.mode.timeOn = true → ((false, !s.sorrel.pllTime) ∉ s.sorrel.pllBad → exec (.pllSwitch false) s = .next (s.addChange (.pll false))) ∧
      ((false, !s.sorrel.pllTime) ∈ s.sorrel.pllBad → exec (.pllSwitch false) s = .next s)) ∧
    s.applyChange (.pll true) = { s with sorrel := { s.sorrel with pllCore := !s.sorrel.pllCore } } ∧
    s.applyChange (.pll false) = { s with sorrel := { s.sorrel with pllTime := !s.sorrel.pllTime } } ∧
    (s.mainRuns = true → exec .registerInterfaceFail s = .next { s with sorrel := { s.sorrel with regIfFailed := true } }))

/-- RC_COUNTER_READ, REGISTER_WRITE and what a read returns (R12 to R14, R87, R238, R322, R398, R463, R474 to R482, R488): a read counter clears; a setup register takes its writable bits at the next boundary unless its lock is set, a lock bit only ever gets set and locks from then on, in Service a P3 write of an RWL register sets its lock and no more, the debug port writes it whatever the lock, and a write of another width is ignored; a write-one-to-clear bit clears; a queue page's status and a mailbox page's registers are written by those who may. A setup register reads the last value written, a locked one the value in force, without its reserved bits; a status register reads as it stood at the start of the tick; write-only and reserved places read zero, and so does what the reader may not read. Model's readings it rests on: notes/assumptions/67, 111, 113 and 135. -/
def Obligations.RegisterRule : Prop :=
  (∀ (src : From) (c : RcCounter) (s : State),
    (s.windowWrite src = true → s.dill.rp.held = [] → ∃ t : State, exec (.rcCounterRead src c) s = .next t ∧ t.sorrel.counter c = 0 ∧
      t.outbox = s.outbox ++ [.readData ((s.sorrel.counter c).setWidth 64)] ∧ ∀ d, d ≠ c → t.sorrel.counter d = s.sorrel.counter d) ∧
    (s.windowWrite src = true → s.dill.rp.held ≠ [] → exec (.rcCounterRead src c) s = .next (s.holdAccess (.count src c))) ∧
    (s.windowWrite src = false → s.mainRuns = true →
      exec (.rcCounterRead src c) s = .next { s with outbox := s.outbox ++ [.readData 0] })) ∧
  (∀ (src : From) (s : State), s.unitWrite src = true → s.dill.rp.held ≠ [] → ∀ (a size : Nat) (v : BitVec 64), a < 0x200000 →
    exec (.registerWrite src false a size v) s = .next (s.holdAccess (.write src a size v))) ∧
  (∀ (src : From) (s : State), s.unitWrite src = true → s.dill.rp.held = [] →
    (∀ (a size : Nat) (v : BitVec 64) (r : RegSpec), a < 0x200000 → regSpecs.find? (·.addr == a) = some r →
      let w := Instr.registerWrite src false a size v
      let locked : Prop := (∃ l, r.lock = some l ∧ bit (s.regSoon l) 31 = true) ∨ s.rpHolds a = true
      let away : Prop := 0x58000 ≤ a ∧ a < 0x58100 ∧ s.rpMode = false
      let isLock : Prop := r.lock = some r.addr
      let keep := if isLock then s.regSoon r.addr &&& 0x80000000 else 0
      let setOver : Prop := r.lock.isSome = true ∧ (s.mode.mode = .service ∨ s.mode.mode = .degraded)
      (size ≠ r.size ∨ locked ∨ away → exec w s = .next s) ∧
      (size = r.size → ¬locked → ¬away → ¬setOver → exec w s =
        .next (s.addChange (.setup r.addr (BitVec.ofNat 64 ((v.toNat &&& r.mask) ||| keep))))) ∧
      (size = r.size → ¬locked → setOver → exec w s = .next (if isLock ∧ bit v.toNat 31 = true
        then s.addChange (.setup r.addr (BitVec.ofNat 64 (s.regSoon r.addr ||| 0x80000000))) else s))) ∧
    (∀ v : BitVec 64,
      exec (.registerWrite src false 0x11C 4 v) s = .next { s with aon := { s.aon with resetCause := s.aon.resetCause &&& ~~~(v.setWidth 6) } } ∧
      exec (.registerWrite src false 0x118 4 v) s = .next { s with aon := { s.aon with wakeCause := s.aon.wakeCause &&& ~~~(v.setWidth 4) } } ∧
      exec (.registerWrite src false 0x80084 4 v) s = .next { s with lovage := { s.lovage with hit := s.lovage.hit &&& ~~~(v.setWidth 12) } })) ∧
  (∀ (src : From) (s : State), s.debugWrites = true → ∀ (a : Nat) (v : BitVec 64) (r : RegSpec), a < 0x58000 ∨ 0x58100 ≤ a → a < 0x200000 →
    regSpecs.find? (·.addr == a) = some r → exec (.registerWrite src true a r.size v) s = .next (s.addChange (.setup r.addr
      (BitVec.ofNat 64 ((v.toNat &&& r.mask) ||| if r.lock = some r.addr then s.regSoon r.addr &&& 0x80000000 else 0))))) ∧
  (∀ (src : From) (q : Nat) (v : BitVec 64) (s : State) (x : Queue), q < 1024 →
    s.pagesOpen = true → s.writeHeld src.domain = false → s.fennel.arrivals.length < 64 → s.queue? q = some x →
    s.resetting src.domain = false →
    let w := Instr.registerWrite src false (0x400000 + 4096 * q + 0x108) 4 v
    (src.port ≠ .p1 → src.domain = x.domain → ∃ t : State, exec w s = .next t ∧ t.still = (s.setQueue q fun y => { y with
      dbError := y.dbError && !v.getLsbD 27, pushDiscard := y.pushDiscard && !v.getLsbD 26 }).still) ∧
    (src.port = .p1 ∨ src.domain ≠ x.domain → ∃ t : State, exec w s = .next t ∧ t.still = s.still)) ∧
  (∀ (src : From) (page : Nat) (v : BitVec 64) (s : State) (x : Domain), page < 512 → page ≠ 0 → s.pagesOpen = true →
    s.eventHold src.domain = false → src.port ≠ .p1 → s.resetting src.domain = false → s.domain? page = some x →
    let is (off : Nat) (f : Domain → Domain) : Prop := ∃ t : State,
      exec (.registerWrite src false (0x200000 + 4096 * page + off) 4 v) s = .next t ∧ t.still = (s.setDomain page f).still
    (src.domain = 0 → is 0x820 (fun x => { x with mig := { x.mig with head := v.setWidth 32 } }) ∧
      is 0x810 fun x => { x with mailbox := { x.mailbox with m2tErr := x.mailbox.m2tErr && !v.getLsbD 25 } }) ∧
    (src.domain = page → is 0x810 fun x => { x with mailbox := { x.mailbox with t2mErr := x.mailbox.t2mErr && !v.getLsbD 26 } }) ∧
    (src.domain ≠ 0 → is 0x820 id)) ∧
  (∀ (src : From) (s : State) (a : Nat), a < 0x200000 →
    (s.windowWrite src = true → ∀ r, regSpecs.find? (·.addr == a) = some r → s.readAccess src a r.size = BitVec.ofNat 64
      (if 0x80040 ≤ a ∧ a < 0x80070 then 0 else (if r.lock.isSome = true then s.regN a else s.regSoon a) &&& r.mask)) ∧
    (s.windowWrite src = true → a % 4 = 0 → s.register a = none → s.register (a - 4) = none → s.readAccess src a 4 = 0) ∧
    (s.windowWrite src = true → s.readAccess src 0x10000 8 = BitVec.ofNat 64 (assocD s.shown 0x10000 s.thyme.tick) ∧
      s.readAccess src 0x11C 4 = s.aon.resetCause.setWidth 64 ∧ s.readAccess src 0x80084 4 = s.lovage.hit.setWidth 64) ∧
    assocD s.latchStatus.shown 0x10000 0 = s.thyme.tick ∧
    (s.windowWrite src = false → a ≠ 0x80000 → ∀ size, s.readAccess src a size = 0)) ∧
  (∀ (src : From) (s : State) (q off size : Nat) (x : Queue), off < 4096 → s.queue? q = some x →
    let read (o : Nat) := s.readAccess src (0x400000 + 4096 * q + o) size
    (src.domain = x.domain → src.port ≠ .p1 →
      read 0x100 = BitVec.ofNat 64 (s.status (0x400000 + 4096 * q + 0x100) x.head.toNat) ∧
      read 0x108 = BitVec.ofNat 64 (s.status (0x400000 + 4096 * q + 0x108) x.status) ∧
      (off ≠ 0x100 → off ≠ 0x108 → read off = 0)) ∧
    (src.domain ≠ x.domain ∨ src.port = .p1 → read off = 0)) ∧
  ∀ (src : From) (s : State) (page off size : Nat) (x : Domain), page < 512 → off < 4096 → s.domain? page = some x →
    let read (o : Nat) := s.readAccess src (0x200000 + 4096 * page + o) size
    (page ≠ 0 → src.port ≠ .p1 → src.domain = 0 ∨ (src.domain = page ∧ (off < 0x820 ∨ 0x830 ≤ off)) → read off = s.pageWord x off size) ∧
    (page ≠ 0 → src.domain = page → 0x820 ≤ off → off < 0x830 → read off = 0) ∧
    (page = 0 ∨ src.port = .p1 ∨ (src.domain ≠ page ∧ src.domain ≠ 0) → read off = 0)

/-! ## What holds of every command -/

/-- OTP is one-time (R399): no command, not even a loss of power in the middle of a copy, clears a bit of any copy of any word. -/
def Obligations.OtpOnlyGrows : Prop :=
  ∀ (i : Instr) (s t : State) (w : Nat), exec i s = .next t →
    let m := s.lovage.mono' w
    let n := t.lovage.mono' w
    let v := s.lovage.val' w
    let x := t.lovage.val' w
    n.a &&& m.a = m.a ∧ n.b &&& m.b = m.b ∧ n.c &&& m.c = m.c ∧ x.a.bits &&& v.a.bits = v.a.bits ∧ x.b.bits &&& v.b.bits = v.b.bits

/-- The alarm latch stays (R413, R414, R417): while it is set, no command but ALARM_CLEAR and a loss or release of the PD_AON supply clears it or changes the mode and the tick that it holds, and its sources only grow. -/
def Obligations.AlarmLatchStays : Prop :=
  ∀ (i : Instr) (s t : State), exec i s = .next t → s.aon.alarmLatched = true →
    (∀ src, i ≠ .alarmClear src) → i ≠ .powerOnReset → i ≠ .pdAonSupplyLoss →
    t.aon.alarmLatched = true ∧ t.aon.alarmMode = s.aon.alarmMode ∧ t.aon.alarmTick = s.aon.alarmTick ∧
      t.aon.alarmSources &&& s.aon.alarmSources = s.aon.alarmSources

/-- Time moves at boundaries, at an applied step and where PD_TIME is lost, and nowhere else (R30, R289, R290, Table 14.6): every other command leaves the tick number and SAGE's counter as they were. The addend's correction, the one in force and the one that waits, stays within the clamp of R288, so that the addend stays positive. -/
def Obligations.TimeMovesOnlyBy : Prop :=
  (∀ (i : Instr) (s t : State), exec i s = .next t → (∀ x, i ≠ .tickBoundary x) → i ≠ .stepApplied → i ≠ .deviceReset →
    i ≠ .powerOnReset → i ≠ .pdAonSupplyLoss → i ≠ .drainedPoint → t.thyme.tick = s.thyme.tick ∧ t.sage.now = s.sage.now) ∧
  (let clamped (g : Sage) : Prop := (-adjLimit ≤ g.adj ∧ g.adj ≤ adjLimit) ∧ ∀ a, g.adjNext = some a → -adjLimit ≤ a ∧ a ≤ adjLimit
   clamped State.reset.sage ∧ (∀ (i : Instr) (s t : State), exec i s = .next t → clamped s.sage → clamped t.sage) ∧
   ∀ g : Sage, clamped g → 0 < addend0 + g.adj)

/-- Every mailbox area is in canonical form: rising offsets, no entry equal to zero, which is what an unlisted byte reads as. The form is the model's choice (notes/assumptions/11). It holds at reset, and every step keeps it, of the domains and of those that wait for their tick. -/
def Obligations.MailboxAreasCanonical : Prop :=
  let inv (s : State) : Prop := (∀ x ∈ s.domains, Memory.wf x.mailbox.area = true) ∧
    ∀ x e, Change.addDomain x e ∈ s.admin.changes → Memory.wf x.mailbox.area = true
  inv State.reset ∧ ∀ s t : State, inv s → step s = .next t → inv t

/-- THYME's borrowing credit is a signed 24-bit value: at reset, and after every command, every credit of both units lies from -8,388,608 to 8,388,607. It saturates: what a domain with a slice gains at the start of borrowing, and what a borrowed slot costs it, is the value that R53 gives, or the end that it has passed; a domain with no slice has credit 0, as R53 says (R491). -/
def Obligations.BorrowingCreditSaturates : Prop :=
  let held (s : State) : Prop := ∀ u x, x ∈ s.credits u → -8388608 ≤ x.2 ∧ x.2 ≤ 8388607
  let is (v w : Int) : Prop := (-8388608 ≤ v → v ≤ 8388607 → w = v) ∧ (8388607 < v → w = 8388607) ∧ (v < -8388608 → w = -8388608)
  held State.reset ∧ (∀ (i : Instr) (s t : State), exec i s = .next t → held s → held t) ∧
  ∀ (s : State) (u : LaneKind),
    (∀ (m : Nat) (x : Nat × Int), x ∈ (s.addWeights u m).credits u → ∃ p ∈ s.borrowers, p.1 = x.1 ∧
      (s.wants p.1 u m = true → is (assocD (s.credits u) p.1 0 + (p.2.weight : Int)) x.2) ∧ (s.wants p.1 u m = false → x.2 = 0)) ∧
    ∀ d, is (assocD (s.credits u) d 0 - 256) (assocD ((s.payCredit u d).credits u) d 0)
end

