-- ==== Sys2Proof/Laws/Answers.lean ====
section
/-! SUPPORT. Every command answers a next state: no command of Duern is undefined, and none stops the block (notes/assumptions/9). -/

namespace Sys2Proof.Machine

/-- The answer is a next state. -/
def Ans.isNext (a : Ans) : Prop := ∃ t : State, a = .next t

theorem done_isNext (s : State) : Ans.isNext (done s) := ⟨s, rfl⟩

theorem onSome_isNext {α : Type} (o : Option α) (s : State) (f : α → State) : Ans.isNext (onSome o s f) := by
  cases o
  · exact ⟨_, rfl⟩
  · exact ⟨_, rfl⟩

theorem guarded_isNext (b : Bool) (s : State) (f : State → State) : Ans.isNext (guarded b s f) := by
  cases b
  · exact ⟨_, rfl⟩
  · exact ⟨_, rfl⟩

theorem ite_isNext (c : Prop) [Decidable c] (a b : Ans) (ha : a.isNext) (hb : b.isNext) : Ans.isNext (if c then a else b) := by
  split
  · exact ha
  · exact hb


theorem execSnoop_isNext (port stag d n : Nat) (ok : Bool) (s : State) : Ans.isNext (execSnoop port stag d n ok s) := by
  unfold execSnoop
  split
  · exact done_isNext _
  · split
    · exact done_isNext _
    · split
      · dsimp only
        split
        · exact done_isNext _
        · exact done_isNext _
      · exact done_isNext _

theorem execEnterService_isNext (s : State) : Ans.isNext (execEnterService s) := by
  unfold execEnterService
  dsimp only
  split
  · split
    · exact done_isNext _
    · exact done_isNext _
  · exact guarded_isNext _ _ _



theorem execTickBoundary_isNext (checks : TickChecks) (s : State) : Ans.isNext (execTickBoundary checks s) := by
  unfold execTickBoundary
  exact guarded_isNext _ _ _

theorem execSliceResult_isNext (kind : LaneKind) (lane : Nat) (gen : BitVec 12) (verdict : Verdict) (signature : BitVec 64) (s : State) : Ans.isNext (execSliceResult kind lane gen verdict signature s) := by
  unfold execSliceResult
  exact onSome_isNext _ _ _

theorem execEpochBoundary_isNext (s : State) : Ans.isNext (execEpochBoundary s) := by
  unfold execEpochBoundary
  exact guarded_isNext _ _ _

theorem execDoorbell_isNext (src : From) (q : Nat) (w : BitVec 32) (s : State) : Ans.isNext (execDoorbell src q w s) := by
  unfold execDoorbell
  exact guarded_isNext _ _ _

theorem execDisable_isNext (src : From) (q : Nat) (w : BitVec 32) (s : State) : Ans.isNext (execDisable src q w s) := by
  unfold execDisable
  exact guarded_isNext _ _ _

theorem execEnable_isNext (src : From) (q : Nat) (w : BitVec 32) (s : State) : Ans.isNext (execEnable src q w s) := by
  unfold execEnable
  exact guarded_isNext _ _ _

theorem execPushWindowWrite_isNext (src : From) (q offset : Nat) (data : Bytes) (s : State) : Ans.isNext (execPushWindowWrite src q offset data s) := by
  unfold execPushWindowWrite
  exact guarded_isNext _ _ _

theorem execPush_isNext (q : Nat) (parityError : Bool) (s : State) : Ans.isNext (execPush q parityError s) := by
  unfold execPush
  exact onSome_isNext _ _ _

theorem execPushHalfTimeout_isNext (q : Nat) (s : State) : Ans.isNext (execPushHalfTimeout q s) := by
  unfold execPushHalfTimeout
  exact onSome_isNext _ _ _

theorem execEntryReadResponse_isNext (port tag : Nat) (data : ReadData) (s : State) : Ans.isNext (execEntryReadResponse port tag data s) := by
  unfold execEntryReadResponse
  exact onSome_isNext _ _ _

theorem execAuxBlockReadResponse_isNext (port tag : Nat) (data : ReadData) (s : State) : Ans.isNext (execAuxBlockReadResponse port tag data s) := by
  unfold execAuxBlockReadResponse
  exact onSome_isNext _ _ _

theorem execFragmentTableReadResponse_isNext (port tag : Nat) (data : ReadData) (s : State) : Ans.isNext (execFragmentTableReadResponse port tag data s) := by
  unfold execFragmentTableReadResponse
  exact onSome_isNext _ _ _

theorem execPayloadReadResponse_isNext (port tag : Nat) (data : ReadData) (s : State) : Ans.isNext (execPayloadReadResponse port tag data s) := by
  unfold execPayloadReadResponse
  exact onSome_isNext _ _ _

theorem execWriteResponse_isNext (port tag : Nat) (checkFails : Bool) (s : State) : Ans.isNext (execWriteResponse port tag checkFails s) := by
  unfold execWriteResponse
  exact onSome_isNext _ _ _

theorem execCompletionConfirm_isNext (port tag : Nat) (s : State) : Ans.isNext (execCompletionConfirm port tag s) := by
  unfold execCompletionConfirm
  exact onSome_isNext _ _ _

theorem execCoalescingTimer_isNext (q : Nat) (s : State) : Ans.isNext (execCoalescingTimer q s) := by
  unfold execCoalescingTimer
  exact onSome_isNext _ _ _

theorem execP2Credit_isNext (s : State) : Ans.isNext (execP2Credit s) := by
  unfold execP2Credit
  exact done_isNext _

theorem execLinkDown_isNext (domain : Nat) (s : State) : Ans.isNext (execLinkDown domain s) := by
  unfold execLinkDown
  exact guarded_isNext _ _ _

theorem execLinkUp_isNext (domain : Nat) (s : State) : Ans.isNext (execLinkUp domain s) := by
  unfold execLinkUp
  exact guarded_isNext _ _ _

theorem execRequesterReset_isNext (src : From) (s : State) : Ans.isNext (execRequesterReset src s) := by
  unfold execRequesterReset
  exact guarded_isNext _ _ _

theorem execFlr_isNext (domain : Nat) (s : State) : Ans.isNext (execFlr domain s) := by
  unfold execFlr
  exact guarded_isNext _ _ _

theorem execFabricErrorResponse_isNext (port tag : Nat) (s : State) : Ans.isNext (execFabricErrorResponse port tag s) := by
  unfold execFabricErrorResponse
  exact onSome_isNext _ _ _

theorem execReadTruncated_isNext (port tag beats : Nat) (data : ReadData) (byCheck : Bool) (s : State) : Ans.isNext (execReadTruncated port tag beats data byCheck s) := by
  unfold execReadTruncated
  exact onSome_isNext _ _ _

theorem execWriteTruncated_isNext (port tag : Nat) (s : State) : Ans.isNext (execWriteTruncated port tag s) := by
  unfold execWriteTruncated
  exact onSome_isNext _ _ _

theorem execCheckResponse_isNext (port tag : Nat) (s : State) : Ans.isNext (execCheckResponse port tag s) := by
  unfold execCheckResponse
  exact onSome_isNext _ _ _

theorem execEgressCheckFail_isNext (port tag : Nat) (s : State) : Ans.isNext (execEgressCheckFail port tag s) := by
  unfold execEgressCheckFail
  exact onSome_isNext _ _ _

theorem execPortTestResult_isNext (port : Nat) (pass : Bool) (s : State) : Ans.isNext (execPortTestResult port pass s) := by
  unfold execPortTestResult
  exact guarded_isNext _ _ _

theorem execSuspendedPortReadTimeout_isNext (port : Nat) (s : State) : Ans.isNext (execSuspendedPortReadTimeout port s) := by
  unfold execSuspendedPortReadTimeout
  exact guarded_isNext _ _ _

theorem execPortRst_isNext (port : Nat) (s : State) : Ans.isNext (execPortRst port s) := by
  unfold execPortRst
  exact guarded_isNext _ _ _

theorem execKeyLoadResponse_isNext (reqId : BitVec 16) (outcome : KbOutcome) (payload : Bytes) (s : State) : Ans.isNext (execKeyLoadResponse reqId outcome payload s) := by
  unfold execKeyLoadResponse
  exact onSome_isNext _ _ _

theorem execSlotWaitRetry_isNext (q : Nat) (c : BitVec 17) (s : State) : Ans.isNext (execSlotWaitRetry q c s) := by
  unfold execSlotWaitRetry
  exact onSome_isNext _ _ _

theorem execUseReserveResponse_isNext (reqId : BitVec 16) (outcome : KbOutcome) (at' g : Nat) (start : State) : Ans.isNext (execUseReserveResponse reqId outcome at' g start) := by
  unfold execUseReserveResponse
  exact onSome_isNext _ _ _

theorem execKeyRevoke_isNext (handle : Nat) (destroyed : Bool) (s : State) : Ans.isNext (execKeyRevoke handle destroyed s) := by
  unfold execKeyRevoke
  exact guarded_isNext _ _ _

theorem execKeyBusRequestLost_isNext (reqId : BitVec 16) (s : State) : Ans.isNext (execKeyBusRequestLost reqId s) := by
  unfold execKeyBusRequestLost
  exact onSome_isNext _ _ _

theorem execUnwrapSlotSwitch_isNext (domain handle : Nat) (s : State) : Ans.isNext (execUnwrapSlotSwitch domain handle s) := by
  unfold execUnwrapSlotSwitch
  exact onSome_isNext _ _ _

theorem execJnlWriteResponse_isNext (reqId : BitVec 16) (outcome : KbOutcome) (s : State) : Ans.isNext (execJnlWriteResponse reqId outcome s) := by
  unfold execJnlWriteResponse
  exact onSome_isNext _ _ _

theorem execCompactionStep_isNext (s : State) : Ans.isNext (execCompactionStep s) := by
  unfold execCompactionStep
  exact onSome_isNext _ _ _

theorem execJnlReadResponse_isNext (reqId : BitVec 16) (data : Bytes) (s : State) : Ans.isNext (execJnlReadResponse reqId data s) := by
  unfold execJnlReadResponse
  exact onSome_isNext _ _ _

theorem execJnlEraseResponse_isNext (reqId : BitVec 16) (outcome : KbOutcome) (s : State) : Ans.isNext (execJnlEraseResponse reqId outcome s) := by
  unfold execJnlEraseResponse
  exact onSome_isNext _ _ _

theorem execJournalRecovery_isNext (s : State) : Ans.isNext (execJournalRecovery s) := by
  unfold execJournalRecovery
  exact guarded_isNext _ _ _

theorem execClaimResponse_isNext (port tag : Nat) (s : State) : Ans.isNext (execClaimResponse port tag s) := by
  unfold execClaimResponse
  exact onSome_isNext _ _ _

theorem execEvictResponse_isNext (port tag : Nat) (superseded : Bool) (s : State) : Ans.isNext (execEvictResponse port tag superseded s) := by
  unfold execEvictResponse
  exact onSome_isNext _ _ _

theorem execContextRestore_isNext (port tag : Nat) (data : ReadData) (s : State) : Ans.isNext (execContextRestore port tag data s) := by
  unfold execContextRestore
  exact onSome_isNext _ _ _

theorem execBasilOperationEnd_isNext (seq : Nat) (s : State) : Ans.isNext (execBasilOperationEnd seq s) := by
  unfold execBasilOperationEnd
  exact onSome_isNext _ _ _

theorem execCandidateBudgetExhausted_isNext (seq : Nat) (s : State) : Ans.isNext (execCandidateBudgetExhausted seq s) := by
  unfold execCandidateBudgetExhausted
  exact onSome_isNext _ _ _

theorem execMicrocodeVerificationEnd_isNext (s : State) : Ans.isNext (execMicrocodeVerificationEnd s) := by
  unfold execMicrocodeVerificationEnd
  exact onSome_isNext _ _ _

theorem execMicrocodeReload_isNext (s : State) : Ans.isNext (execMicrocodeReload s) := by
  unfold execMicrocodeReload
  exact guarded_isNext _ _ _

theorem execMicrocodeBankUncorrectable_isNext (bankB : Bool) (s : State) : Ans.isNext (execMicrocodeBankUncorrectable bankB s) := by
  unfold execMicrocodeBankUncorrectable
  exact guarded_isNext _ _ _

theorem execAesGcmEncrypt_isNext (q : Nat) (c : BitVec 17) (s : State) : Ans.isNext (execAesGcmEncrypt q c s) := by
  unfold execAesGcmEncrypt
  exact onSome_isNext _ _ _

theorem execAesGcmDecrypt_isNext (q : Nat) (c : BitVec 17) (s : State) : Ans.isNext (execAesGcmDecrypt q c s) := by
  unfold execAesGcmDecrypt
  exact onSome_isNext _ _ _

theorem execGmacGenerate_isNext (q : Nat) (c : BitVec 17) (s : State) : Ans.isNext (execGmacGenerate q c s) := by
  unfold execGmacGenerate
  exact onSome_isNext _ _ _

theorem execGmacVerify_isNext (q : Nat) (c : BitVec 17) (s : State) : Ans.isNext (execGmacVerify q c s) := by
  unfold execGmacVerify
  exact onSome_isNext _ _ _

theorem execAesCcmEncrypt_isNext (q : Nat) (c : BitVec 17) (s : State) : Ans.isNext (execAesCcmEncrypt q c s) := by
  unfold execAesCcmEncrypt
  exact onSome_isNext _ _ _

theorem execAesCcmDecrypt_isNext (q : Nat) (c : BitVec 17) (s : State) : Ans.isNext (execAesCcmDecrypt q c s) := by
  unfold execAesCcmDecrypt
  exact onSome_isNext _ _ _

theorem execAesXtsEncrypt_isNext (q : Nat) (c : BitVec 17) (s : State) : Ans.isNext (execAesXtsEncrypt q c s) := by
  unfold execAesXtsEncrypt
  exact onSome_isNext _ _ _

theorem execAesXtsDecrypt_isNext (q : Nat) (c : BitVec 17) (s : State) : Ans.isNext (execAesXtsDecrypt q c s) := by
  unfold execAesXtsDecrypt
  exact onSome_isNext _ _ _

theorem execAesCbcEncrypt_isNext (q : Nat) (c : BitVec 17) (s : State) : Ans.isNext (execAesCbcEncrypt q c s) := by
  unfold execAesCbcEncrypt
  exact onSome_isNext _ _ _

theorem execAesCbcDecrypt_isNext (q : Nat) (c : BitVec 17) (s : State) : Ans.isNext (execAesCbcDecrypt q c s) := by
  unfold execAesCbcDecrypt
  exact onSome_isNext _ _ _

theorem execAesCtr_isNext (q : Nat) (c : BitVec 17) (s : State) : Ans.isNext (execAesCtr q c s) := by
  unfold execAesCtr
  exact onSome_isNext _ _ _

theorem execAesSivEncrypt_isNext (q : Nat) (c : BitVec 17) (s : State) : Ans.isNext (execAesSivEncrypt q c s) := by
  unfold execAesSivEncrypt
  exact onSome_isNext _ _ _

theorem execAesSivDecrypt_isNext (q : Nat) (c : BitVec 17) (s : State) : Ans.isNext (execAesSivDecrypt q c s) := by
  unfold execAesSivDecrypt
  exact onSome_isNext _ _ _

theorem execAesCmacGenerate_isNext (q : Nat) (c : BitVec 17) (s : State) : Ans.isNext (execAesCmacGenerate q c s) := by
  unfold execAesCmacGenerate
  exact onSome_isNext _ _ _

theorem execAesCmacVerify_isNext (q : Nat) (c : BitVec 17) (s : State) : Ans.isNext (execAesCmacVerify q c s) := by
  unfold execAesCmacVerify
  exact onSome_isNext _ _ _

theorem execKeyWrap_isNext (q : Nat) (c : BitVec 17) (s : State) : Ans.isNext (execKeyWrap q c s) := by
  unfold execKeyWrap
  exact onSome_isNext _ _ _

theorem execKeyUnwrap_isNext (q : Nat) (c : BitVec 17) (s : State) : Ans.isNext (execKeyUnwrap q c s) := by
  unfold execKeyUnwrap
  exact onSome_isNext _ _ _

theorem execChacha20Poly1305Encrypt_isNext (q : Nat) (c : BitVec 17) (s : State) : Ans.isNext (execChacha20Poly1305Encrypt q c s) := by
  unfold execChacha20Poly1305Encrypt
  exact onSome_isNext _ _ _

theorem execChacha20Poly1305Decrypt_isNext (q : Nat) (c : BitVec 17) (s : State) : Ans.isNext (execChacha20Poly1305Decrypt q c s) := by
  unfold execChacha20Poly1305Decrypt
  exact onSome_isNext _ _ _

theorem execHash_isNext (q : Nat) (c : BitVec 17) (s : State) : Ans.isNext (execHash q c s) := by
  unfold execHash
  exact onSome_isNext _ _ _

theorem execHmacGenerate_isNext (q : Nat) (c : BitVec 17) (s : State) : Ans.isNext (execHmacGenerate q c s) := by
  unfold execHmacGenerate
  exact onSome_isNext _ _ _

theorem execHmacVerify_isNext (q : Nat) (c : BitVec 17) (s : State) : Ans.isNext (execHmacVerify q c s) := by
  unfold execHmacVerify
  exact onSome_isNext _ _ _

theorem execEncryptThenMac_isNext (q : Nat) (c : BitVec 17) (s : State) : Ans.isNext (execEncryptThenMac q c s) := by
  unfold execEncryptThenMac
  exact onSome_isNext _ _ _

theorem execVerifyThenDecrypt_isNext (q : Nat) (c : BitVec 17) (s : State) : Ans.isNext (execVerifyThenDecrypt q c s) := by
  unfold execVerifyThenDecrypt
  exact onSome_isNext _ _ _

theorem execRsaPrivate_isNext (q : Nat) (c : BitVec 17) (s : State) : Ans.isNext (execRsaPrivate q c s) := by
  unfold execRsaPrivate
  exact onSome_isNext _ _ _

theorem execRsaPublic_isNext (q : Nat) (c : BitVec 17) (s : State) : Ans.isNext (execRsaPublic q c s) := by
  unfold execRsaPublic
  exact onSome_isNext _ _ _

theorem execEcdsaSign_isNext (q : Nat) (c : BitVec 17) (s : State) : Ans.isNext (execEcdsaSign q c s) := by
  unfold execEcdsaSign
  exact onSome_isNext _ _ _

theorem execEcdsaVerify_isNext (q : Nat) (c : BitVec 17) (s : State) : Ans.isNext (execEcdsaVerify q c s) := by
  unfold execEcdsaVerify
  exact onSome_isNext _ _ _

theorem execEcdh_isNext (q : Nat) (c : BitVec 17) (s : State) : Ans.isNext (execEcdh q c s) := by
  unfold execEcdh
  exact onSome_isNext _ _ _

theorem execKeyGeneration_isNext (q : Nat) (c : BitVec 17) (s : State) : Ans.isNext (execKeyGeneration q c s) := by
  unfold execKeyGeneration
  exact onSome_isNext _ _ _

theorem execEddsaSign_isNext (q : Nat) (c : BitVec 17) (s : State) : Ans.isNext (execEddsaSign q c s) := by
  unfold execEddsaSign
  exact onSome_isNext _ _ _

theorem execEddsaVerify_isNext (q : Nat) (c : BitVec 17) (s : State) : Ans.isNext (execEddsaVerify q c s) := by
  unfold execEddsaVerify
  exact onSome_isNext _ _ _

theorem execX25519_isNext (q : Nat) (c : BitVec 17) (s : State) : Ans.isNext (execX25519 q c s) := by
  unfold execX25519
  exact onSome_isNext _ _ _

theorem execMlKemKeyGeneration_isNext (q : Nat) (c : BitVec 17) (s : State) : Ans.isNext (execMlKemKeyGeneration q c s) := by
  unfold execMlKemKeyGeneration
  exact onSome_isNext _ _ _

theorem execMlKemEncapsulation_isNext (q : Nat) (c : BitVec 17) (s : State) : Ans.isNext (execMlKemEncapsulation q c s) := by
  unfold execMlKemEncapsulation
  exact onSome_isNext _ _ _

theorem execMlKemDecapsulation_isNext (q : Nat) (c : BitVec 17) (s : State) : Ans.isNext (execMlKemDecapsulation q c s) := by
  unfold execMlKemDecapsulation
  exact onSome_isNext _ _ _

theorem execMlDsaKeyGeneration_isNext (q : Nat) (c : BitVec 17) (s : State) : Ans.isNext (execMlDsaKeyGeneration q c s) := by
  unfold execMlDsaKeyGeneration
  exact onSome_isNext _ _ _

theorem execMlDsaSign_isNext (q : Nat) (c : BitVec 17) (s : State) : Ans.isNext (execMlDsaSign q c s) := by
  unfold execMlDsaSign
  exact onSome_isNext _ _ _

theorem execMlDsaVerify_isNext (q : Nat) (c : BitVec 17) (s : State) : Ans.isNext (execMlDsaVerify q c s) := by
  unfold execMlDsaVerify
  exact onSome_isNext _ _ _

theorem execCurveLoad_isNext (q : Nat) (c : BitVec 17) (s : State) : Ans.isNext (execCurveLoad q c s) := by
  unfold execCurveLoad
  exact onSome_isNext _ _ _

theorem execTimeStatementRequest_isNext (q : Nat) (c : BitVec 17) (s : State) : Ans.isNext (execTimeStatementRequest q c s) := by
  unfold execTimeStatementRequest
  exact onSome_isNext _ _ _

theorem execPtpEgress_isNext (c : BitVec 17) (s : State) : Ans.isNext (execPtpEgress c s) := by
  unfold execPtpEgress
  exact onSome_isNext _ _ _

theorem execPtpIngressVerify_isNext (c : BitVec 17) (s : State) : Ans.isNext (execPtpIngressVerify c s) := by
  unfold execPtpIngressVerify
  exact onSome_isNext _ _ _

theorem execNtsClientRequest_isNext (c : BitVec 17) (s : State) : Ans.isNext (execNtsClientRequest c s) := by
  unfold execNtsClientRequest
  exact onSome_isNext _ _ _

theorem execNtsClientResponseVerify_isNext (c : BitVec 17) (s : State) : Ans.isNext (execNtsClientResponseVerify c s) := by
  unfold execNtsClientResponseVerify
  exact onSome_isNext _ _ _

theorem execNtsServerExchange_isNext (c : BitVec 17) (s : State) : Ans.isNext (execNtsServerExchange c s) := by
  unfold execNtsServerExchange
  exact onSome_isNext _ _ _

theorem execAdjust_isNext (c : BitVec 17) (s : State) : Ans.isNext (execAdjust c s) := by
  unfold execAdjust
  exact onSome_isNext _ _ _

theorem execStep_isNext (c : BitVec 17) (s : State) : Ans.isNext (execStep c s) := by
  unfold execStep
  exact onSome_isNext _ _ _

theorem execSample_isNext (c : BitVec 17) (s : State) : Ans.isNext (execSample c s) := by
  unfold execSample
  exact onSome_isNext _ _ _

theorem execModeSelect_isNext (c : BitVec 17) (s : State) : Ans.isNext (execModeSelect c s) := by
  unfold execModeSelect
  exact onSome_isNext _ _ _

theorem execKeyEntry_isNext (c : BitVec 17) (s : State) : Ans.isNext (execKeyEntry c s) := by
  unfold execKeyEntry
  exact onSome_isNext _ _ _

theorem execUtc_isNext (c : BitVec 17) (s : State) : Ans.isNext (execUtc c s) := by
  unfold execUtc
  exact onSome_isNext _ _ _

theorem execFence_isNext (q : Nat) (c : BitVec 17) (s : State) : Ans.isNext (execFence q c s) := by
  unfold execFence
  exact onSome_isNext _ _ _

theorem execNoOp_isNext (q : Nat) (c : BitVec 17) (s : State) : Ans.isNext (execNoOp q c s) := by
  unfold execNoOp
  exact onSome_isNext _ _ _

theorem execHoldoverEntry_isNext (s : State) : Ans.isNext (execHoldoverEntry s) := by
  unfold execHoldoverEntry
  exact guarded_isNext _ _ _

theorem execTemperatureSample_isNext (theta : Int) (s : State) : Ans.isNext (execTemperatureSample theta s) := by
  unfold execTemperatureSample
  exact guarded_isNext _ _ _

theorem execStepApplied_isNext (s : State) : Ans.isNext (execStepApplied s) := by
  unfold execStepApplied
  exact onSome_isNext _ _ _

theorem execLeap_isNext (s : State) : Ans.isNext (execLeap s) := by
  unfold execLeap
  exact guarded_isNext _ _ _

theorem execSgInitLoad_isNext (src : From) (s : State) : Ans.isNext (execSgInitLoad src s) := by
  unfold execSgInitLoad
  exact guarded_isNext _ _ _

theorem execCounterReturn_isNext (counterB : Bool) (s : State) : Ans.isNext (execCounterReturn counterB s) := by
  unfold execCounterReturn
  exact guarded_isNext _ _ _

theorem execPipelineStart_isNext (c : BitVec 17) (s : State) : Ans.isNext (execPipelineStart c s) := by
  unfold execPipelineStart
  exact onSome_isNext _ _ _

theorem execPipelineHandover_isNext (c : BitVec 17) (refused verdictOk : Bool) (s : State) : Ans.isNext (execPipelineHandover c refused verdictOk s) := by
  unfold execPipelineHandover
  exact onSome_isNext _ _ _

theorem execTimestampStrobe_isNext (ch : Nat) (strobe : Strobe) (s : State) : Ans.isNext (execTimestampStrobe ch strobe s) := by
  unfold execTimestampStrobe
  exact guarded_isNext _ _ _

theorem execPpsInputEdge_isNext (n : Nat) (strobe : Strobe) (s : State) : Ans.isNext (execPpsInputEdge n strobe s) := by
  unfold execPpsInputEdge
  exact guarded_isNext _ _ _

theorem execPpsOutputEdge_isNext (n : Nat) (s : State) : Ans.isNext (execPpsOutputEdge n s) := by
  unfold execPpsOutputEdge
  exact onSome_isNext _ _ _

theorem execEventWrite_isNext (domain : Nat) (s : State) : Ans.isNext (execEventWrite domain s) := by
  unfold execEventWrite
  exact onSome_isNext _ _ _

theorem execEventTimeout_isNext (domain : Nat) (s : State) : Ans.isNext (execEventTimeout domain s) := by
  unfold execEventTimeout
  exact onSome_isNext _ _ _

theorem execHeadWordRead_isNext (domain : Nat) (w : BitVec 64) (s : State) : Ans.isNext (execHeadWordRead domain w s) := by
  unfold execHeadWordRead
  exact onSome_isNext _ _ _

theorem execEventWriteResponse_isNext (port tag : Nat) (s : State) : Ans.isNext (execEventWriteResponse port tag s) := by
  unfold execEventWriteResponse
  exact onSome_isNext _ _ _

theorem execDirtyLogRecordWrite_isNext (domain : Nat) (s : State) : Ans.isNext (execDirtyLogRecordWrite domain s) := by
  unfold execDirtyLogRecordWrite
  exact guarded_isNext _ _ _

theorem execOverflowClear_isNext (src : From) (page : Nat) (s : State) : Ans.isNext (execOverflowClear src page s) := by
  unfold execOverflowClear
  exact guarded_isNext _ _ _

theorem execStopped_isNext (domain : Nat) (s : State) : Ans.isNext (execStopped domain s) := by
  unfold execStopped
  exact onSome_isNext _ _ _

theorem execMbT2mDb_isNext (src : From) (page : Nat) (w : BitVec 32) (s : State) : Ans.isNext (execMbT2mDb src page w s) := by
  unfold execMbT2mDb
  exact guarded_isNext _ _ _

theorem execMbM2tDb_isNext (src : From) (page : Nat) (w : BitVec 32) (s : State) : Ans.isNext (execMbM2tDb src page w s) := by
  unfold execMbM2tDb
  exact guarded_isNext _ _ _

theorem execT2mAck_isNext (src : From) (page : Nat) (s : State) : Ans.isNext (execT2mAck src page s) := by
  unfold execT2mAck
  exact guarded_isNext _ _ _

theorem execM2tAck_isNext (src : From) (page : Nat) (s : State) : Ans.isNext (execM2tAck src page s) := by
  unfold execM2tAck
  exact guarded_isNext _ _ _

theorem execMailboxDisable_isNext (src : From) (page : Nat) (w : BitVec 32) (s : State) : Ans.isNext (execMailboxDisable src page w s) := by
  unfold execMailboxDisable
  exact guarded_isNext _ _ _

theorem execMailboxEnable_isNext (src : From) (page : Nat) (w : BitVec 32) (s : State) : Ans.isNext (execMailboxEnable src page w s) := by
  unfold execMailboxEnable
  exact guarded_isNext _ _ _

theorem execMailboxAreaWrite_isNext (src : From) (page offset : Nat) (data : Bytes) (s : State) : Ans.isNext (execMailboxAreaWrite src page offset data s) := by
  unfold execMailboxAreaWrite
  exact guarded_isNext _ _ _

theorem execIdentify_isNext (c : BitVec 17) (s : State) : Ans.isNext (execIdentify c s) := by
  unfold execIdentify
  exact onSome_isNext _ _ _

theorem execGetLogDeferredError_isNext (c : BitVec 17) (s : State) : Ans.isNext (execGetLogDeferredError c s) := by
  unfold execGetLogDeferredError
  exact onSome_isNext _ _ _

theorem execGetLogPlan_isNext (c : BitVec 17) (s : State) : Ans.isNext (execGetLogPlan c s) := by
  unfold execGetLogPlan
  exact onSome_isNext _ _ _

theorem execGetLogMigrationState_isNext (c : BitVec 17) (s : State) : Ans.isNext (execGetLogMigrationState c s) := by
  unfold execGetLogMigrationState
  exact onSome_isNext _ _ _

theorem execGetLogSelfTest_isNext (c : BitVec 17) (s : State) : Ans.isNext (execGetLogSelfTest c s) := by
  unfold execGetLogSelfTest
  exact onSome_isNext _ _ _

theorem execGetFeaturesInterruptCoalescing_isNext (c : BitVec 17) (s : State) : Ans.isNext (execGetFeaturesInterruptCoalescing c s) := by
  unfold execGetFeaturesInterruptCoalescing
  exact onSome_isNext _ _ _

theorem execGetFeaturesEventQueue_isNext (c : BitVec 17) (s : State) : Ans.isNext (execGetFeaturesEventQueue c s) := by
  unfold execGetFeaturesEventQueue
  exact onSome_isNext _ _ _

theorem execGetFeaturesMigrationControl_isNext (c : BitVec 17) (s : State) : Ans.isNext (execGetFeaturesMigrationControl c s) := by
  unfold execGetFeaturesMigrationControl
  exact onSome_isNext _ _ _

theorem execSetFeaturesInterruptCoalescing_isNext (c : BitVec 17) (s : State) : Ans.isNext (execSetFeaturesInterruptCoalescing c s) := by
  unfold execSetFeaturesInterruptCoalescing
  exact onSome_isNext _ _ _

theorem execSetFeaturesEventQueue_isNext (c : BitVec 17) (s : State) : Ans.isNext (execSetFeaturesEventQueue c s) := by
  unfold execSetFeaturesEventQueue
  exact onSome_isNext _ _ _

theorem execLogStart_isNext (c : BitVec 17) (s : State) : Ans.isNext (execLogStart c s) := by
  unfold execLogStart
  exact onSome_isNext _ _ _

theorem execStop_isNext (c : BitVec 17) (s : State) : Ans.isNext (execStop c s) := by
  unfold execStop
  exact onSome_isNext _ _ _

theorem execLogEnd_isNext (c : BitVec 17) (s : State) : Ans.isNext (execLogEnd c s) := by
  unfold execLogEnd
  exact onSome_isNext _ _ _

theorem execRestoreCount_isNext (c : BitVec 17) (s : State) : Ans.isNext (execRestoreCount c s) := by
  unfold execRestoreCount
  exact onSome_isNext _ _ _

theorem execMicrocodeDownload_isNext (c : BitVec 17) (s : State) : Ans.isNext (execMicrocodeDownload c s) := by
  unfold execMicrocodeDownload
  exact onSome_isNext _ _ _

theorem execMicrocodeActivate_isNext (c : BitVec 17) (s : State) : Ans.isNext (execMicrocodeActivate c s) := by
  unfold execMicrocodeActivate
  exact onSome_isNext _ _ _

theorem execCreateQueue_isNext (c : BitVec 17) (s : State) : Ans.isNext (execCreateQueue c s) := by
  unfold execCreateQueue
  exact onSome_isNext _ _ _

theorem execDeleteQueue_isNext (c : BitVec 17) (s : State) : Ans.isNext (execDeleteQueue c s) := by
  unfold execDeleteQueue
  exact onSome_isNext _ _ _

theorem execDomainCreate_isNext (c : BitVec 17) (s : State) : Ans.isNext (execDomainCreate c s) := by
  unfold execDomainCreate
  exact onSome_isNext _ _ _

theorem execDomainResize_isNext (c : BitVec 17) (s : State) : Ans.isNext (execDomainResize c s) := by
  unfold execDomainResize
  exact onSome_isNext _ _ _

theorem execDomainReset_isNext (c : BitVec 17) (s : State) : Ans.isNext (execDomainReset c s) := by
  unfold execDomainReset
  exact onSome_isNext _ _ _

theorem execDomainDelete_isNext (c : BitVec 17) (s : State) : Ans.isNext (execDomainDelete c s) := by
  unfold execDomainDelete
  exact onSome_isNext _ _ _

theorem execDomainResetComplete_isNext (domain : Nat) (s : State) : Ans.isNext (execDomainResetComplete domain s) := by
  unfold execDomainResetComplete
  exact onSome_isNext _ _ _

theorem execSelfTestChiveLane_isNext (c : BitVec 17) (s : State) : Ans.isNext (execSelfTestChiveLane c s) := by
  unfold execSelfTestChiveLane
  exact onSome_isNext _ _ _

theorem execSelfTestBunch_isNext (c : BitVec 17) (s : State) : Ans.isNext (execSelfTestBunch c s) := by
  unfold execSelfTestBunch
  exact onSome_isNext _ _ _

theorem execSelfTestDillLane_isNext (c : BitVec 17) (s : State) : Ans.isNext (execSelfTestDillLane c s) := by
  unfold execSelfTestDillLane
  exact onSome_isNext _ _ _

theorem execSelfTestBasilSequencer_isNext (c : BitVec 17) (s : State) : Ans.isNext (execSelfTestBasilSequencer c s) := by
  unfold execSelfTestBasilSequencer
  exact onSome_isNext _ _ _

theorem execSelfTestMemoryDataPort_isNext (c : BitVec 17) (s : State) : Ans.isNext (execSelfTestMemoryDataPort c s) := by
  unfold execSelfTestMemoryDataPort
  exact onSome_isNext _ _ _

theorem execSelfTestSageStandbyCounter_isNext (c : BitVec 17) (s : State) : Ans.isNext (execSelfTestSageStandbyCounter c s) := by
  unfold execSelfTestSageStandbyCounter
  exact onSome_isNext _ _ _

theorem execSelfTestThymeLockstepPair_isNext (c : BitVec 17) (s : State) : Ans.isNext (execSelfTestThymeLockstepPair c s) := by
  unfold execSelfTestThymeLockstepPair
  exact onSome_isNext _ _ _

theorem execSelfTestKeyBusLane_isNext (c : BitVec 17) (s : State) : Ans.isNext (execSelfTestKeyBusLane c s) := by
  unfold execSelfTestKeyBusLane
  exact onSome_isNext _ _ _

theorem execSelfTestEntropySource_isNext (c : BitVec 17) (s : State) : Ans.isNext (execSelfTestEntropySource c s) := by
  unfold execSelfTestEntropySource
  exact onSome_isNext _ _ _

theorem execSelfTestStart_isNext (kind index : Nat) (s : State) : Ans.isNext (execSelfTestStart kind index s) := by
  unfold execSelfTestStart
  exact onSome_isNext _ _ _

theorem execSelfTestTimeout_isNext (kind index : Nat) (s : State) : Ans.isNext (execSelfTestTimeout kind index s) := by
  unfold execSelfTestTimeout
  exact onSome_isNext _ _ _

theorem execSelfTestEnd_isNext (kind index : Nat) (pass : Bool) (s : State) : Ans.isNext (execSelfTestEnd kind index pass s) := by
  unfold execSelfTestEnd
  exact onSome_isNext _ _ _

theorem execLoadKeyByHandle_isNext (c : BitVec 17) (s : State) : Ans.isNext (execLoadKeyByHandle c s) := by
  unfold execLoadKeyByHandle
  exact onSome_isNext _ _ _

theorem execLoadKeyAesKw_isNext (c : BitVec 17) (s : State) : Ans.isNext (execLoadKeyAesKw c s) := by
  unfold execLoadKeyAesKw
  exact onSome_isNext _ _ _

theorem execLoadKeyAesKwp_isNext (c : BitVec 17) (s : State) : Ans.isNext (execLoadKeyAesKwp c s) := by
  unfold execLoadKeyAesKwp
  exact onSome_isNext _ _ _

theorem execPostedLoadRun_isNext (load : BitVec 32) (s : State) : Ans.isNext (execPostedLoadRun load s) := by
  unfold execPostedLoadRun
  exact onSome_isNext _ _ _

theorem execRegisterPathOpen_isNext (src : From) (s : State) : Ans.isNext (execRegisterPathOpen src s) := by
  unfold execRegisterPathOpen
  exact guarded_isNext _ _ _

theorem execRegisterPathFinish_isNext (src : From) (s : State) : Ans.isNext (execRegisterPathFinish src s) := by
  unfold execRegisterPathFinish
  exact guarded_isNext _ _ _

theorem execRegisterPathClose_isNext (src : From) (s : State) : Ans.isNext (execRegisterPathClose src s) := by
  unfold execRegisterPathClose
  exact guarded_isNext _ _ _

theorem execDgRpData_isNext (src : From) (word : BitVec 64) (s : State) : Ans.isNext (execDgRpData src word s) := by
  unfold execDgRpData
  exact guarded_isNext _ _ _

theorem execDgRpLast_isNext (src : From) (word : BitVec 64) (s : State) : Ans.isNext (execDgRpLast src word s) := by
  unfold execDgRpLast
  exact guarded_isNext _ _ _

theorem execRegisterPathDone_isNext (s : State) : Ans.isNext (execRegisterPathDone s) := by
  unfold execRegisterPathDone
  exact guarded_isNext _ _ _

theorem execRegisterPathDataError_isNext (s : State) : Ans.isNext (execRegisterPathDataError s) := by
  unfold execRegisterPathDataError
  exact guarded_isNext _ _ _

theorem execGo_isNext (src : From) (s : State) : Ans.isNext (execGo src s) := by
  unfold execGo
  exact guarded_isNext _ _ _

theorem execResume_isNext (src : From) (s : State) : Ans.isNext (execResume src s) := by
  unfold execResume
  exact guarded_isNext _ _ _

theorem execDrain_isNext (src : From) (s : State) : Ans.isNext (execDrain src s) := by
  unfold execDrain
  exact guarded_isNext _ _ _

theorem execQuiesce_isNext (src : From) (s : State) : Ans.isNext (execQuiesce src s) := by
  unfold execQuiesce
  exact guarded_isNext _ _ _

theorem execLightSleep_isNext (src : From) (s : State) : Ans.isNext (execLightSleep src s) := by
  unfold execLightSleep
  exact guarded_isNext _ _ _

theorem execDeepSleep_isNext (src : From) (s : State) : Ans.isNext (execDeepSleep src s) := by
  unfold execDeepSleep
  exact guarded_isNext _ _ _

theorem execProvision_isNext (src : From) (s : State) : Ans.isNext (execProvision src s) := by
  unfold execProvision
  exact guarded_isNext _ _ _

theorem execReset_isNext (src : From) (s : State) : Ans.isNext (execReset src s) := by
  unfold execReset
  exact guarded_isNext _ _ _

theorem execDrainedPoint_isNext (s : State) : Ans.isNext (execDrainedPoint s) := by
  unfold execDrainedPoint
  exact guarded_isNext _ _ _

theorem execDrainLimitExpiry_isNext (s : State) : Ans.isNext (execDrainLimitExpiry s) := by
  unfold execDrainLimitExpiry
  exact guarded_isNext _ _ _

theorem execWakeTimer_isNext (s : State) : Ans.isNext (execWakeTimer s) := by
  unfold execWakeTimer
  exact guarded_isNext _ _ _

theorem execWakeIn_isNext (s : State) : Ans.isNext (execWakeIn s) := by
  unfold execWakeIn
  exact guarded_isNext _ _ _

theorem execPowerOnReset_isNext (s : State) : Ans.isNext (execPowerOnReset s) := by
  unfold execPowerOnReset
  exact guarded_isNext _ _ _

theorem execDeviceReset_isNext (s : State) : Ans.isNext (execDeviceReset s) := by
  unfold execDeviceReset
  exact guarded_isNext _ _ _

theorem execMainReset_isNext (s : State) : Ans.isNext (execMainReset s) := by
  unfold execMainReset
  exact guarded_isNext _ _ _

theorem execPdAonSupplyLoss_isNext (s : State) : Ans.isNext (execPdAonSupplyLoss s) := by
  unfold execPdAonSupplyLoss
  exact done_isNext _

theorem execSense_isNext (s : State) : Ans.isNext (execSense s) := by
  unfold execSense
  exact guarded_isNext _ _ _

theorem execStartupTestsEnd_isNext (found : StartupFindings) (s : State) : Ans.isNext (execStartupTestsEnd found s) := by
  unfold execStartupTestsEnd
  exact guarded_isNext _ _ _

theorem execTransition_isNext (src : From) (code : BitVec 32) (s : State) : Ans.isNext (execTransition src code s) := by
  unfold execTransition
  exact guarded_isNext _ _ _

theorem execOtpCopyDone_isNext (readBack : Bool) (holdupOk : Bool) (s : State) : Ans.isNext (execOtpCopyDone readBack holdupOk s) := by
  unfold execOtpCopyDone
  exact onSome_isNext _ _ _

theorem execProgramInstanceSlot_isNext (src : From) (index : Nat) (s : State) : Ans.isNext (execProgramInstanceSlot src index s) := by
  unfold execProgramInstanceSlot
  exact guarded_isNext _ _ _

theorem execProgramEcdsaDigest_isNext (src : From) (index : Nat) (s : State) : Ans.isNext (execProgramEcdsaDigest src index s) := by
  unfold execProgramEcdsaDigest
  exact guarded_isNext _ _ _

theorem execProgramMlDsaDigest_isNext (src : From) (index : Nat) (s : State) : Ans.isNext (execProgramMlDsaDigest src index s) := by
  unfold execProgramMlDsaDigest
  exact guarded_isNext _ _ _

theorem execRevokeEcdsaKey_isNext (src : From) (index : Nat) (s : State) : Ans.isNext (execRevokeEcdsaKey src index s) := by
  unfold execRevokeEcdsaKey
  exact guarded_isNext _ _ _

theorem execRevokeMlDsaKey_isNext (src : From) (index : Nat) (s : State) : Ans.isNext (execRevokeMlDsaKey src index s) := by
  unfold execRevokeMlDsaKey
  exact guarded_isNext _ _ _

theorem execTamperSourceFire_isNext (source : Nat) (s : State) : Ans.isNext (execTamperSourceFire source s) := by
  unfold execTamperSourceFire
  exact guarded_isNext _ _ _

theorem execAlarmPortsStop_isNext (s : State) : Ans.isNext (execAlarmPortsStop s) := by
  unfold execAlarmPortsStop
  exact guarded_isNext _ _ _

theorem execAlarmClear_isNext (src : From) (s : State) : Ans.isNext (execAlarmClear src s) := by
  unfold execAlarmClear
  exact guarded_isNext _ _ _

theorem execRequest_isNext (src : From) (cls : Nat) (s : State) : Ans.isNext (execRequest src cls s) := by
  unfold execRequest
  exact guarded_isNext _ _ _

theorem execSubmit_isNext (src : From) (s : State) : Ans.isNext (execSubmit src s) := by
  unfold execSubmit
  exact guarded_isNext _ _ _

theorem execDebugClose_isNext (src : From) (s : State) : Ans.isNext (execDebugClose src s) := by
  unfold execDebugClose
  exact guarded_isNext _ _ _

theorem execDebugOpen_isNext (src : From) (cls : Nat) (s : State) : Ans.isNext (execDebugOpen src cls s) := by
  unfold execDebugOpen
  exact guarded_isNext _ _ _

theorem execDebugResponseChecked_isNext (s : State) : Ans.isNext (execDebugResponseChecked s) := by
  unfold execDebugResponseChecked
  exact onSome_isNext _ _ _

theorem execChallengeExpiry_isNext (s : State) : Ans.isNext (execChallengeExpiry s) := by
  unfold execChallengeExpiry
  exact onSome_isNext _ _ _

theorem execLockstepMismatch_isNext (unit : LockUnit) (blame : Blame) (aTestFails bTestFails : Bool) (s : State) : Ans.isNext (execLockstepMismatch unit blame aTestFails bTestFails s) := by
  unfold execLockstepMismatch
  exact guarded_isNext _ _ _

theorem execHalfRejoin_isNext (unit : LockUnit) (halfB : Bool) (pass : Bool) (s : State) : Ans.isNext (execHalfRejoin unit halfB pass s) := by
  unfold execHalfRejoin
  exact guarded_isNext _ _ _

theorem execUncorrectableError_isNext (element : Element) (s : State) : Ans.isNext (execUncorrectableError element s) := by
  unfold execUncorrectableError
  exact guarded_isNext _ _ _

theorem execScrub_isNext (memory word : Nat) (corrected : Bool) (s : State) : Ans.isNext (execScrub memory word corrected s) := by
  unfold execScrub
  exact guarded_isNext _ _ _

theorem execEntropyHealthFail_isNext (cell : Nat) (s : State) : Ans.isNext (execEntropyHealthFail cell s) := by
  unfold execEntropyHealthFail
  exact guarded_isNext _ _ _

theorem execPllSwitch_isNext (coreClock : Bool) (s : State) : Ans.isNext (execPllSwitch coreClock s) := by
  unfold execPllSwitch
  exact guarded_isNext _ _ _

theorem execRegisterInterfaceFail_isNext (s : State) : Ans.isNext (execRegisterInterfaceFail s) := by
  unfold execRegisterInterfaceFail
  exact guarded_isNext _ _ _

theorem execKbRst_isNext (lane : Nat) (s : State) : Ans.isNext (execKbRst lane s) := by
  unfold execKbRst
  exact guarded_isNext _ _ _

theorem execLinkUpLow_isNext (lane : Nat) (s : State) : Ans.isNext (execLinkUpLow lane s) := by
  unfold execLinkUpLow
  exact guarded_isNext _ _ _

theorem execEchoResponse_isNext (lane : Nat) (intact : Bool) (s : State) : Ans.isNext (execEchoResponse lane intact s) := by
  unfold execEchoResponse
  split
  · exact done_isNext _
  · exact guarded_isNext _ _ _

theorem execRcCounterRead_isNext (src : From) (counter : RcCounter) (s : State) : Ans.isNext (execRcCounterRead src counter s) := by
  unfold execRcCounterRead
  exact guarded_isNext _ _ _

theorem execRegisterWrite_isNext (src : From) (viaDebug : Bool) (addr size : Nat) (value : BitVec 64) (s : State) : Ans.isNext (execRegisterWrite src viaDebug addr size value s) := by
  unfold execRegisterWrite
  exact ite_isNext _ _ _ (ite_isNext _ _ _ (guarded_isNext _ _ _) (guarded_isNext _ _ _))
    (ite_isNext _ _ _ (done_isNext _) (ite_isNext _ _ _ (guarded_isNext _ _ _) (ite_isNext _ _ _ (done_isNext _) (guarded_isNext _ _ _))))

theorem execMainGood_isNext (s : State) : Ans.isNext (execMainGood s) := by
  unfold execMainGood
  exact guarded_isNext _ _ _

theorem execTimeGood_isNext (s : State) : Ans.isNext (execTimeGood s) := by
  unfold execTimeGood
  exact guarded_isNext _ _ _

theorem execEntropyStartUpTestsEnd_isNext (s : State) : Ans.isNext (execEntropyStartUpTestsEnd s) := by
  unfold execEntropyStartUpTestsEnd
  exact guarded_isNext _ _ _

/-- Every command answers a next state. -/
theorem exec_isNext (i : Instr) (s : State) : Ans.isNext (exec i s) := by
  cases i with
  | tickBoundary _ => exact execTickBoundary_isNext ..
  | sliceResult _ _ _ _ _ => exact execSliceResult_isNext ..
  | epochBoundary => exact execEpochBoundary_isNext ..
  | doorbell _ _ _ => exact execDoorbell_isNext ..
  | disable _ _ _ => exact execDisable_isNext ..
  | enable _ _ _ => exact execEnable_isNext ..
  | pushWindowWrite _ _ _ _ => exact execPushWindowWrite_isNext ..
  | push _ _ => exact execPush_isNext ..
  | pushHalfTimeout _ => exact execPushHalfTimeout_isNext ..
  | entryReadResponse _ _ _ => exact execEntryReadResponse_isNext ..
  | auxBlockReadResponse _ _ _ => exact execAuxBlockReadResponse_isNext ..
  | fragmentTableReadResponse _ _ _ => exact execFragmentTableReadResponse_isNext ..
  | payloadReadResponse _ _ _ => exact execPayloadReadResponse_isNext ..
  | writeResponse _ _ _ => exact execWriteResponse_isNext ..
  | completionConfirm _ _ => exact execCompletionConfirm_isNext ..
  | coalescingTimer _ => exact execCoalescingTimer_isNext ..
  | p2Credit => exact execP2Credit_isNext ..
  | linkDown _ => exact execLinkDown_isNext ..
  | linkUp _ => exact execLinkUp_isNext ..
  | requesterReset _ => exact execRequesterReset_isNext ..
  | flr _ => exact execFlr_isNext ..
  | fabricErrorResponse _ _ => exact execFabricErrorResponse_isNext ..
  | readTruncated _ _ _ _ _ => exact execReadTruncated_isNext ..
  | writeTruncated _ _ => exact execWriteTruncated_isNext ..
  | checkResponse _ _ => exact execCheckResponse_isNext ..
  | egressCheckFail _ _ => exact execEgressCheckFail_isNext ..
  | portTestResult _ _ => exact execPortTestResult_isNext ..
  | suspendedPortReadTimeout _ => exact execSuspendedPortReadTimeout_isNext ..
  | portRst _ => exact execPortRst_isNext ..
  | keyLoadResponse _ _ _ => exact execKeyLoadResponse_isNext ..
  | slotWaitRetry _ _ => exact execSlotWaitRetry_isNext ..
  | useReserveResponse _ _ _ _ => exact execUseReserveResponse_isNext ..
  | keyRevoke _ _ => exact execKeyRevoke_isNext ..
  | keyBusRequestLost _ => exact execKeyBusRequestLost_isNext ..
  | unwrapSlotSwitch _ _ => exact execUnwrapSlotSwitch_isNext ..
  | jnlWriteResponse _ _ => exact execJnlWriteResponse_isNext ..
  | compactionStep => exact execCompactionStep_isNext ..
  | jnlReadResponse _ _ => exact execJnlReadResponse_isNext ..
  | jnlEraseResponse _ _ => exact execJnlEraseResponse_isNext ..
  | journalRecovery => exact execJournalRecovery_isNext ..
  | claimResponse _ _ => exact execClaimResponse_isNext ..
  | evictResponse _ _ x => exact execEvictResponse_isNext _ _ x _
  | snoop _ _ _ _ _ => exact execSnoop_isNext ..
  | contextRestore _ _ _ => exact execContextRestore_isNext ..
  | basilOperationEnd _ => exact execBasilOperationEnd_isNext ..
  | candidateBudgetExhausted _ => exact execCandidateBudgetExhausted_isNext ..
  | microcodeVerificationEnd => exact execMicrocodeVerificationEnd_isNext ..
  | microcodeReload => exact execMicrocodeReload_isNext ..
  | microcodeBankUncorrectable _ => exact execMicrocodeBankUncorrectable_isNext ..
  | aesGcmEncrypt _ _ => exact execAesGcmEncrypt_isNext ..
  | aesGcmDecrypt _ _ => exact execAesGcmDecrypt_isNext ..
  | gmacGenerate _ _ => exact execGmacGenerate_isNext ..
  | gmacVerify _ _ => exact execGmacVerify_isNext ..
  | aesCcmEncrypt _ _ => exact execAesCcmEncrypt_isNext ..
  | aesCcmDecrypt _ _ => exact execAesCcmDecrypt_isNext ..
  | aesXtsEncrypt _ _ => exact execAesXtsEncrypt_isNext ..
  | aesXtsDecrypt _ _ => exact execAesXtsDecrypt_isNext ..
  | aesCbcEncrypt _ _ => exact execAesCbcEncrypt_isNext ..
  | aesCbcDecrypt _ _ => exact execAesCbcDecrypt_isNext ..
  | aesCtr _ _ => exact execAesCtr_isNext ..
  | aesSivEncrypt _ _ => exact execAesSivEncrypt_isNext ..
  | aesSivDecrypt _ _ => exact execAesSivDecrypt_isNext ..
  | aesCmacGenerate _ _ => exact execAesCmacGenerate_isNext ..
  | aesCmacVerify _ _ => exact execAesCmacVerify_isNext ..
  | keyWrap _ _ => exact execKeyWrap_isNext ..
  | keyUnwrap _ _ => exact execKeyUnwrap_isNext ..
  | chacha20Poly1305Encrypt _ _ => exact execChacha20Poly1305Encrypt_isNext ..
  | chacha20Poly1305Decrypt _ _ => exact execChacha20Poly1305Decrypt_isNext ..
  | hash _ _ => exact execHash_isNext ..
  | hmacGenerate _ _ => exact execHmacGenerate_isNext ..
  | hmacVerify _ _ => exact execHmacVerify_isNext ..
  | encryptThenMac _ _ => exact execEncryptThenMac_isNext ..
  | verifyThenDecrypt _ _ => exact execVerifyThenDecrypt_isNext ..
  | rsaPrivate _ _ => exact execRsaPrivate_isNext ..
  | rsaPublic _ _ => exact execRsaPublic_isNext ..
  | ecdsaSign _ _ => exact execEcdsaSign_isNext ..
  | ecdsaVerify _ _ => exact execEcdsaVerify_isNext ..
  | ecdh _ _ => exact execEcdh_isNext ..
  | keyGeneration _ _ => exact execKeyGeneration_isNext ..
  | eddsaSign _ _ => exact execEddsaSign_isNext ..
  | eddsaVerify _ _ => exact execEddsaVerify_isNext ..
  | x25519 _ _ => exact execX25519_isNext ..
  | mlKemKeyGeneration _ _ => exact execMlKemKeyGeneration_isNext ..
  | mlKemEncapsulation _ _ => exact execMlKemEncapsulation_isNext ..
  | mlKemDecapsulation _ _ => exact execMlKemDecapsulation_isNext ..
  | mlDsaKeyGeneration _ _ => exact execMlDsaKeyGeneration_isNext ..
  | mlDsaSign _ _ => exact execMlDsaSign_isNext ..
  | mlDsaVerify _ _ => exact execMlDsaVerify_isNext ..
  | curveLoad _ _ => exact execCurveLoad_isNext ..
  | timeStatementRequest _ _ => exact execTimeStatementRequest_isNext ..
  | ptpEgress _ => exact execPtpEgress_isNext ..
  | ptpIngressVerify _ => exact execPtpIngressVerify_isNext ..
  | ntsClientRequest _ => exact execNtsClientRequest_isNext ..
  | ntsClientResponseVerify _ => exact execNtsClientResponseVerify_isNext ..
  | ntsServerExchange _ => exact execNtsServerExchange_isNext ..
  | adjust _ => exact execAdjust_isNext ..
  | step _ => exact execStep_isNext ..
  | sample _ => exact execSample_isNext ..
  | modeSelect _ => exact execModeSelect_isNext ..
  | keyEntry _ => exact execKeyEntry_isNext ..
  | utc _ => exact execUtc_isNext ..
  | fence _ _ => exact execFence_isNext ..
  | noOp _ _ => exact execNoOp_isNext ..
  | holdoverEntry => exact execHoldoverEntry_isNext ..
  | temperatureSample _ => exact execTemperatureSample_isNext ..
  | stepApplied => exact execStepApplied_isNext ..
  | leap => exact execLeap_isNext ..
  | sgInitLoad _ => exact execSgInitLoad_isNext ..
  | counterReturn _ => exact execCounterReturn_isNext ..
  | pipelineStart _ => exact execPipelineStart_isNext ..
  | pipelineHandover _ _ _ => exact execPipelineHandover_isNext ..
  | timestampStrobe _ _ => exact execTimestampStrobe_isNext ..
  | ppsInputEdge _ _ => exact execPpsInputEdge_isNext ..
  | ppsOutputEdge _ => exact execPpsOutputEdge_isNext ..
  | eventWrite _ => exact execEventWrite_isNext ..
  | eventTimeout _ => exact execEventTimeout_isNext ..
  | headWordRead _ _ => exact execHeadWordRead_isNext ..
  | eventWriteResponse _ _ => exact execEventWriteResponse_isNext ..
  | dirtyLogRecordWrite _ => exact execDirtyLogRecordWrite_isNext ..
  | overflowClear _ _ => exact execOverflowClear_isNext ..
  | stopped _ => exact execStopped_isNext ..
  | mbT2mDb _ _ _ => exact execMbT2mDb_isNext ..
  | mbM2tDb _ _ _ => exact execMbM2tDb_isNext ..
  | t2mAck _ _ => exact execT2mAck_isNext ..
  | m2tAck _ _ => exact execM2tAck_isNext ..
  | mailboxDisable _ _ _ => exact execMailboxDisable_isNext ..
  | mailboxEnable _ _ _ => exact execMailboxEnable_isNext ..
  | mailboxAreaWrite _ _ _ _ => exact execMailboxAreaWrite_isNext ..
  | identify _ => exact execIdentify_isNext ..
  | getLogDeferredError _ => exact execGetLogDeferredError_isNext ..
  | getLogPlan _ => exact execGetLogPlan_isNext ..
  | getLogMigrationState _ => exact execGetLogMigrationState_isNext ..
  | getLogSelfTest _ => exact execGetLogSelfTest_isNext ..
  | getFeaturesInterruptCoalescing _ => exact execGetFeaturesInterruptCoalescing_isNext ..
  | getFeaturesEventQueue _ => exact execGetFeaturesEventQueue_isNext ..
  | getFeaturesMigrationControl _ => exact execGetFeaturesMigrationControl_isNext ..
  | setFeaturesInterruptCoalescing _ => exact execSetFeaturesInterruptCoalescing_isNext ..
  | setFeaturesEventQueue _ => exact execSetFeaturesEventQueue_isNext ..
  | logStart _ => exact execLogStart_isNext ..
  | stop _ => exact execStop_isNext ..
  | logEnd _ => exact execLogEnd_isNext ..
  | restoreCount _ => exact execRestoreCount_isNext ..
  | microcodeDownload _ => exact execMicrocodeDownload_isNext ..
  | microcodeActivate _ => exact execMicrocodeActivate_isNext ..
  | createQueue _ => exact execCreateQueue_isNext ..
  | deleteQueue _ => exact execDeleteQueue_isNext ..
  | domainCreate _ => exact execDomainCreate_isNext ..
  | domainResize _ => exact execDomainResize_isNext ..
  | domainReset _ => exact execDomainReset_isNext ..
  | domainDelete _ => exact execDomainDelete_isNext ..
  | domainResetComplete _ => exact execDomainResetComplete_isNext ..
  | selfTestChiveLane _ => exact execSelfTestChiveLane_isNext ..
  | selfTestBunch _ => exact execSelfTestBunch_isNext ..
  | selfTestDillLane _ => exact execSelfTestDillLane_isNext ..
  | selfTestBasilSequencer _ => exact execSelfTestBasilSequencer_isNext ..
  | selfTestMemoryDataPort _ => exact execSelfTestMemoryDataPort_isNext ..
  | selfTestSageStandbyCounter _ => exact execSelfTestSageStandbyCounter_isNext ..
  | selfTestThymeLockstepPair _ => exact execSelfTestThymeLockstepPair_isNext ..
  | selfTestKeyBusLane _ => exact execSelfTestKeyBusLane_isNext ..
  | selfTestEntropySource _ => exact execSelfTestEntropySource_isNext ..
  | selfTestStart _ _ => exact execSelfTestStart_isNext ..
  | selfTestTimeout _ _ => exact execSelfTestTimeout_isNext ..
  | selfTestEnd _ _ _ => exact execSelfTestEnd_isNext ..
  | loadKeyByHandle _ => exact execLoadKeyByHandle_isNext ..
  | loadKeyAesKw _ => exact execLoadKeyAesKw_isNext ..
  | loadKeyAesKwp _ => exact execLoadKeyAesKwp_isNext ..
  | postedLoadRun _ => exact execPostedLoadRun_isNext ..
  | registerPathOpen _ => exact execRegisterPathOpen_isNext ..
  | registerPathFinish _ => exact execRegisterPathFinish_isNext ..
  | registerPathClose _ => exact execRegisterPathClose_isNext ..
  | dgRpData _ _ => exact execDgRpData_isNext ..
  | dgRpLast _ _ => exact execDgRpLast_isNext ..
  | registerPathDone => exact execRegisterPathDone_isNext ..
  | registerPathDataError => exact execRegisterPathDataError_isNext ..
  | go _ => exact execGo_isNext ..
  | resume _ => exact execResume_isNext ..
  | drain _ => exact execDrain_isNext ..
  | quiesce _ => exact execQuiesce_isNext ..
  | lightSleep _ => exact execLightSleep_isNext ..
  | deepSleep _ => exact execDeepSleep_isNext ..
  | provision _ => exact execProvision_isNext ..
  | reset _ => exact execReset_isNext ..
  | drainedPoint => exact execDrainedPoint_isNext ..
  | drainLimitExpiry => exact execDrainLimitExpiry_isNext ..
  | wakeTimer => exact execWakeTimer_isNext ..
  | wakeIn => exact execWakeIn_isNext ..
  | powerOnReset => exact execPowerOnReset_isNext ..
  | deviceReset => exact execDeviceReset_isNext ..
  | mainReset => exact execMainReset_isNext ..
  | pdAonSupplyLoss => exact execPdAonSupplyLoss_isNext ..
  | sense => exact execSense_isNext ..
  | startupTestsEnd _ => exact execStartupTestsEnd_isNext ..
  | enterService => exact execEnterService_isNext ..
  | transition _ _ => exact execTransition_isNext ..
  | otpCopyDone _ _ => exact execOtpCopyDone_isNext ..
  | programInstanceSlot _ _ => exact execProgramInstanceSlot_isNext ..
  | programEcdsaDigest _ _ => exact execProgramEcdsaDigest_isNext ..
  | programMlDsaDigest _ _ => exact execProgramMlDsaDigest_isNext ..
  | revokeEcdsaKey _ _ => exact execRevokeEcdsaKey_isNext ..
  | revokeMlDsaKey _ _ => exact execRevokeMlDsaKey_isNext ..
  | tamperSourceFire _ => exact execTamperSourceFire_isNext ..
  | alarmPortsStop => exact execAlarmPortsStop_isNext ..
  | alarmClear _ => exact execAlarmClear_isNext ..
  | request _ _ => exact execRequest_isNext ..
  | submit _ => exact execSubmit_isNext ..
  | debugClose _ => exact execDebugClose_isNext ..
  | debugOpen _ _ => exact execDebugOpen_isNext ..
  | debugResponseChecked => exact execDebugResponseChecked_isNext ..
  | challengeExpiry => exact execChallengeExpiry_isNext ..
  | lockstepMismatch _ _ _ _ => exact execLockstepMismatch_isNext ..
  | halfRejoin _ _ _ => exact execHalfRejoin_isNext ..
  | uncorrectableError _ => exact execUncorrectableError_isNext ..
  | scrub _ _ _ => exact execScrub_isNext ..
  | entropyHealthFail _ => exact execEntropyHealthFail_isNext ..
  | pllSwitch _ => exact execPllSwitch_isNext ..
  | registerInterfaceFail => exact execRegisterInterfaceFail_isNext ..
  | kbRst _ => exact execKbRst_isNext ..
  | linkUpLow _ => exact execLinkUpLow_isNext ..
  | echoResponse _ _ => exact execEchoResponse_isNext ..
  | rcCounterRead _ _ => exact execRcCounterRead_isNext ..
  | registerWrite _ _ _ _ _ => exact execRegisterWrite_isNext ..
  | mainGood => exact execMainGood_isNext ..
  | timeGood => exact execTimeGood_isNext ..
  | entropyStartUpTestsEnd => exact execEntropyStartUpTestsEnd_isNext ..

/-- Every step answers a next state. -/
theorem step_isNext (s : State) : Ans.isNext (step s) := by
  unfold step
  split
  · exact ⟨_, rfl⟩
  · exact exec_isNext _ _

end Sys2Proof.Machine
end

