-- ==== Sys2Proof/Laws/State.lean ====
section
/-! SUPPORT. What the updates of State change, and what they leave: one lemma per field per update. -/

namespace Sys2Proof.Machine

section setReg
variable (s : State) (a : Nat) (v : BitVec 64)

@[simp] theorem State.setReg_mode : (s.setReg a v).mode = s.mode := rfl
@[simp] theorem State.setReg_aon : (s.setReg a v).aon = s.aon := rfl
@[simp] theorem State.setReg_lovage : (s.setReg a v).lovage = s.lovage := rfl
@[simp] theorem State.setReg_sage : (s.setReg a v).sage = s.sage := rfl
@[simp] theorem State.setReg_thyme : (s.setReg a v).thyme = s.thyme := rfl
@[simp] theorem State.setReg_sorrel : (s.setReg a v).sorrel = s.sorrel := rfl
@[simp] theorem State.setReg_fennel : (s.setReg a v).fennel = s.fennel := rfl
@[simp] theorem State.setReg_txns : (s.setReg a v).txns = s.txns := rfl
@[simp] theorem State.setReg_bay : (s.setReg a v).bay = s.bay := rfl
@[simp] theorem State.setReg_keyBus : (s.setReg a v).keyBus = s.keyBus := rfl
@[simp] theorem State.setReg_mint : (s.setReg a v).mint = s.mint := rfl
@[simp] theorem State.setReg_dill : (s.setReg a v).dill = s.dill := rfl
@[simp] theorem State.setReg_basil : (s.setReg a v).basil = s.basil := rfl
@[simp] theorem State.setReg_parsley : (s.setReg a v).parsley = s.parsley := rfl
@[simp] theorem State.setReg_domains : (s.setReg a v).domains = s.domains := rfl
@[simp] theorem State.setReg_admin : (s.setReg a v).admin = s.admin := rfl
@[simp] theorem State.setReg_outbox : (s.setReg a v).outbox = s.outbox := rfl
@[simp] theorem State.setReg_free : (s.setReg a v).free = s.free := rfl
@[simp] theorem State.setReg_pending : (s.setReg a v).pending = s.pending := rfl
@[simp] theorem State.setReg_shown : (s.setReg a v).shown = s.shown := rfl

end setReg

section setMode
variable (s : State) (f : ModeUnit → ModeUnit)

@[simp] theorem State.setMode_regs : (s.setMode f).regs = s.regs := rfl
@[simp] theorem State.setMode_aon : (s.setMode f).aon = s.aon := rfl
@[simp] theorem State.setMode_lovage : (s.setMode f).lovage = s.lovage := rfl
@[simp] theorem State.setMode_sage : (s.setMode f).sage = s.sage := rfl
@[simp] theorem State.setMode_thyme : (s.setMode f).thyme = s.thyme := rfl
@[simp] theorem State.setMode_sorrel : (s.setMode f).sorrel = s.sorrel := rfl
@[simp] theorem State.setMode_fennel : (s.setMode f).fennel = s.fennel := rfl
@[simp] theorem State.setMode_txns : (s.setMode f).txns = s.txns := rfl
@[simp] theorem State.setMode_bay : (s.setMode f).bay = s.bay := rfl
@[simp] theorem State.setMode_keyBus : (s.setMode f).keyBus = s.keyBus := rfl
@[simp] theorem State.setMode_mint : (s.setMode f).mint = s.mint := rfl
@[simp] theorem State.setMode_dill : (s.setMode f).dill = s.dill := rfl
@[simp] theorem State.setMode_basil : (s.setMode f).basil = s.basil := rfl
@[simp] theorem State.setMode_parsley : (s.setMode f).parsley = s.parsley := rfl
@[simp] theorem State.setMode_domains : (s.setMode f).domains = s.domains := rfl
@[simp] theorem State.setMode_admin : (s.setMode f).admin = s.admin := rfl
@[simp] theorem State.setMode_outbox : (s.setMode f).outbox = s.outbox := rfl
@[simp] theorem State.setMode_free : (s.setMode f).free = s.free := rfl
@[simp] theorem State.setMode_pending : (s.setMode f).pending = s.pending := rfl
@[simp] theorem State.setMode_shown : (s.setMode f).shown = s.shown := rfl

end setMode

section setLovage
variable (s : State) (f : Lovage → Lovage)

@[simp] theorem State.setLovage_mode : (s.setLovage f).mode = s.mode := rfl
@[simp] theorem State.setLovage_regs : (s.setLovage f).regs = s.regs := rfl
@[simp] theorem State.setLovage_aon : (s.setLovage f).aon = s.aon := rfl
@[simp] theorem State.setLovage_sage : (s.setLovage f).sage = s.sage := rfl
@[simp] theorem State.setLovage_thyme : (s.setLovage f).thyme = s.thyme := rfl
@[simp] theorem State.setLovage_sorrel : (s.setLovage f).sorrel = s.sorrel := rfl
@[simp] theorem State.setLovage_fennel : (s.setLovage f).fennel = s.fennel := rfl
@[simp] theorem State.setLovage_txns : (s.setLovage f).txns = s.txns := rfl
@[simp] theorem State.setLovage_bay : (s.setLovage f).bay = s.bay := rfl
@[simp] theorem State.setLovage_keyBus : (s.setLovage f).keyBus = s.keyBus := rfl
@[simp] theorem State.setLovage_mint : (s.setLovage f).mint = s.mint := rfl
@[simp] theorem State.setLovage_dill : (s.setLovage f).dill = s.dill := rfl
@[simp] theorem State.setLovage_basil : (s.setLovage f).basil = s.basil := rfl
@[simp] theorem State.setLovage_parsley : (s.setLovage f).parsley = s.parsley := rfl
@[simp] theorem State.setLovage_domains : (s.setLovage f).domains = s.domains := rfl
@[simp] theorem State.setLovage_admin : (s.setLovage f).admin = s.admin := rfl
@[simp] theorem State.setLovage_outbox : (s.setLovage f).outbox = s.outbox := rfl
@[simp] theorem State.setLovage_free : (s.setLovage f).free = s.free := rfl
@[simp] theorem State.setLovage_pending : (s.setLovage f).pending = s.pending := rfl
@[simp] theorem State.setLovage_shown : (s.setLovage f).shown = s.shown := rfl

end setLovage

section setSage
variable (s : State) (f : Sage → Sage)

@[simp] theorem State.setSage_mode : (s.setSage f).mode = s.mode := rfl
@[simp] theorem State.setSage_regs : (s.setSage f).regs = s.regs := rfl
@[simp] theorem State.setSage_aon : (s.setSage f).aon = s.aon := rfl
@[simp] theorem State.setSage_lovage : (s.setSage f).lovage = s.lovage := rfl
@[simp] theorem State.setSage_thyme : (s.setSage f).thyme = s.thyme := rfl
@[simp] theorem State.setSage_sorrel : (s.setSage f).sorrel = s.sorrel := rfl
@[simp] theorem State.setSage_fennel : (s.setSage f).fennel = s.fennel := rfl
@[simp] theorem State.setSage_txns : (s.setSage f).txns = s.txns := rfl
@[simp] theorem State.setSage_bay : (s.setSage f).bay = s.bay := rfl
@[simp] theorem State.setSage_keyBus : (s.setSage f).keyBus = s.keyBus := rfl
@[simp] theorem State.setSage_mint : (s.setSage f).mint = s.mint := rfl
@[simp] theorem State.setSage_dill : (s.setSage f).dill = s.dill := rfl
@[simp] theorem State.setSage_basil : (s.setSage f).basil = s.basil := rfl
@[simp] theorem State.setSage_parsley : (s.setSage f).parsley = s.parsley := rfl
@[simp] theorem State.setSage_domains : (s.setSage f).domains = s.domains := rfl
@[simp] theorem State.setSage_admin : (s.setSage f).admin = s.admin := rfl
@[simp] theorem State.setSage_outbox : (s.setSage f).outbox = s.outbox := rfl
@[simp] theorem State.setSage_free : (s.setSage f).free = s.free := rfl
@[simp] theorem State.setSage_pending : (s.setSage f).pending = s.pending := rfl
@[simp] theorem State.setSage_shown : (s.setSage f).shown = s.shown := rfl

end setSage

section setQueue
variable (s : State) (q : Nat) (f : Queue → Queue)

@[simp] theorem State.setQueue_mode : (s.setQueue q f).mode = s.mode := rfl
@[simp] theorem State.setQueue_regs : (s.setQueue q f).regs = s.regs := rfl
@[simp] theorem State.setQueue_aon : (s.setQueue q f).aon = s.aon := rfl
@[simp] theorem State.setQueue_lovage : (s.setQueue q f).lovage = s.lovage := rfl
@[simp] theorem State.setQueue_sage : (s.setQueue q f).sage = s.sage := rfl
@[simp] theorem State.setQueue_thyme : (s.setQueue q f).thyme = s.thyme := rfl
@[simp] theorem State.setQueue_sorrel : (s.setQueue q f).sorrel = s.sorrel := rfl
@[simp] theorem State.setQueue_txns : (s.setQueue q f).txns = s.txns := rfl
@[simp] theorem State.setQueue_bay : (s.setQueue q f).bay = s.bay := rfl
@[simp] theorem State.setQueue_keyBus : (s.setQueue q f).keyBus = s.keyBus := rfl
@[simp] theorem State.setQueue_mint : (s.setQueue q f).mint = s.mint := rfl
@[simp] theorem State.setQueue_dill : (s.setQueue q f).dill = s.dill := rfl
@[simp] theorem State.setQueue_basil : (s.setQueue q f).basil = s.basil := rfl
@[simp] theorem State.setQueue_parsley : (s.setQueue q f).parsley = s.parsley := rfl
@[simp] theorem State.setQueue_domains : (s.setQueue q f).domains = s.domains := rfl
@[simp] theorem State.setQueue_admin : (s.setQueue q f).admin = s.admin := rfl
@[simp] theorem State.setQueue_outbox : (s.setQueue q f).outbox = s.outbox := rfl
@[simp] theorem State.setQueue_free : (s.setQueue q f).free = s.free := rfl
@[simp] theorem State.setQueue_pending : (s.setQueue q f).pending = s.pending := rfl
@[simp] theorem State.setQueue_shown : (s.setQueue q f).shown = s.shown := rfl

end setQueue

section setJob
variable (s : State) (q : Nat) (c : BitVec 17) (f : Job → Job)

@[simp] theorem State.setJob_mode : (s.setJob q c f).mode = s.mode := rfl
@[simp] theorem State.setJob_regs : (s.setJob q c f).regs = s.regs := rfl
@[simp] theorem State.setJob_aon : (s.setJob q c f).aon = s.aon := rfl
@[simp] theorem State.setJob_lovage : (s.setJob q c f).lovage = s.lovage := rfl
@[simp] theorem State.setJob_sage : (s.setJob q c f).sage = s.sage := rfl
@[simp] theorem State.setJob_thyme : (s.setJob q c f).thyme = s.thyme := rfl
@[simp] theorem State.setJob_sorrel : (s.setJob q c f).sorrel = s.sorrel := rfl
@[simp] theorem State.setJob_txns : (s.setJob q c f).txns = s.txns := rfl
@[simp] theorem State.setJob_bay : (s.setJob q c f).bay = s.bay := rfl
@[simp] theorem State.setJob_keyBus : (s.setJob q c f).keyBus = s.keyBus := rfl
@[simp] theorem State.setJob_mint : (s.setJob q c f).mint = s.mint := rfl
@[simp] theorem State.setJob_dill : (s.setJob q c f).dill = s.dill := rfl
@[simp] theorem State.setJob_basil : (s.setJob q c f).basil = s.basil := rfl
@[simp] theorem State.setJob_parsley : (s.setJob q c f).parsley = s.parsley := rfl
@[simp] theorem State.setJob_domains : (s.setJob q c f).domains = s.domains := rfl
@[simp] theorem State.setJob_admin : (s.setJob q c f).admin = s.admin := rfl
@[simp] theorem State.setJob_outbox : (s.setJob q c f).outbox = s.outbox := rfl
@[simp] theorem State.setJob_free : (s.setJob q c f).free = s.free := rfl
@[simp] theorem State.setJob_pending : (s.setJob q c f).pending = s.pending := rfl
@[simp] theorem State.setJob_shown : (s.setJob q c f).shown = s.shown := rfl

end setJob

section addJob
variable (s : State) (j : Job)

@[simp] theorem State.addJob_mode : (s.addJob j).mode = s.mode := rfl
@[simp] theorem State.addJob_regs : (s.addJob j).regs = s.regs := rfl
@[simp] theorem State.addJob_aon : (s.addJob j).aon = s.aon := rfl
@[simp] theorem State.addJob_lovage : (s.addJob j).lovage = s.lovage := rfl
@[simp] theorem State.addJob_sage : (s.addJob j).sage = s.sage := rfl
@[simp] theorem State.addJob_thyme : (s.addJob j).thyme = s.thyme := rfl
@[simp] theorem State.addJob_sorrel : (s.addJob j).sorrel = s.sorrel := rfl
@[simp] theorem State.addJob_txns : (s.addJob j).txns = s.txns := rfl
@[simp] theorem State.addJob_bay : (s.addJob j).bay = s.bay := rfl
@[simp] theorem State.addJob_keyBus : (s.addJob j).keyBus = s.keyBus := rfl
@[simp] theorem State.addJob_mint : (s.addJob j).mint = s.mint := rfl
@[simp] theorem State.addJob_dill : (s.addJob j).dill = s.dill := rfl
@[simp] theorem State.addJob_basil : (s.addJob j).basil = s.basil := rfl
@[simp] theorem State.addJob_parsley : (s.addJob j).parsley = s.parsley := rfl
@[simp] theorem State.addJob_domains : (s.addJob j).domains = s.domains := rfl
@[simp] theorem State.addJob_admin : (s.addJob j).admin = s.admin := rfl
@[simp] theorem State.addJob_outbox : (s.addJob j).outbox = s.outbox := rfl
@[simp] theorem State.addJob_free : (s.addJob j).free = s.free := rfl
@[simp] theorem State.addJob_pending : (s.addJob j).pending = s.pending := rfl
@[simp] theorem State.addJob_shown : (s.addJob j).shown = s.shown := rfl

end addJob

section dropJob
variable (s : State) (q : Nat) (c : BitVec 17)

@[simp] theorem State.dropJob_mode : (s.dropJob q c).mode = s.mode := rfl
@[simp] theorem State.dropJob_regs : (s.dropJob q c).regs = s.regs := rfl
@[simp] theorem State.dropJob_aon : (s.dropJob q c).aon = s.aon := rfl
@[simp] theorem State.dropJob_lovage : (s.dropJob q c).lovage = s.lovage := rfl
@[simp] theorem State.dropJob_sage : (s.dropJob q c).sage = s.sage := rfl
@[simp] theorem State.dropJob_thyme : (s.dropJob q c).thyme = s.thyme := rfl
@[simp] theorem State.dropJob_sorrel : (s.dropJob q c).sorrel = s.sorrel := rfl
@[simp] theorem State.dropJob_txns : (s.dropJob q c).txns = s.txns := rfl
@[simp] theorem State.dropJob_bay : (s.dropJob q c).bay = s.bay := rfl
@[simp] theorem State.dropJob_keyBus : (s.dropJob q c).keyBus = s.keyBus := rfl
@[simp] theorem State.dropJob_mint : (s.dropJob q c).mint = s.mint := rfl
@[simp] theorem State.dropJob_dill : (s.dropJob q c).dill = s.dill := rfl
@[simp] theorem State.dropJob_basil : (s.dropJob q c).basil = s.basil := rfl
@[simp] theorem State.dropJob_parsley : (s.dropJob q c).parsley = s.parsley := rfl
@[simp] theorem State.dropJob_domains : (s.dropJob q c).domains = s.domains := rfl
@[simp] theorem State.dropJob_admin : (s.dropJob q c).admin = s.admin := rfl
@[simp] theorem State.dropJob_outbox : (s.dropJob q c).outbox = s.outbox := rfl
@[simp] theorem State.dropJob_free : (s.dropJob q c).free = s.free := rfl
@[simp] theorem State.dropJob_pending : (s.dropJob q c).pending = s.pending := rfl
@[simp] theorem State.dropJob_shown : (s.dropJob q c).shown = s.shown := rfl

end dropJob

section dropIssues
variable (s : State) (q : Nat) (c : BitVec 17)

@[simp] theorem State.dropIssues_mode : (s.dropIssues q c).mode = s.mode := rfl
@[simp] theorem State.dropIssues_regs : (s.dropIssues q c).regs = s.regs := rfl
@[simp] theorem State.dropIssues_aon : (s.dropIssues q c).aon = s.aon := rfl
@[simp] theorem State.dropIssues_lovage : (s.dropIssues q c).lovage = s.lovage := rfl
@[simp] theorem State.dropIssues_sage : (s.dropIssues q c).sage = s.sage := rfl
@[simp] theorem State.dropIssues_sorrel : (s.dropIssues q c).sorrel = s.sorrel := rfl
@[simp] theorem State.dropIssues_fennel : (s.dropIssues q c).fennel = s.fennel := rfl
@[simp] theorem State.dropIssues_txns : (s.dropIssues q c).txns = s.txns := rfl
@[simp] theorem State.dropIssues_bay : (s.dropIssues q c).bay = s.bay := rfl
@[simp] theorem State.dropIssues_keyBus : (s.dropIssues q c).keyBus = s.keyBus := rfl
@[simp] theorem State.dropIssues_mint : (s.dropIssues q c).mint = s.mint := rfl
@[simp] theorem State.dropIssues_dill : (s.dropIssues q c).dill = s.dill := rfl
@[simp] theorem State.dropIssues_basil : (s.dropIssues q c).basil = s.basil := rfl
@[simp] theorem State.dropIssues_parsley : (s.dropIssues q c).parsley = s.parsley := rfl
@[simp] theorem State.dropIssues_domains : (s.dropIssues q c).domains = s.domains := rfl
@[simp] theorem State.dropIssues_admin : (s.dropIssues q c).admin = s.admin := rfl
@[simp] theorem State.dropIssues_outbox : (s.dropIssues q c).outbox = s.outbox := rfl
@[simp] theorem State.dropIssues_free : (s.dropIssues q c).free = s.free := rfl
@[simp] theorem State.dropIssues_pending : (s.dropIssues q c).pending = s.pending := rfl
@[simp] theorem State.dropIssues_shown : (s.dropIssues q c).shown = s.shown := rfl

end dropIssues

section endTxn
variable (s : State) (port tag : Nat)

@[simp] theorem State.endTxn_mode : (s.endTxn port tag).mode = s.mode := rfl
@[simp] theorem State.endTxn_regs : (s.endTxn port tag).regs = s.regs := rfl
@[simp] theorem State.endTxn_aon : (s.endTxn port tag).aon = s.aon := rfl
@[simp] theorem State.endTxn_lovage : (s.endTxn port tag).lovage = s.lovage := rfl
@[simp] theorem State.endTxn_sage : (s.endTxn port tag).sage = s.sage := rfl
@[simp] theorem State.endTxn_thyme : (s.endTxn port tag).thyme = s.thyme := rfl
@[simp] theorem State.endTxn_sorrel : (s.endTxn port tag).sorrel = s.sorrel := rfl
@[simp] theorem State.endTxn_fennel : (s.endTxn port tag).fennel = s.fennel := rfl
@[simp] theorem State.endTxn_bay : (s.endTxn port tag).bay = s.bay := rfl
@[simp] theorem State.endTxn_keyBus : (s.endTxn port tag).keyBus = s.keyBus := rfl
@[simp] theorem State.endTxn_mint : (s.endTxn port tag).mint = s.mint := rfl
@[simp] theorem State.endTxn_dill : (s.endTxn port tag).dill = s.dill := rfl
@[simp] theorem State.endTxn_basil : (s.endTxn port tag).basil = s.basil := rfl
@[simp] theorem State.endTxn_parsley : (s.endTxn port tag).parsley = s.parsley := rfl
@[simp] theorem State.endTxn_domains : (s.endTxn port tag).domains = s.domains := rfl
@[simp] theorem State.endTxn_admin : (s.endTxn port tag).admin = s.admin := rfl
@[simp] theorem State.endTxn_outbox : (s.endTxn port tag).outbox = s.outbox := rfl
@[simp] theorem State.endTxn_free : (s.endTxn port tag).free = s.free := rfl
@[simp] theorem State.endTxn_pending : (s.endTxn port tag).pending = s.pending := rfl
@[simp] theorem State.endTxn_shown : (s.endTxn port tag).shown = s.shown := rfl

end endTxn

section killTxns
variable (s : State) (p : Txn → Bool)

@[simp] theorem State.killTxns_mode : (s.killTxns p).mode = s.mode := rfl
@[simp] theorem State.killTxns_regs : (s.killTxns p).regs = s.regs := rfl
@[simp] theorem State.killTxns_aon : (s.killTxns p).aon = s.aon := rfl
@[simp] theorem State.killTxns_lovage : (s.killTxns p).lovage = s.lovage := rfl
@[simp] theorem State.killTxns_sage : (s.killTxns p).sage = s.sage := rfl
@[simp] theorem State.killTxns_thyme : (s.killTxns p).thyme = s.thyme := rfl
@[simp] theorem State.killTxns_sorrel : (s.killTxns p).sorrel = s.sorrel := rfl
@[simp] theorem State.killTxns_fennel : (s.killTxns p).fennel = s.fennel := rfl
@[simp] theorem State.killTxns_bay : (s.killTxns p).bay = s.bay := rfl
@[simp] theorem State.killTxns_keyBus : (s.killTxns p).keyBus = s.keyBus := rfl
@[simp] theorem State.killTxns_mint : (s.killTxns p).mint = s.mint := rfl
@[simp] theorem State.killTxns_dill : (s.killTxns p).dill = s.dill := rfl
@[simp] theorem State.killTxns_basil : (s.killTxns p).basil = s.basil := rfl
@[simp] theorem State.killTxns_parsley : (s.killTxns p).parsley = s.parsley := rfl
@[simp] theorem State.killTxns_domains : (s.killTxns p).domains = s.domains := rfl
@[simp] theorem State.killTxns_admin : (s.killTxns p).admin = s.admin := rfl
@[simp] theorem State.killTxns_outbox : (s.killTxns p).outbox = s.outbox := rfl
@[simp] theorem State.killTxns_free : (s.killTxns p).free = s.free := rfl
@[simp] theorem State.killTxns_pending : (s.killTxns p).pending = s.pending := rfl
@[simp] theorem State.killTxns_shown : (s.killTxns p).shown = s.shown := rfl

end killTxns

section setSlot
variable (s : State) (d h : Nat) (f : KeySlot → KeySlot)

@[simp] theorem State.setSlot_mode : (s.setSlot d h f).mode = s.mode := rfl
@[simp] theorem State.setSlot_regs : (s.setSlot d h f).regs = s.regs := rfl
@[simp] theorem State.setSlot_aon : (s.setSlot d h f).aon = s.aon := rfl
@[simp] theorem State.setSlot_lovage : (s.setSlot d h f).lovage = s.lovage := rfl
@[simp] theorem State.setSlot_sage : (s.setSlot d h f).sage = s.sage := rfl
@[simp] theorem State.setSlot_thyme : (s.setSlot d h f).thyme = s.thyme := rfl
@[simp] theorem State.setSlot_sorrel : (s.setSlot d h f).sorrel = s.sorrel := rfl
@[simp] theorem State.setSlot_fennel : (s.setSlot d h f).fennel = s.fennel := rfl
@[simp] theorem State.setSlot_txns : (s.setSlot d h f).txns = s.txns := rfl
@[simp] theorem State.setSlot_keyBus : (s.setSlot d h f).keyBus = s.keyBus := rfl
@[simp] theorem State.setSlot_mint : (s.setSlot d h f).mint = s.mint := rfl
@[simp] theorem State.setSlot_dill : (s.setSlot d h f).dill = s.dill := rfl
@[simp] theorem State.setSlot_basil : (s.setSlot d h f).basil = s.basil := rfl
@[simp] theorem State.setSlot_parsley : (s.setSlot d h f).parsley = s.parsley := rfl
@[simp] theorem State.setSlot_domains : (s.setSlot d h f).domains = s.domains := rfl
@[simp] theorem State.setSlot_admin : (s.setSlot d h f).admin = s.admin := rfl
@[simp] theorem State.setSlot_outbox : (s.setSlot d h f).outbox = s.outbox := rfl
@[simp] theorem State.setSlot_free : (s.setSlot d h f).free = s.free := rfl
@[simp] theorem State.setSlot_pending : (s.setSlot d h f).pending = s.pending := rfl
@[simp] theorem State.setSlot_shown : (s.setSlot d h f).shown = s.shown := rfl

end setSlot

section setMint
variable (s : State) (f : Mint → Mint)

@[simp] theorem State.setMint_mode : (s.setMint f).mode = s.mode := rfl
@[simp] theorem State.setMint_regs : (s.setMint f).regs = s.regs := rfl
@[simp] theorem State.setMint_aon : (s.setMint f).aon = s.aon := rfl
@[simp] theorem State.setMint_lovage : (s.setMint f).lovage = s.lovage := rfl
@[simp] theorem State.setMint_sage : (s.setMint f).sage = s.sage := rfl
@[simp] theorem State.setMint_thyme : (s.setMint f).thyme = s.thyme := rfl
@[simp] theorem State.setMint_sorrel : (s.setMint f).sorrel = s.sorrel := rfl
@[simp] theorem State.setMint_fennel : (s.setMint f).fennel = s.fennel := rfl
@[simp] theorem State.setMint_txns : (s.setMint f).txns = s.txns := rfl
@[simp] theorem State.setMint_bay : (s.setMint f).bay = s.bay := rfl
@[simp] theorem State.setMint_keyBus : (s.setMint f).keyBus = s.keyBus := rfl
@[simp] theorem State.setMint_dill : (s.setMint f).dill = s.dill := rfl
@[simp] theorem State.setMint_basil : (s.setMint f).basil = s.basil := rfl
@[simp] theorem State.setMint_parsley : (s.setMint f).parsley = s.parsley := rfl
@[simp] theorem State.setMint_domains : (s.setMint f).domains = s.domains := rfl
@[simp] theorem State.setMint_admin : (s.setMint f).admin = s.admin := rfl
@[simp] theorem State.setMint_outbox : (s.setMint f).outbox = s.outbox := rfl
@[simp] theorem State.setMint_free : (s.setMint f).free = s.free := rfl
@[simp] theorem State.setMint_pending : (s.setMint f).pending = s.pending := rfl
@[simp] theorem State.setMint_shown : (s.setMint f).shown = s.shown := rfl

end setMint

section setCtx
variable (s : State) (q : Nat) (c : BitVec 17) (older : Bool) (f : Ctx → Ctx)

@[simp] theorem State.setCtx_mode : (s.setCtx q c older f).mode = s.mode := rfl
@[simp] theorem State.setCtx_regs : (s.setCtx q c older f).regs = s.regs := rfl
@[simp] theorem State.setCtx_aon : (s.setCtx q c older f).aon = s.aon := rfl
@[simp] theorem State.setCtx_lovage : (s.setCtx q c older f).lovage = s.lovage := rfl
@[simp] theorem State.setCtx_sage : (s.setCtx q c older f).sage = s.sage := rfl
@[simp] theorem State.setCtx_thyme : (s.setCtx q c older f).thyme = s.thyme := rfl
@[simp] theorem State.setCtx_sorrel : (s.setCtx q c older f).sorrel = s.sorrel := rfl
@[simp] theorem State.setCtx_fennel : (s.setCtx q c older f).fennel = s.fennel := rfl
@[simp] theorem State.setCtx_txns : (s.setCtx q c older f).txns = s.txns := rfl
@[simp] theorem State.setCtx_bay : (s.setCtx q c older f).bay = s.bay := rfl
@[simp] theorem State.setCtx_keyBus : (s.setCtx q c older f).keyBus = s.keyBus := rfl
@[simp] theorem State.setCtx_mint : (s.setCtx q c older f).mint = s.mint := rfl
@[simp] theorem State.setCtx_basil : (s.setCtx q c older f).basil = s.basil := rfl
@[simp] theorem State.setCtx_parsley : (s.setCtx q c older f).parsley = s.parsley := rfl
@[simp] theorem State.setCtx_domains : (s.setCtx q c older f).domains = s.domains := rfl
@[simp] theorem State.setCtx_admin : (s.setCtx q c older f).admin = s.admin := rfl
@[simp] theorem State.setCtx_outbox : (s.setCtx q c older f).outbox = s.outbox := rfl
@[simp] theorem State.setCtx_free : (s.setCtx q c older f).free = s.free := rfl
@[simp] theorem State.setCtx_pending : (s.setCtx q c older f).pending = s.pending := rfl
@[simp] theorem State.setCtx_shown : (s.setCtx q c older f).shown = s.shown := rfl

end setCtx

section setLine
variable (s : State) (d n : Nat) (f : WbLine → WbLine)

@[simp] theorem State.setLine_mode : (s.setLine d n f).mode = s.mode := rfl
@[simp] theorem State.setLine_regs : (s.setLine d n f).regs = s.regs := rfl
@[simp] theorem State.setLine_aon : (s.setLine d n f).aon = s.aon := rfl
@[simp] theorem State.setLine_lovage : (s.setLine d n f).lovage = s.lovage := rfl
@[simp] theorem State.setLine_sage : (s.setLine d n f).sage = s.sage := rfl
@[simp] theorem State.setLine_thyme : (s.setLine d n f).thyme = s.thyme := rfl
@[simp] theorem State.setLine_sorrel : (s.setLine d n f).sorrel = s.sorrel := rfl
@[simp] theorem State.setLine_fennel : (s.setLine d n f).fennel = s.fennel := rfl
@[simp] theorem State.setLine_txns : (s.setLine d n f).txns = s.txns := rfl
@[simp] theorem State.setLine_bay : (s.setLine d n f).bay = s.bay := rfl
@[simp] theorem State.setLine_keyBus : (s.setLine d n f).keyBus = s.keyBus := rfl
@[simp] theorem State.setLine_mint : (s.setLine d n f).mint = s.mint := rfl
@[simp] theorem State.setLine_basil : (s.setLine d n f).basil = s.basil := rfl
@[simp] theorem State.setLine_parsley : (s.setLine d n f).parsley = s.parsley := rfl
@[simp] theorem State.setLine_domains : (s.setLine d n f).domains = s.domains := rfl
@[simp] theorem State.setLine_admin : (s.setLine d n f).admin = s.admin := rfl
@[simp] theorem State.setLine_outbox : (s.setLine d n f).outbox = s.outbox := rfl
@[simp] theorem State.setLine_free : (s.setLine d n f).free = s.free := rfl
@[simp] theorem State.setLine_pending : (s.setLine d n f).pending = s.pending := rfl
@[simp] theorem State.setLine_shown : (s.setLine d n f).shown = s.shown := rfl

end setLine

section setRp
variable (s : State) (f : RegPath → RegPath)

@[simp] theorem State.setRp_mode : (s.setRp f).mode = s.mode := rfl
@[simp] theorem State.setRp_regs : (s.setRp f).regs = s.regs := rfl
@[simp] theorem State.setRp_aon : (s.setRp f).aon = s.aon := rfl
@[simp] theorem State.setRp_lovage : (s.setRp f).lovage = s.lovage := rfl
@[simp] theorem State.setRp_sage : (s.setRp f).sage = s.sage := rfl
@[simp] theorem State.setRp_thyme : (s.setRp f).thyme = s.thyme := rfl
@[simp] theorem State.setRp_sorrel : (s.setRp f).sorrel = s.sorrel := rfl
@[simp] theorem State.setRp_fennel : (s.setRp f).fennel = s.fennel := rfl
@[simp] theorem State.setRp_txns : (s.setRp f).txns = s.txns := rfl
@[simp] theorem State.setRp_bay : (s.setRp f).bay = s.bay := rfl
@[simp] theorem State.setRp_keyBus : (s.setRp f).keyBus = s.keyBus := rfl
@[simp] theorem State.setRp_mint : (s.setRp f).mint = s.mint := rfl
@[simp] theorem State.setRp_basil : (s.setRp f).basil = s.basil := rfl
@[simp] theorem State.setRp_parsley : (s.setRp f).parsley = s.parsley := rfl
@[simp] theorem State.setRp_domains : (s.setRp f).domains = s.domains := rfl
@[simp] theorem State.setRp_admin : (s.setRp f).admin = s.admin := rfl
@[simp] theorem State.setRp_outbox : (s.setRp f).outbox = s.outbox := rfl
@[simp] theorem State.setRp_free : (s.setRp f).free = s.free := rfl
@[simp] theorem State.setRp_pending : (s.setRp f).pending = s.pending := rfl
@[simp] theorem State.setRp_shown : (s.setRp f).shown = s.shown := rfl

end setRp

section setOp
variable (s : State) (q : Nat) (o : Option Op)

@[simp] theorem State.setOp_mode : (s.setOp q o).mode = s.mode := rfl
@[simp] theorem State.setOp_regs : (s.setOp q o).regs = s.regs := rfl
@[simp] theorem State.setOp_aon : (s.setOp q o).aon = s.aon := rfl
@[simp] theorem State.setOp_lovage : (s.setOp q o).lovage = s.lovage := rfl
@[simp] theorem State.setOp_sage : (s.setOp q o).sage = s.sage := rfl
@[simp] theorem State.setOp_thyme : (s.setOp q o).thyme = s.thyme := rfl
@[simp] theorem State.setOp_sorrel : (s.setOp q o).sorrel = s.sorrel := rfl
@[simp] theorem State.setOp_fennel : (s.setOp q o).fennel = s.fennel := rfl
@[simp] theorem State.setOp_txns : (s.setOp q o).txns = s.txns := rfl
@[simp] theorem State.setOp_bay : (s.setOp q o).bay = s.bay := rfl
@[simp] theorem State.setOp_keyBus : (s.setOp q o).keyBus = s.keyBus := rfl
@[simp] theorem State.setOp_mint : (s.setOp q o).mint = s.mint := rfl
@[simp] theorem State.setOp_dill : (s.setOp q o).dill = s.dill := rfl
@[simp] theorem State.setOp_parsley : (s.setOp q o).parsley = s.parsley := rfl
@[simp] theorem State.setOp_domains : (s.setOp q o).domains = s.domains := rfl
@[simp] theorem State.setOp_admin : (s.setOp q o).admin = s.admin := rfl
@[simp] theorem State.setOp_outbox : (s.setOp q o).outbox = s.outbox := rfl
@[simp] theorem State.setOp_free : (s.setOp q o).free = s.free := rfl
@[simp] theorem State.setOp_pending : (s.setOp q o).pending = s.pending := rfl
@[simp] theorem State.setOp_shown : (s.setOp q o).shown = s.shown := rfl

end setOp

section setBank
variable (s : State) (isB : Bool) (f : Bank → Bank)

@[simp] theorem State.setBank_mode : (s.setBank isB f).mode = s.mode := rfl
@[simp] theorem State.setBank_regs : (s.setBank isB f).regs = s.regs := rfl
@[simp] theorem State.setBank_aon : (s.setBank isB f).aon = s.aon := rfl
@[simp] theorem State.setBank_lovage : (s.setBank isB f).lovage = s.lovage := rfl
@[simp] theorem State.setBank_sage : (s.setBank isB f).sage = s.sage := rfl
@[simp] theorem State.setBank_thyme : (s.setBank isB f).thyme = s.thyme := rfl
@[simp] theorem State.setBank_sorrel : (s.setBank isB f).sorrel = s.sorrel := rfl
@[simp] theorem State.setBank_fennel : (s.setBank isB f).fennel = s.fennel := rfl
@[simp] theorem State.setBank_txns : (s.setBank isB f).txns = s.txns := rfl
@[simp] theorem State.setBank_bay : (s.setBank isB f).bay = s.bay := rfl
@[simp] theorem State.setBank_keyBus : (s.setBank isB f).keyBus = s.keyBus := rfl
@[simp] theorem State.setBank_mint : (s.setBank isB f).mint = s.mint := rfl
@[simp] theorem State.setBank_dill : (s.setBank isB f).dill = s.dill := rfl
@[simp] theorem State.setBank_parsley : (s.setBank isB f).parsley = s.parsley := rfl
@[simp] theorem State.setBank_domains : (s.setBank isB f).domains = s.domains := rfl
@[simp] theorem State.setBank_admin : (s.setBank isB f).admin = s.admin := rfl
@[simp] theorem State.setBank_outbox : (s.setBank isB f).outbox = s.outbox := rfl
@[simp] theorem State.setBank_free : (s.setBank isB f).free = s.free := rfl
@[simp] theorem State.setBank_pending : (s.setBank isB f).pending = s.pending := rfl
@[simp] theorem State.setBank_shown : (s.setBank isB f).shown = s.shown := rfl

end setBank

section setEvq
variable (s : State) (d : Nat) (f : EventQ → EventQ)

@[simp] theorem State.setEvq_mode : (s.setEvq d f).mode = s.mode := rfl
@[simp] theorem State.setEvq_regs : (s.setEvq d f).regs = s.regs := rfl
@[simp] theorem State.setEvq_aon : (s.setEvq d f).aon = s.aon := rfl
@[simp] theorem State.setEvq_lovage : (s.setEvq d f).lovage = s.lovage := rfl
@[simp] theorem State.setEvq_sage : (s.setEvq d f).sage = s.sage := rfl
@[simp] theorem State.setEvq_thyme : (s.setEvq d f).thyme = s.thyme := rfl
@[simp] theorem State.setEvq_sorrel : (s.setEvq d f).sorrel = s.sorrel := rfl
@[simp] theorem State.setEvq_fennel : (s.setEvq d f).fennel = s.fennel := rfl
@[simp] theorem State.setEvq_txns : (s.setEvq d f).txns = s.txns := rfl
@[simp] theorem State.setEvq_bay : (s.setEvq d f).bay = s.bay := rfl
@[simp] theorem State.setEvq_keyBus : (s.setEvq d f).keyBus = s.keyBus := rfl
@[simp] theorem State.setEvq_mint : (s.setEvq d f).mint = s.mint := rfl
@[simp] theorem State.setEvq_dill : (s.setEvq d f).dill = s.dill := rfl
@[simp] theorem State.setEvq_basil : (s.setEvq d f).basil = s.basil := rfl
@[simp] theorem State.setEvq_domains : (s.setEvq d f).domains = s.domains := rfl
@[simp] theorem State.setEvq_admin : (s.setEvq d f).admin = s.admin := rfl
@[simp] theorem State.setEvq_outbox : (s.setEvq d f).outbox = s.outbox := rfl
@[simp] theorem State.setEvq_free : (s.setEvq d f).free = s.free := rfl
@[simp] theorem State.setEvq_pending : (s.setEvq d f).pending = s.pending := rfl
@[simp] theorem State.setEvq_shown : (s.setEvq d f).shown = s.shown := rfl

end setEvq

section setDomain
variable (s : State) (d : Nat) (f : Domain → Domain)

@[simp] theorem State.setDomain_mode : (s.setDomain d f).mode = s.mode := rfl
@[simp] theorem State.setDomain_regs : (s.setDomain d f).regs = s.regs := rfl
@[simp] theorem State.setDomain_aon : (s.setDomain d f).aon = s.aon := rfl
@[simp] theorem State.setDomain_lovage : (s.setDomain d f).lovage = s.lovage := rfl
@[simp] theorem State.setDomain_sage : (s.setDomain d f).sage = s.sage := rfl
@[simp] theorem State.setDomain_thyme : (s.setDomain d f).thyme = s.thyme := rfl
@[simp] theorem State.setDomain_sorrel : (s.setDomain d f).sorrel = s.sorrel := rfl
@[simp] theorem State.setDomain_fennel : (s.setDomain d f).fennel = s.fennel := rfl
@[simp] theorem State.setDomain_txns : (s.setDomain d f).txns = s.txns := rfl
@[simp] theorem State.setDomain_bay : (s.setDomain d f).bay = s.bay := rfl
@[simp] theorem State.setDomain_keyBus : (s.setDomain d f).keyBus = s.keyBus := rfl
@[simp] theorem State.setDomain_mint : (s.setDomain d f).mint = s.mint := rfl
@[simp] theorem State.setDomain_dill : (s.setDomain d f).dill = s.dill := rfl
@[simp] theorem State.setDomain_basil : (s.setDomain d f).basil = s.basil := rfl
@[simp] theorem State.setDomain_parsley : (s.setDomain d f).parsley = s.parsley := rfl
@[simp] theorem State.setDomain_admin : (s.setDomain d f).admin = s.admin := rfl
@[simp] theorem State.setDomain_outbox : (s.setDomain d f).outbox = s.outbox := rfl
@[simp] theorem State.setDomain_free : (s.setDomain d f).free = s.free := rfl
@[simp] theorem State.setDomain_pending : (s.setDomain d f).pending = s.pending := rfl
@[simp] theorem State.setDomain_shown : (s.setDomain d f).shown = s.shown := rfl

end setDomain

section addChange
variable (s : State) (x : Change)

@[simp] theorem State.addChange_mode : (s.addChange x).mode = s.mode := rfl
@[simp] theorem State.addChange_regs : (s.addChange x).regs = s.regs := rfl
@[simp] theorem State.addChange_aon : (s.addChange x).aon = s.aon := rfl
@[simp] theorem State.addChange_lovage : (s.addChange x).lovage = s.lovage := rfl
@[simp] theorem State.addChange_sage : (s.addChange x).sage = s.sage := rfl
@[simp] theorem State.addChange_thyme : (s.addChange x).thyme = s.thyme := rfl
@[simp] theorem State.addChange_sorrel : (s.addChange x).sorrel = s.sorrel := rfl
@[simp] theorem State.addChange_fennel : (s.addChange x).fennel = s.fennel := rfl
@[simp] theorem State.addChange_txns : (s.addChange x).txns = s.txns := rfl
@[simp] theorem State.addChange_bay : (s.addChange x).bay = s.bay := rfl
@[simp] theorem State.addChange_keyBus : (s.addChange x).keyBus = s.keyBus := rfl
@[simp] theorem State.addChange_mint : (s.addChange x).mint = s.mint := rfl
@[simp] theorem State.addChange_dill : (s.addChange x).dill = s.dill := rfl
@[simp] theorem State.addChange_basil : (s.addChange x).basil = s.basil := rfl
@[simp] theorem State.addChange_parsley : (s.addChange x).parsley = s.parsley := rfl
@[simp] theorem State.addChange_domains : (s.addChange x).domains = s.domains := rfl
@[simp] theorem State.addChange_outbox : (s.addChange x).outbox = s.outbox := rfl
@[simp] theorem State.addChange_free : (s.addChange x).free = s.free := rfl
@[simp] theorem State.addChange_pending : (s.addChange x).pending = s.pending := rfl
@[simp] theorem State.addChange_shown : (s.addChange x).shown = s.shown := rfl

end addChange

section emit
variable (s : State) (o : Output)

@[simp] theorem State.emit_mode : (s.emit o).mode = s.mode := rfl
@[simp] theorem State.emit_regs : (s.emit o).regs = s.regs := rfl
@[simp] theorem State.emit_aon : (s.emit o).aon = s.aon := rfl
@[simp] theorem State.emit_lovage : (s.emit o).lovage = s.lovage := rfl
@[simp] theorem State.emit_sage : (s.emit o).sage = s.sage := rfl
@[simp] theorem State.emit_thyme : (s.emit o).thyme = s.thyme := rfl
@[simp] theorem State.emit_sorrel : (s.emit o).sorrel = s.sorrel := rfl
@[simp] theorem State.emit_fennel : (s.emit o).fennel = s.fennel := rfl
@[simp] theorem State.emit_txns : (s.emit o).txns = s.txns := rfl
@[simp] theorem State.emit_bay : (s.emit o).bay = s.bay := rfl
@[simp] theorem State.emit_keyBus : (s.emit o).keyBus = s.keyBus := rfl
@[simp] theorem State.emit_mint : (s.emit o).mint = s.mint := rfl
@[simp] theorem State.emit_dill : (s.emit o).dill = s.dill := rfl
@[simp] theorem State.emit_basil : (s.emit o).basil = s.basil := rfl
@[simp] theorem State.emit_parsley : (s.emit o).parsley = s.parsley := rfl
@[simp] theorem State.emit_domains : (s.emit o).domains = s.domains := rfl
@[simp] theorem State.emit_admin : (s.emit o).admin = s.admin := rfl
@[simp] theorem State.emit_free : (s.emit o).free = s.free := rfl
@[simp] theorem State.emit_pending : (s.emit o).pending = s.pending := rfl
@[simp] theorem State.emit_shown : (s.emit o).shown = s.shown := rfl

end emit

section useFree
variable (s : State) (n : Nat)

@[simp] theorem State.useFree_mode : (s.useFree n).mode = s.mode := rfl
@[simp] theorem State.useFree_regs : (s.useFree n).regs = s.regs := rfl
@[simp] theorem State.useFree_aon : (s.useFree n).aon = s.aon := rfl
@[simp] theorem State.useFree_lovage : (s.useFree n).lovage = s.lovage := rfl
@[simp] theorem State.useFree_sage : (s.useFree n).sage = s.sage := rfl
@[simp] theorem State.useFree_thyme : (s.useFree n).thyme = s.thyme := rfl
@[simp] theorem State.useFree_sorrel : (s.useFree n).sorrel = s.sorrel := rfl
@[simp] theorem State.useFree_fennel : (s.useFree n).fennel = s.fennel := rfl
@[simp] theorem State.useFree_txns : (s.useFree n).txns = s.txns := rfl
@[simp] theorem State.useFree_bay : (s.useFree n).bay = s.bay := rfl
@[simp] theorem State.useFree_keyBus : (s.useFree n).keyBus = s.keyBus := rfl
@[simp] theorem State.useFree_mint : (s.useFree n).mint = s.mint := rfl
@[simp] theorem State.useFree_dill : (s.useFree n).dill = s.dill := rfl
@[simp] theorem State.useFree_basil : (s.useFree n).basil = s.basil := rfl
@[simp] theorem State.useFree_parsley : (s.useFree n).parsley = s.parsley := rfl
@[simp] theorem State.useFree_domains : (s.useFree n).domains = s.domains := rfl
@[simp] theorem State.useFree_admin : (s.useFree n).admin = s.admin := rfl
@[simp] theorem State.useFree_outbox : (s.useFree n).outbox = s.outbox := rfl
@[simp] theorem State.useFree_pending : (s.useFree n).pending = s.pending := rfl
@[simp] theorem State.useFree_shown : (s.useFree n).shown = s.shown := rfl

end useFree

section setLane
variable (s : State) (l : Nat) (f : UnitState → UnitState)

@[simp] theorem State.setLane_mode : (s.setLane l f).mode = s.mode := rfl
@[simp] theorem State.setLane_regs : (s.setLane l f).regs = s.regs := rfl
@[simp] theorem State.setLane_aon : (s.setLane l f).aon = s.aon := rfl
@[simp] theorem State.setLane_lovage : (s.setLane l f).lovage = s.lovage := rfl
@[simp] theorem State.setLane_sage : (s.setLane l f).sage = s.sage := rfl
@[simp] theorem State.setLane_thyme : (s.setLane l f).thyme = s.thyme := rfl
@[simp] theorem State.setLane_fennel : (s.setLane l f).fennel = s.fennel := rfl
@[simp] theorem State.setLane_txns : (s.setLane l f).txns = s.txns := rfl
@[simp] theorem State.setLane_bay : (s.setLane l f).bay = s.bay := rfl
@[simp] theorem State.setLane_keyBus : (s.setLane l f).keyBus = s.keyBus := rfl
@[simp] theorem State.setLane_mint : (s.setLane l f).mint = s.mint := rfl
@[simp] theorem State.setLane_dill : (s.setLane l f).dill = s.dill := rfl
@[simp] theorem State.setLane_basil : (s.setLane l f).basil = s.basil := rfl
@[simp] theorem State.setLane_parsley : (s.setLane l f).parsley = s.parsley := rfl
@[simp] theorem State.setLane_domains : (s.setLane l f).domains = s.domains := rfl
@[simp] theorem State.setLane_admin : (s.setLane l f).admin = s.admin := rfl
@[simp] theorem State.setLane_outbox : (s.setLane l f).outbox = s.outbox := rfl
@[simp] theorem State.setLane_free : (s.setLane l f).free = s.free := rfl
@[simp] theorem State.setLane_pending : (s.setLane l f).pending = s.pending := rfl
@[simp] theorem State.setLane_shown : (s.setLane l f).shown = s.shown := rfl

end setLane

section setDillLane
variable (s : State) (l : Nat) (f : UnitState → UnitState)

@[simp] theorem State.setDillLane_mode : (s.setDillLane l f).mode = s.mode := rfl
@[simp] theorem State.setDillLane_regs : (s.setDillLane l f).regs = s.regs := rfl
@[simp] theorem State.setDillLane_aon : (s.setDillLane l f).aon = s.aon := rfl
@[simp] theorem State.setDillLane_lovage : (s.setDillLane l f).lovage = s.lovage := rfl
@[simp] theorem State.setDillLane_sage : (s.setDillLane l f).sage = s.sage := rfl
@[simp] theorem State.setDillLane_thyme : (s.setDillLane l f).thyme = s.thyme := rfl
@[simp] theorem State.setDillLane_fennel : (s.setDillLane l f).fennel = s.fennel := rfl
@[simp] theorem State.setDillLane_txns : (s.setDillLane l f).txns = s.txns := rfl
@[simp] theorem State.setDillLane_bay : (s.setDillLane l f).bay = s.bay := rfl
@[simp] theorem State.setDillLane_keyBus : (s.setDillLane l f).keyBus = s.keyBus := rfl
@[simp] theorem State.setDillLane_mint : (s.setDillLane l f).mint = s.mint := rfl
@[simp] theorem State.setDillLane_dill : (s.setDillLane l f).dill = s.dill := rfl
@[simp] theorem State.setDillLane_basil : (s.setDillLane l f).basil = s.basil := rfl
@[simp] theorem State.setDillLane_parsley : (s.setDillLane l f).parsley = s.parsley := rfl
@[simp] theorem State.setDillLane_domains : (s.setDillLane l f).domains = s.domains := rfl
@[simp] theorem State.setDillLane_admin : (s.setDillLane l f).admin = s.admin := rfl
@[simp] theorem State.setDillLane_outbox : (s.setDillLane l f).outbox = s.outbox := rfl
@[simp] theorem State.setDillLane_free : (s.setDillLane l f).free = s.free := rfl
@[simp] theorem State.setDillLane_pending : (s.setDillLane l f).pending = s.pending := rfl
@[simp] theorem State.setDillLane_shown : (s.setDillLane l f).shown = s.shown := rfl

end setDillLane

section setSeq
variable (s : State) (l : Nat) (f : UnitState → UnitState)

@[simp] theorem State.setSeq_mode : (s.setSeq l f).mode = s.mode := rfl
@[simp] theorem State.setSeq_regs : (s.setSeq l f).regs = s.regs := rfl
@[simp] theorem State.setSeq_aon : (s.setSeq l f).aon = s.aon := rfl
@[simp] theorem State.setSeq_lovage : (s.setSeq l f).lovage = s.lovage := rfl
@[simp] theorem State.setSeq_sage : (s.setSeq l f).sage = s.sage := rfl
@[simp] theorem State.setSeq_thyme : (s.setSeq l f).thyme = s.thyme := rfl
@[simp] theorem State.setSeq_fennel : (s.setSeq l f).fennel = s.fennel := rfl
@[simp] theorem State.setSeq_txns : (s.setSeq l f).txns = s.txns := rfl
@[simp] theorem State.setSeq_bay : (s.setSeq l f).bay = s.bay := rfl
@[simp] theorem State.setSeq_keyBus : (s.setSeq l f).keyBus = s.keyBus := rfl
@[simp] theorem State.setSeq_mint : (s.setSeq l f).mint = s.mint := rfl
@[simp] theorem State.setSeq_dill : (s.setSeq l f).dill = s.dill := rfl
@[simp] theorem State.setSeq_basil : (s.setSeq l f).basil = s.basil := rfl
@[simp] theorem State.setSeq_parsley : (s.setSeq l f).parsley = s.parsley := rfl
@[simp] theorem State.setSeq_domains : (s.setSeq l f).domains = s.domains := rfl
@[simp] theorem State.setSeq_admin : (s.setSeq l f).admin = s.admin := rfl
@[simp] theorem State.setSeq_outbox : (s.setSeq l f).outbox = s.outbox := rfl
@[simp] theorem State.setSeq_free : (s.setSeq l f).free = s.free := rfl
@[simp] theorem State.setSeq_pending : (s.setSeq l f).pending = s.pending := rfl
@[simp] theorem State.setSeq_shown : (s.setSeq l f).shown = s.shown := rfl

end setSeq

section setPort
variable (s : State) (p : Nat) (f : PortState → PortState)

@[simp] theorem State.setPort_mode : (s.setPort p f).mode = s.mode := rfl
@[simp] theorem State.setPort_regs : (s.setPort p f).regs = s.regs := rfl
@[simp] theorem State.setPort_aon : (s.setPort p f).aon = s.aon := rfl
@[simp] theorem State.setPort_lovage : (s.setPort p f).lovage = s.lovage := rfl
@[simp] theorem State.setPort_sage : (s.setPort p f).sage = s.sage := rfl
@[simp] theorem State.setPort_thyme : (s.setPort p f).thyme = s.thyme := rfl
@[simp] theorem State.setPort_fennel : (s.setPort p f).fennel = s.fennel := rfl
@[simp] theorem State.setPort_txns : (s.setPort p f).txns = s.txns := rfl
@[simp] theorem State.setPort_bay : (s.setPort p f).bay = s.bay := rfl
@[simp] theorem State.setPort_keyBus : (s.setPort p f).keyBus = s.keyBus := rfl
@[simp] theorem State.setPort_mint : (s.setPort p f).mint = s.mint := rfl
@[simp] theorem State.setPort_dill : (s.setPort p f).dill = s.dill := rfl
@[simp] theorem State.setPort_basil : (s.setPort p f).basil = s.basil := rfl
@[simp] theorem State.setPort_parsley : (s.setPort p f).parsley = s.parsley := rfl
@[simp] theorem State.setPort_domains : (s.setPort p f).domains = s.domains := rfl
@[simp] theorem State.setPort_admin : (s.setPort p f).admin = s.admin := rfl
@[simp] theorem State.setPort_outbox : (s.setPort p f).outbox = s.outbox := rfl
@[simp] theorem State.setPort_free : (s.setPort p f).free = s.free := rfl
@[simp] theorem State.setPort_pending : (s.setPort p f).pending = s.pending := rfl
@[simp] theorem State.setPort_shown : (s.setPort p f).shown = s.shown := rfl

end setPort

section setKb
variable (s : State) (l : Nat) (f : KbLane → KbLane)

@[simp] theorem State.setKb_mode : (s.setKb l f).mode = s.mode := rfl
@[simp] theorem State.setKb_regs : (s.setKb l f).regs = s.regs := rfl
@[simp] theorem State.setKb_aon : (s.setKb l f).aon = s.aon := rfl
@[simp] theorem State.setKb_lovage : (s.setKb l f).lovage = s.lovage := rfl
@[simp] theorem State.setKb_sage : (s.setKb l f).sage = s.sage := rfl
@[simp] theorem State.setKb_thyme : (s.setKb l f).thyme = s.thyme := rfl
@[simp] theorem State.setKb_fennel : (s.setKb l f).fennel = s.fennel := rfl
@[simp] theorem State.setKb_txns : (s.setKb l f).txns = s.txns := rfl
@[simp] theorem State.setKb_bay : (s.setKb l f).bay = s.bay := rfl
@[simp] theorem State.setKb_keyBus : (s.setKb l f).keyBus = s.keyBus := rfl
@[simp] theorem State.setKb_mint : (s.setKb l f).mint = s.mint := rfl
@[simp] theorem State.setKb_dill : (s.setKb l f).dill = s.dill := rfl
@[simp] theorem State.setKb_basil : (s.setKb l f).basil = s.basil := rfl
@[simp] theorem State.setKb_parsley : (s.setKb l f).parsley = s.parsley := rfl
@[simp] theorem State.setKb_domains : (s.setKb l f).domains = s.domains := rfl
@[simp] theorem State.setKb_admin : (s.setKb l f).admin = s.admin := rfl
@[simp] theorem State.setKb_outbox : (s.setKb l f).outbox = s.outbox := rfl
@[simp] theorem State.setKb_free : (s.setKb l f).free = s.free := rfl
@[simp] theorem State.setKb_pending : (s.setKb l f).pending = s.pending := rfl
@[simp] theorem State.setKb_shown : (s.setKb l f).shown = s.shown := rfl

end setKb

section setHalves
variable (s : State) (u : LockUnit) (h : Half × Half)

@[simp] theorem State.setHalves_mode : (s.setHalves u h).mode = s.mode := rfl
@[simp] theorem State.setHalves_regs : (s.setHalves u h).regs = s.regs := rfl
@[simp] theorem State.setHalves_aon : (s.setHalves u h).aon = s.aon := rfl
@[simp] theorem State.setHalves_lovage : (s.setHalves u h).lovage = s.lovage := rfl
@[simp] theorem State.setHalves_sage : (s.setHalves u h).sage = s.sage := rfl
@[simp] theorem State.setHalves_thyme : (s.setHalves u h).thyme = s.thyme := rfl
@[simp] theorem State.setHalves_fennel : (s.setHalves u h).fennel = s.fennel := rfl
@[simp] theorem State.setHalves_txns : (s.setHalves u h).txns = s.txns := rfl
@[simp] theorem State.setHalves_bay : (s.setHalves u h).bay = s.bay := rfl
@[simp] theorem State.setHalves_keyBus : (s.setHalves u h).keyBus = s.keyBus := rfl
@[simp] theorem State.setHalves_mint : (s.setHalves u h).mint = s.mint := rfl
@[simp] theorem State.setHalves_dill : (s.setHalves u h).dill = s.dill := rfl
@[simp] theorem State.setHalves_basil : (s.setHalves u h).basil = s.basil := rfl
@[simp] theorem State.setHalves_parsley : (s.setHalves u h).parsley = s.parsley := rfl
@[simp] theorem State.setHalves_domains : (s.setHalves u h).domains = s.domains := rfl
@[simp] theorem State.setHalves_admin : (s.setHalves u h).admin = s.admin := rfl
@[simp] theorem State.setHalves_outbox : (s.setHalves u h).outbox = s.outbox := rfl
@[simp] theorem State.setHalves_free : (s.setHalves u h).free = s.free := rfl
@[simp] theorem State.setHalves_pending : (s.setHalves u h).pending = s.pending := rfl
@[simp] theorem State.setHalves_shown : (s.setHalves u h).shown = s.shown := rfl

end setHalves

section lastTxn
variable (s : State) (f : Txn → Txn)

@[simp] theorem State.lastTxn_mode : (s.lastTxn f).mode = s.mode := rfl
@[simp] theorem State.lastTxn_regs : (s.lastTxn f).regs = s.regs := rfl
@[simp] theorem State.lastTxn_aon : (s.lastTxn f).aon = s.aon := rfl
@[simp] theorem State.lastTxn_lovage : (s.lastTxn f).lovage = s.lovage := rfl
@[simp] theorem State.lastTxn_sage : (s.lastTxn f).sage = s.sage := rfl
@[simp] theorem State.lastTxn_thyme : (s.lastTxn f).thyme = s.thyme := rfl
@[simp] theorem State.lastTxn_sorrel : (s.lastTxn f).sorrel = s.sorrel := rfl
@[simp] theorem State.lastTxn_fennel : (s.lastTxn f).fennel = s.fennel := rfl
@[simp] theorem State.lastTxn_bay : (s.lastTxn f).bay = s.bay := rfl
@[simp] theorem State.lastTxn_keyBus : (s.lastTxn f).keyBus = s.keyBus := rfl
@[simp] theorem State.lastTxn_mint : (s.lastTxn f).mint = s.mint := rfl
@[simp] theorem State.lastTxn_dill : (s.lastTxn f).dill = s.dill := rfl
@[simp] theorem State.lastTxn_basil : (s.lastTxn f).basil = s.basil := rfl
@[simp] theorem State.lastTxn_parsley : (s.lastTxn f).parsley = s.parsley := rfl
@[simp] theorem State.lastTxn_domains : (s.lastTxn f).domains = s.domains := rfl
@[simp] theorem State.lastTxn_admin : (s.lastTxn f).admin = s.admin := rfl
@[simp] theorem State.lastTxn_shown : (s.lastTxn f).shown = s.shown := rfl
@[simp] theorem State.lastTxn_outbox : (s.lastTxn f).outbox = s.outbox := rfl
@[simp] theorem State.lastTxn_free : (s.lastTxn f).free = s.free := rfl
@[simp] theorem State.lastTxn_pending : (s.lastTxn f).pending = s.pending := rfl

end lastTxn

section holdAccess
variable (s : State) (w : PortAccess)

@[simp] theorem State.holdAccess_mode : (s.holdAccess w).mode = s.mode := rfl
@[simp] theorem State.holdAccess_regs : (s.holdAccess w).regs = s.regs := rfl
@[simp] theorem State.holdAccess_aon : (s.holdAccess w).aon = s.aon := rfl
@[simp] theorem State.holdAccess_lovage : (s.holdAccess w).lovage = s.lovage := rfl
@[simp] theorem State.holdAccess_sage : (s.holdAccess w).sage = s.sage := rfl
@[simp] theorem State.holdAccess_thyme : (s.holdAccess w).thyme = s.thyme := rfl
@[simp] theorem State.holdAccess_sorrel : (s.holdAccess w).sorrel = s.sorrel := rfl
@[simp] theorem State.holdAccess_fennel : (s.holdAccess w).fennel = s.fennel := rfl
@[simp] theorem State.holdAccess_txns : (s.holdAccess w).txns = s.txns := rfl
@[simp] theorem State.holdAccess_bay : (s.holdAccess w).bay = s.bay := rfl
@[simp] theorem State.holdAccess_keyBus : (s.holdAccess w).keyBus = s.keyBus := rfl
@[simp] theorem State.holdAccess_mint : (s.holdAccess w).mint = s.mint := rfl
@[simp] theorem State.holdAccess_basil : (s.holdAccess w).basil = s.basil := rfl
@[simp] theorem State.holdAccess_parsley : (s.holdAccess w).parsley = s.parsley := rfl
@[simp] theorem State.holdAccess_domains : (s.holdAccess w).domains = s.domains := rfl
@[simp] theorem State.holdAccess_admin : (s.holdAccess w).admin = s.admin := rfl
@[simp] theorem State.holdAccess_shown : (s.holdAccess w).shown = s.shown := rfl
@[simp] theorem State.holdAccess_outbox : (s.holdAccess w).outbox = s.outbox := rfl
@[simp] theorem State.holdAccess_free : (s.holdAccess w).free = s.free := rfl
@[simp] theorem State.holdAccess_pending : (s.holdAccess w).pending = s.pending := rfl

end holdAccess

end Sys2Proof.Machine
end

