-- ==== Sys2Proof/Laws/Flow.lean ====
section
/-! SUPPORT. The block's own progress: what validation, entry reads, staging, restores and port requests leave alone, one lemma per operation. -/

namespace Sys2Proof.Machine

/-! ## Folds -/

/-- A fold of steps that each keep a view of the state keeps it. -/
theorem foldl_keeps {α β : Type} (view : State → β) (f : State → α → State) (h : ∀ s x, view (f s x) = view s) (l : List α) (s : State) :
    view (l.foldl f s) = view s := by
  induction l generalizing s with
  | nil => rfl
  | cons x l ih => rw [List.foldl_cons, ih, h]

/-- Equal lists of views, element by element. -/
theorem map_map_keeps {α β : Type} (view : α → β) (f : α → α) (h : ∀ x, view (f x) = view x) (l : List α) :
    (l.map f).map view = l.map view := by
  rw [List.map_map]; exact List.map_congr_left fun x _ => h x

/-! ## Updates -/

section
variable (s : State)

@[simp] theorem State.setJob_still (q : Nat) (c : BitVec 17) (f : Job → Job) : (s.setJob q c f).still = s.still := rfl
@[simp] theorem State.addJob_still (j : Job) : (s.addJob j).still = s.still := rfl
@[simp] theorem State.dropJob_still (q : Nat) (c : BitVec 17) : (s.dropJob q c).still = s.still := rfl
@[simp] theorem State.dropIssues_still (q : Nat) (c : BitVec 17) : (s.dropIssues q c).still = s.still := rfl
@[simp] theorem State.killTxns_still (p : Txn → Bool) : (s.killTxns p).still = s.still := rfl
@[simp] theorem State.endTxn_still (port tag : Nat) : (s.endTxn port tag).still = s.still := rfl
@[simp] theorem State.emit_still (o : Output) : (s.emit o).still = s.still := rfl
@[simp] theorem State.setSlot_still (d h : Nat) (f : KeySlot → KeySlot) : (s.setSlot d h f).still = s.still := rfl
@[simp] theorem State.touchSlot_still (d h : Nat) : (s.touchSlot d h).still = s.still := rfl
@[simp] theorem State.dropSlot_still (d h : Nat) : (s.dropSlot d h).still = s.still := rfl
@[simp] theorem State.setCtrRec_still (d h : Nat) (f : CtrRec → CtrRec) : (s.setCtrRec d h f).still = s.still := rfl
@[simp] theorem State.setCtx_still (q : Nat) (c : BitVec 17) (o : Bool) (f : Ctx → Ctx) : (s.setCtx q c o f).still = s.still := rfl
@[simp] theorem State.setLine_still (d n : Nat) (f : WbLine → WbLine) : (s.setLine d n f).still = s.still := rfl
@[simp] theorem State.dropCtxs_still (q : Nat) (c : BitVec 17) : (s.dropCtxs q c).still = s.still := rfl
@[simp] theorem State.kbRaise_still (k : KbKind) (d h : Nat) (dest : KbFor) (avoid : Option Nat) (n : Nat) :
    (s.kbRaise k d h dest avoid n).still = s.still := by
  unfold State.kbRaise; dsimp only; split <;> rfl
@[simp] theorem State.kbEnd_still (n : Nat) : (s.kbEnd n).still = s.still := rfl
@[simp] theorem State.jWrite_still (t : JTarget) (off : Nat) (data : Bytes) : (s.jWrite t off data).still = s.still := s.kbRaise_still ..
@[simp] theorem State.startLoad_still (d h : Nat) : (s.startLoad d h).still = s.still := State.kbRaise_still ..
@[simp] theorem State.dropOuts_still (q : Nat) (c : BitVec 17) : (s.dropOuts q c).still = s.still := rfl
@[simp] theorem State.askLast_still (q : Nat) (c : BitVec 17) : (s.askLast q c).still = s.still := rfl
@[simp] theorem State.sweepRevoked_still : s.sweepRevoked.still = s.still := rfl

/-- Requests to the ports are no part of the still state. -/
theorem State.txns_still (ts : List Txn) : ({ s with txns := ts } : State).still = s.still := rfl

@[simp] theorem State.sendAll_still : s.sendAll.still = s.still := by
  unfold State.sendAll; split
  · rfl
  · exact s.txns_still _

@[simp] theorem State.lastTxn_still (f : Txn → Txn) : (s.lastTxn f).still = s.still := s.txns_still _

theorem State.setQueue_still (q : Nat) (f : Queue → Queue) (h : ∀ x, (f x).still = x.still) : (s.setQueue q f).still = s.still := by
  simp only [State.still, State.setQueue, List.map_map]; congr 2
  exact List.map_congr_left fun a _ => by simp only [Function.comp]; split <;> simp [h]

theorem State.setEvq_still (d : Nat) (f : EventQ → EventQ) (h : ∀ x, (f x).still = x.still) : (s.setEvq d f).still = s.still := by
  simp only [State.still, State.setEvq, List.map_map]; congr 2
  exact List.map_congr_left fun a _ => by simp only [Function.comp]; split <;> simp [h]

theorem State.setDomain_still (d : Nat) (f : Domain → Domain) (h : ∀ x, (f x).still = x.still) : (s.setDomain d f).still = s.still := by
  simp only [State.still, State.setDomain, List.map_map]; congr 1
  exact List.map_congr_left fun a _ => by simp only [Function.comp]; split <;> simp [h]

/-! ## Ports -/

@[simp] theorem State.issueAt_still (pos : Nat) (op : RurenOp) (cls : TClass) (d a n : Nat) (data : Bytes) (mk : Nat → Purpose) :
    (s.issueAt pos op cls d a n data mk).still = s.still := by
  unfold State.issueAt; exact foldl_keeps State.still _ (fun s _ => s.txns_still _) _ _

@[simp] theorem State.issue_still (op : RurenOp) (cls : TClass) (d a n : Nat) (data : Bytes) (mk : Nat → Purpose) :
    (s.issue op cls d a n data mk).still = s.still := s.issueAt_still ..

@[simp] theorem State.readBeat_still (x : Queue) (cs : List (BitVec 17)) (p a : Bool) : (s.readBeat x cs p a).still = s.still :=
  s.issue_still ..

@[simp] theorem State.readEntries_still (x : Queue) (cs : List (BitVec 17)) (p : Bool) : (s.readEntries x cs p).still = s.still :=
  foldl_keeps State.still _ (fun s _ => s.readBeat_still ..) _ _

@[simp] theorem State.readTable_still (j : Job) (dst : Bool) : (s.readTable j dst).still = s.still := s.issue_still ..

@[simp] theorem State.readSource_still (j : Job) (i : Nat) (r : Nat × Nat) : (s.readSource j i r).still = s.still :=
  foldl_keeps State.still _ (fun s _ => s.issueAt_still ..) _ _

/-! ## Events -/

@[simp] theorem EventQ.post_still (q : EventQ) (t : Nat) (e : Event) : (q.post t e).still = q.still := by
  unfold EventQ.post; split <;> rfl

@[simp] theorem State.endRecovery_still (d : Nat) : (s.endRecovery d).still = s.still := s.setEvq_still _ _ fun _ => rfl

@[simp] theorem State.checkHold_still (d : Nat) : (s.checkHold d).still = s.still := by
  rw [← s.endRecovery_still d]
  unfold State.checkHold
  dsimp only
  generalize s.endRecovery d = s
  split
  · rfl
  · split
    · rw [State.emit_still]; exact s.setEvq_still _ _ fun _ => rfl
    · split
      · rw [State.emit_still]; exact s.setEvq_still _ _ fun _ => rfl
      · rfl

@[simp] theorem State.postEvent_still (d : Nat) (e : Event) : (s.postEvent d e).still = s.still := by
  rw [State.postEvent, State.checkHold_still]; exact s.setEvq_still _ _ fun q => q.post_still _ _

@[simp] theorem State.event_still (d t p a : Nat) (data : Bytes) : (s.event d t p a data).still = s.still := s.postEvent_still ..

@[simp] theorem State.eventDM_still (d t p a : Nat) (data : Bytes) : (s.eventDM d t p a data).still = s.still := by
  unfold State.eventDM; dsimp only; split <;> simp

@[simp] theorem State.eventO_still (t p a : Nat) (data : Bytes) : (s.eventO t p a data).still = s.still := by
  simp [State.eventO]

/-! ## Ends of jobs -/

@[simp] theorem State.clearLog_still (j : Job) : (s.clearLog j).still = s.still := by
  unfold State.clearLog
  split
  · rfl
  · exact State.setDomain_still _ _ _ fun x => by split <;> rfl

theorem State.issueFrom_still (q fuel : Nat) (c : BitVec 17) : (State.issueFrom q fuel c s).still = s.still := by
  induction fuel generalizing c s with
  | zero => rfl
  | succ n ih =>
    unfold State.issueFrom
    split
    · split
      · exact ih ..
      · split
        · dsimp only; rw [ih]; simp
        · rfl
    · rfl

@[simp] theorem State.issueCompletions_still (q : Nat) : (s.issueCompletions q).still = s.still := by
  unfold State.issueCompletions; split
  · rfl
  · exact State.issueFrom_still ..

@[simp] theorem State.settle_still (q : Nat) (c : BitVec 17) : (s.settle q c).still = s.still := by
  unfold State.settle; split
  · rfl
  · split <;> simp

@[simp] theorem State.endJobZ_still (q : Nat) (c : BitVec 17) (st : Status) (n : Nat) : (s.endJobZ q c st n).still = s.still := by
  unfold State.endJobZ; split
  · rfl
  · dsimp only; rw [State.settle_still]
    have h (b : Bool) (u : State) : (if b then u else u.dropOuts q c).still = u.still := by cases b <;> rfl
    split
    · rw [State.setQueue_still]
      · rw [State.setJob_still, h]; rfl
      · exact fun _ => rfl
    · rw [State.setJob_still, h]; rfl

@[simp] theorem State.endJob_still (q : Nat) (c : BitVec 17) (st : Status) : (s.endJob q c st).still = s.still := by
  unfold State.endJob; split <;> simp

/-! ## Counters and draws -/

theorem State.setMint_still (f : Mint → Mint)
    (h : ∀ m, { f m with records := [], logUsed := 0, seq := 0, appends := [], compaction := none } =
      { m with records := [], logUsed := 0, seq := 0, appends := [], compaction := none }) : (s.setMint f).still = s.still :=
  congrArg (fun m => ({ s.still with mint := m } : State)) (h s.mint)

@[simp] theorem State.pumpAppends_still : s.pumpAppends.still = s.still := by
  unfold State.pumpAppends; split
  · rfl
  · split
    · rfl
    · dsimp only; exact (State.setMint_still _ _ fun _ => rfl).trans (s.jWrite_still ..)

@[simp] theorem State.stuckEvent_still : s.stuckEvent.still = s.still := by
  unfold State.stuckEvent; split <;> simp

@[simp] theorem State.newRecord_still (d h c : Nat) (r : Bool) : (s.newRecord d h c r).still = s.still := s.setMint_still _ fun _ => rfl

@[simp] theorem State.reserve_still (d h : Nat) : (s.reserve d h).still = s.still := by
  unfold State.reserve; split
  · simp
  · dsimp only; split <;> (rw [State.pumpAppends_still]; rfl)

@[simp] theorem State.drawFrom_still (d h : Nat) (c : IvCounter) : (s.drawFrom d h c).1.still = s.still := by
  unfold State.drawFrom; split
  · dsimp only; split <;> simp
  · split
    · rfl
    · split
      · rfl
      · simp

@[simp] theorem State.startCompaction_still : s.startCompaction.still = s.still := by
  unfold State.startCompaction; split
  · rfl
  · exact s.setMint_still _ fun _ => rfl

@[simp] theorem State.draw_still (d h : Nat) : (s.draw d h).1.still = s.still := by
  unfold State.draw; split
  · rfl
  · split
    · split
      · rfl
      · split
        · rfl
        · split <;> simp
    · split
      · dsimp only; rw [State.event_still]; split <;> simp
      · split <;> simp

@[simp] theorem State.drawIv_still (q : Nat) (c : BitVec 17) : (s.drawIv q c).still = s.still := by
  unfold State.drawIv
  split
  · rfl
  · rename_i j _; split
    · rfl
    · split
      · rfl
      · rename_i h _; split
        · simp
        · have e := s.draw_still j.domain h
          revert e
          generalize s.draw j.domain h = p
          intro e
          obtain ⟨u, r⟩ := p
          cases r <;> simpa using e

/-! ## Keys and contexts -/

@[simp] theorem State.checkSlot_still (d h : Nat) (n : Bool) : (s.checkSlot d h n).1.still = s.still := by
  unfold State.checkSlot
  repeat' split
  all_goals simp

theorem State.checkKeys_still (d op : Nat) (ks : List JobKey) (r : KeyStep) : (State.checkKeys d op ks s r).1.still = s.still := by
  induction ks generalizing s r with
  | nil => rfl
  | cons k ks ih =>
    unfold State.checkKeys; split
    · exact ih ..
    · dsimp only; rw [ih]; simp

@[simp] theorem State.saveCtx_still (c : Ctx) : (s.saveCtx c).still = s.still := by
  unfold State.saveCtx; split
  · split
    · rfl
    · exact foldl_keeps State.still _ (fun s _ => s.issue_still ..) _ _
  · rfl

@[simp] theorem State.ctxRoom_still (d : Nat) : (s.ctxRoom d).1.still = s.still := by
  unfold State.ctxRoom
  repeat' split
  all_goals simp

@[simp] theorem State.takeCtx_still (j : Job) (o : Bool) : (s.takeCtx j o).1.still = s.still := by
  have h := s.ctxRoom_still j.domain
  unfold State.takeCtx; split
  · rename_i u e; rw [e] at h; exact h
  · exact h

@[simp] theorem State.takeCtxs_still (j : Job) : (s.takeCtxs j).1.still = s.still := by
  unfold State.takeCtxs; dsimp only
  repeat' split
  all_goals simp

/-! ## Validation and staging -/

@[simp] theorem State.enterRun_still (q : Nat) (c : BitVec 17) : (s.enterRun q c).still = s.still := by
  unfold State.enterRun; split
  · rfl
  · dsimp only
    have hu : (s.setJob q c fun j => { j with passes := s.jobPasses j, asked := none }).still = s.still := rfl
    revert hu
    generalize (s.setJob q c fun j => { j with passes := s.jobPasses j, asked := none }) = u
    intro hu
    split
    · exact hu
    · rename_i j _
      have e := u.takeCtxs_still j
      revert e
      generalize u.takeCtxs j = p
      intro e
      obtain ⟨v, g⟩ := p
      repeat' split
      all_goals first | simpa using hu | simpa [hu] using e

@[simp] theorem State.lookAll_still (j : Job) : (s.lookAll j).1.still = s.still := by
  unfold State.lookAll; dsimp only
  repeat' split
  all_goals simp [State.checkKeys_still]

@[simp] theorem State.keyProgress_still (q : Nat) (c : BitVec 17) : (s.keyProgress q c).still = s.still := by
  unfold State.keyProgress; split
  · rfl
  · rename_i j _
    have e := s.lookAll_still j
    split
    · rfl
    · split
      · simp
      · dsimp only
        repeat' split
        all_goals simp [e]

@[simp] theorem State.enterKeys_still (q : Nat) (c : BitVec 17) : (s.enterKeys q c).still = s.still := by
  unfold State.enterKeys; split
  · rfl
  · split <;> simp

@[simp] theorem State.enterFrags_still (q : Nat) (c : BitVec 17) : (s.enterFrags q c).still = s.still := by
  unfold State.enterFrags; split
  · rfl
  · dsimp only
    repeat' split
    all_goals simp

@[simp] theorem State.startJob_still (x : Queue) (c : BitVec 17) (l : Nat) : (s.startJob x c l).still = s.still := by
  unfold State.startJob; split
  · rfl
  · dsimp only
    repeat' split
    all_goals simp

theorem State.validateOne_still (q : Nat) (t : State) (h : s.validateOne q = some t) : t.still = s.still := by
  have put (x : Queue) (f : Queue → Queue) (hf : ∀ x, (f x).still = x.still) (j : Job) :
      ((s.setQueue x.num f).addJob j).still = s.still := (s.setQueue_still _ _ hf)
  unfold State.validateOne at h
  split at h
  · cases h
  · dsimp only at h
    split at h
    · cases h
    · split at h
      · cases h
      · split at h
        · injection h with h
          subst h
          unfold State.copyUnsound; dsimp only
          rw [State.lastTxn_still, State.readBeat_still]; exact State.setQueue_still _ _ _ fun _ => rfl
        · injection h with h
          subst h
          repeat' split
          all_goals (simp; exact State.setQueue_still _ _ _ fun _ => rfl)

theorem State.pumpQueue_still (q fuel : Nat) : (State.pumpQueue q fuel s).still = s.still := by
  induction fuel generalizing s with
  | zero => rfl
  | succ n ih =>
    unfold State.pumpQueue; split
    · rename_i h; rw [ih, s.validateOne_still _ _ h]
    · rfl

@[simp] theorem State.pumpAll_still : s.pumpAll.still = s.still := foldl_keeps State.still _ (fun s _ => s.pumpQueue_still _ _) _ _

@[simp] theorem State.fetchQueue_still (q : Nat) : (s.fetchQueue q).still = s.still := by
  unfold State.fetchQueue; split
  · exact s.readEntries_still ..
  · rfl

@[simp] theorem State.fetchAll_still : s.fetchAll.still = s.still := by
  unfold State.fetchAll; split
  · exact foldl_keeps State.still _ (fun s _ => s.fetchQueue_still _) _ _
  · rfl

@[simp] theorem State.sliceStaged_still (q : Nat) (c : BitVec 17) (i : Nat) : (s.sliceStaged q c i).still = s.still := by
  unfold State.sliceStaged; split <;> simp

theorem State.stageNext_still (q : Nat) (c : BitVec 17) (t : State) (h : s.stageNext q c = some t) : t.still = s.still := by
  unfold State.stageNext at h
  split at h
  · cases h
  · dsimp only at h
    split at h
    · cases h
    · injection h with h
      subst h; split <;> simp

theorem State.stageJob_still (q : Nat) (c : BitVec 17) (fuel : Nat) : (State.stageJob q c fuel s).still = s.still := by
  induction fuel generalizing s with
  | zero => rfl
  | succ n ih =>
    unfold State.stageJob; split
    · rename_i h; rw [ih, s.stageNext_still _ _ _ h]
    · rfl

@[simp] theorem State.stageBasil_still (q : Nat) (c : BitVec 17) : (s.stageBasil q c).still = s.still := by
  unfold State.stageBasil; split
  · rfl
  · split
    · rfl
    · dsimp only
      repeat' split
      all_goals simp

@[simp] theorem State.askRecord_still (q : Nat) (c : BitVec 17) : (s.askRecord q c).still = s.still := by
  unfold State.askRecord; split
  · split <;> rfl
  · rfl

@[simp] theorem State.stageAll_still : s.stageAll.still = s.still :=
  foldl_keeps State.still _ (fun s _ => by rw [State.stageBasil_still, State.askRecord_still, State.stageJob_still]) _ _

@[simp] theorem State.startRestore_still (q : Nat) (c : BitVec 17) : (s.startRestore q c).still = s.still :=
  foldl_keeps State.still _ (fun s x => by
    dsimp only; split
    · split
      · have e := s.ctxRoom_still x.domain
        revert e
        generalize s.ctxRoom x.domain = p
        intro e
        obtain ⟨u, g⟩ := p
        cases g <;> simpa using e
      · rfl
    · rfl) _ _

@[simp] theorem State.restoreAll_still : s.restoreAll.still = s.still :=
  foldl_keeps State.still _ (fun s _ => by split <;> simp) _ _

@[simp] theorem State.kbFrame_still (l : Nat) : (s.kbFrame l).still = s.still := by
  unfold State.kbFrame; split <;> rfl

@[simp] theorem State.kbSend_still : s.kbSend.still = s.still :=
  foldl_keeps State.still _ (fun _ l => foldl_keeps State.still _ (fun s _ => s.kbFrame_still l) _ _) _ _

@[simp] theorem State.fennelFlow_still : s.fennelFlow.still = s.still := by unfold State.fennelFlow; split <;> simp

@[simp] theorem State.keyFlow_still : s.keyFlow.still = s.still := by unfold State.keyFlow; split <;> simp

/-- The block's own progress keeps the still part of the state. -/
@[simp] theorem State.flow_still : s.flow.still = s.still := by simp [State.flow]

end

end Sys2Proof.Machine
end

