-- ==== Sys2Proof/Laws/Update.lean ====
section
/-! SUPPORT. What the updates of State write, and what the look-ups of jobs, queues, domains, event queues and slots find after them. -/

namespace Sys2Proof.Machine

/-! ## What an update writes -/

section units
variable (s : State)

@[simp] theorem State.setMode_mode (f : ModeUnit → ModeUnit) : (s.setMode f).mode = f s.mode := rfl
@[simp] theorem State.setLovage_lovage (f : Lovage → Lovage) : (s.setLovage f).lovage = f s.lovage := rfl
@[simp] theorem State.setSage_sage (f : Sage → Sage) : (s.setSage f).sage = f s.sage := rfl
@[simp] theorem State.setMint_mint (f : Mint → Mint) : (s.setMint f).mint = f s.mint := rfl
@[simp] theorem State.setRp_rp (f : RegPath → RegPath) : (s.setRp f).dill.rp = f s.dill.rp := rfl
@[simp] theorem State.setReg_regs (a : Nat) (v : BitVec 64) : (s.setReg a v).regs = assocSet s.regs a v := rfl
@[simp] theorem State.emit_outbox (o : Output) : (s.emit o).outbox = s.outbox ++ [o] := rfl
@[simp] theorem State.useFree_free (n : Nat) : (s.useFree n).free = s.free + n := rfl
@[simp] theorem State.addChange_changes (x : Change) : (s.addChange x).admin.changes = s.admin.changes ++ [x] := rfl
@[simp] theorem State.addChange_loads (x : Change) : (s.addChange x).admin.loads = s.admin.loads := rfl
@[simp] theorem State.setJob_queues (q : Nat) (c : BitVec 17) (f : Job → Job) : (s.setJob q c f).fennel.queues = s.fennel.queues := rfl
@[simp] theorem State.setQueue_jobs (q : Nat) (f : Queue → Queue) : (s.setQueue q f).fennel.jobs = s.fennel.jobs := rfl
@[simp] theorem State.setKb_ports (l : Nat) (f : KbLane → KbLane) : (s.setKb l f).sorrel.ports = s.sorrel.ports := rfl

end units

/-! ## Look-ups -/

/-- A map that rewrites the entries selected, and keeps what a search looks for, is found rewritten. -/
theorem find?_map_select {α : Type} (p sel : α → Bool) (f : α → α) (h : ∀ x, p (f x) = p x) (l : List α) :
    (l.map fun x => if sel x then f x else x).find? p = (l.find? p).map fun x => if sel x then f x else x := by
  induction l with
  | nil => rfl
  | cons x l ih =>
    have e : p (if sel x then f x else x) = p x := by split <;> simp [h]
    simp only [List.map_cons, List.find?_cons, e]
    split
    · rfl
    · exact ih

section lookups
variable (s : State)

theorem State.job?_num {q : Nat} {c : BitVec 17} {j : Job} (h : s.job? q c = some j) : j.queue = q ∧ j.count = c := by
  simpa using List.find?_some h

theorem State.queue?_num {q : Nat} {x : Queue} (h : s.queue? q = some x) : x.num = q := by simpa using List.find?_some h

theorem State.domain?_num {d : Nat} {x : Domain} (h : s.domain? d = some x) : x.num = d := by simpa using List.find?_some h

theorem State.job?_setJob (q q' : Nat) (c c' : BitVec 17) (f : Job → Job) (h : ∀ j, (f j).queue = j.queue ∧ (f j).count = j.count) :
    (s.setJob q c f).job? q' c' = (s.job? q' c').map fun j => if j.queue == q && j.count == c then f j else j :=
  find?_map_select _ _ f (fun j => by simp [h]) _

theorem State.queue?_setQueue (q q' : Nat) (f : Queue → Queue) (h : ∀ x, (f x).num = x.num) :
    (s.setQueue q f).queue? q' = (s.queue? q').map fun x => if x.num == q then f x else x :=
  find?_map_select _ _ f (fun x => by simp [h]) _

theorem State.domain?_setDomain (d d' : Nat) (f : Domain → Domain) (h : ∀ x, (f x).num = x.num) :
    (s.setDomain d f).domain? d' = (s.domain? d').map fun x => if x.num == d then f x else x :=
  find?_map_select _ _ f (fun x => by simp [h]) _

theorem State.evq?_setEvq (d d' : Nat) (f : EventQ → EventQ) (h : ∀ x, (f x).domain = x.domain) :
    (s.setEvq d f).evq? d' = (s.evq? d').map fun x => if x.domain == d then f x else x :=
  find?_map_select _ _ f (fun x => by simp [h]) _

theorem State.slot?_setSlot (d d' h h' : Nat) (f : KeySlot → KeySlot) (e : ∀ x, (f x).domain = x.domain ∧ (f x).handle = x.handle) :
    (s.setSlot d h f).slot? d' h' = (s.slot? d' h').map fun x => if x.domain == d && x.handle == h then f x else x :=
  find?_map_select _ _ f (fun x => by simp [e]) _

theorem State.job?_of_fennel {s t : State} (h : t.fennel = s.fennel) (q : Nat) (c : BitVec 17) : t.job? q c = s.job? q c := by
  unfold State.job?
  rw [h]

end lookups

end Sys2Proof.Machine
end

