-- ==== Sys2Proof/Laws/Jobs.lean ====
section
/-! SUPPORT. The status of a job: what leaves it alone, and what the end of a job makes of it (R19). -/

namespace Sys2Proof.Machine

/-- The status of the job of a queue and a count; none where there is no job. -/
def State.statusOf (s : State) (q : Nat) (c : BitVec 17) : Option (Option Status) := (s.job? q c).map (·.status)

section status
variable (s : State)

theorem State.endedWith_iff (q : Nat) (c : BitVec 17) (st : Status) : s.endedWith q c st ↔ s.statusOf q c = some (some st) := by
  unfold State.endedWith State.statusOf
  simp

theorem State.statusOf_of_fennel {s t : State} (h : t.fennel = s.fennel) (q : Nat) (c : BitVec 17) : t.statusOf q c = s.statusOf q c := by
  unfold State.statusOf
  rw [State.job?_of_fennel h]

/-- A change of a job that keeps its name and its status changes no status. -/
theorem State.setJob_statusOf (q q' : Nat) (c c' : BitVec 17) (f : Job → Job)
    (h : ∀ j, (f j).queue = j.queue ∧ (f j).count = j.count ∧ (f j).status = j.status) :
    (s.setJob q c f).statusOf q' c' = s.statusOf q' c' := by
  unfold State.statusOf
  rw [State.job?_setJob _ _ _ _ _ _ fun j => ⟨(h j).1, (h j).2.1⟩]
  cases s.job? q' c' with
  | none => rfl
  | some j =>
    simp only [Option.map_some]
    split
    · rw [(h j).2.2]
    · rfl

/-- A change of a queue changes no status. -/
@[simp] theorem State.setQueue_statusOf (q q' : Nat) (c : BitVec 17) (f : Queue → Queue) :
    (s.setQueue q f).statusOf q' c = s.statusOf q' c := rfl

@[simp] theorem State.issueAt_fennel (pos : Nat) (op : RurenOp) (cls : TClass) (d a n : Nat) (data : Bytes) (mk : Nat → Purpose) :
    (s.issueAt pos op cls d a n data mk).fennel = s.fennel := by
  unfold State.issueAt
  refine foldl_keeps State.fennel _ ?_ _ _
  intro s x
  rfl

@[simp] theorem State.issue_fennel (op : RurenOp) (cls : TClass) (d a n : Nat) (data : Bytes) (mk : Nat → Purpose) :
    (s.issue op cls d a n data mk).fennel = s.fennel := s.issueAt_fennel ..

@[simp] theorem State.clearLog_fennel (j : Job) : (s.clearLog j).fennel = s.fennel := by
  unfold State.clearLog
  split <;> rfl

@[simp] theorem State.writeDst_fennel (j : Job) (cls : TClass) (off : Nat) (data : Bytes) (mk : Nat → Purpose) :
    (s.writeDst j cls off data mk).fennel = s.fennel := by
  unfold State.writeDst
  refine foldl_keeps State.fennel _ ?_ _ _
  intro s x
  exact s.issueAt_fennel ..

@[simp] theorem State.postEvent_fennel (d : Nat) (e : Event) : (s.postEvent d e).fennel = s.fennel := by
  unfold State.postEvent State.checkHold State.endRecovery
  dsimp only
  split
  · rfl
  · split
    · rfl
    · split <;> rfl

@[simp] theorem State.event_fennel (d t p a : Nat) (data : Bytes) : (s.event d t p a data).fennel = s.fennel := s.postEvent_fennel ..

end status

theorem State.issueFrom_statusOf (q fuel : Nat) (c : BitVec 17) (s : State) (q' : Nat) (c' : BitVec 17) :
    (State.issueFrom q fuel c s).statusOf q' c' = s.statusOf q' c' := by
  induction fuel generalizing c s with
  | zero => rfl
  | succ n ih =>
    unfold State.issueFrom
    split
    · split
      · exact ih _ _
      · split
        · rw [ih]
          refine Eq.trans (State.statusOf_of_fennel (s := State.setJob _ _ _ _) rfl _ _) ?_
          refine (State.setJob_statusOf _ _ _ _ _ _ ?_).trans ?_
          · intro j
            exact ⟨rfl, rfl, rfl⟩
          · exact State.statusOf_of_fennel (State.issue_fennel ..) _ _
        · rfl
    · rfl

/-- The issue of completions changes no status. -/
@[simp] theorem State.issueCompletions_statusOf (s : State) (q q' : Nat) (c : BitVec 17) :
    (s.issueCompletions q).statusOf q' c = s.statusOf q' c := by
  unfold State.issueCompletions
  split
  · rfl
  · exact State.issueFrom_statusOf ..

/-- A job that settles keeps its status. -/
@[simp] theorem State.settle_statusOf (s : State) (q q' : Nat) (c c' : BitVec 17) : (s.settle q c).statusOf q' c' = s.statusOf q' c' := by
  unfold State.settle
  split
  · rfl
  · split
    · rw [State.issueCompletions_statusOf]
      refine (State.setJob_statusOf _ _ _ _ _ _ ?_).trans ?_
      · intro j
        exact ⟨rfl, rfl, rfl⟩
      · exact State.statusOf_of_fennel (State.clearLog_fennel ..) _ _
    · rfl

/-- What the end of a job, with zeros to write or none, makes of every status: the first one stays. -/
theorem State.endJobZ_statusOf (s : State) (q q' : Nat) (c c' : BitVec 17) (st : Status) (z : Nat) :
    (s.endJobZ q c st z).statusOf q' c' =
      if q' = q ∧ c' = c then (s.statusOf q c).map fun x => x.or (some st) else s.statusOf q' c' := by
  unfold State.endJobZ
  cases hj : s.job? q c with
  | none =>
    simp only [Option.filter_none, State.statusOf, hj, Option.map_none]
    split
    · rename_i e
      rw [e.1, e.2, hj]
      rfl
    · rfl
  | some j =>
    cases ht : j.status with
    | some x =>
      simp only [Option.filter, ht, Option.isNone_some, Bool.false_eq_true, if_false, State.statusOf, hj, Option.map_some, Option.some_or]
      split
      · rename_i e
        rw [e.1, e.2, hj, Option.map_some, ht]
      · rfl
    | none =>
      simp only [Option.filter, ht, Option.isNone_none, if_true]
      rw [State.settle_statusOf]
      have key : ∀ (u : State) (f : Job → Job), u.fennel.jobs = s.fennel.jobs →
          (∀ j, (f j).queue = j.queue ∧ (f j).count = j.count ∧ (f j).status = some st) →
          (u.setJob q c f).statusOf q' c' =
          if q' = q ∧ c' = c then (s.statusOf q c).map fun x => x.or (some st) else s.statusOf q' c' := by
        intro u f hu hf
        have hu' : ∀ q c, u.job? q c = s.job? q c := by
          intro q c
          unfold State.job?
          rw [hu]
        unfold State.statusOf
        rw [State.job?_setJob _ _ _ _ _ _ fun j => ⟨(hf j).1, (hf j).2.1⟩]
        rw [hu']
        by_cases e : q' = q ∧ c' = c
        · rw [e.1, e.2, hj]
          have hn := State.job?_num s hj
          simp [hn.1, hn.2, ht, (hf j).2.2]
        · rw [if_neg e]
          cases hk : s.job? q' c' with
          | none => rfl
          | some k =>
            have hn := State.job?_num s hk
            simp only [Option.map_some, hn.1, hn.2, Bool.and_eq_true, beq_iff_eq, if_neg e]
      have drop : ∀ (b : Bool) (u : State), (if b then u else u.dropOuts q c).fennel.jobs = u.fennel.jobs := by
        intro b u; cases b <;> rfl
      split
      · rw [State.setQueue_statusOf]
        exact key _ _ (drop ..) fun _ => ⟨rfl, rfl, rfl⟩
      · exact key _ _ (drop ..) fun _ => ⟨rfl, rfl, rfl⟩

/-- What the end of a job makes of every status: the first one stays. -/
theorem State.endJob_statusOf (s : State) (q q' : Nat) (c c' : BitVec 17) (st : Status) :
    (s.endJob q c st).statusOf q' c' =
      if q' = q ∧ c' = c then (s.statusOf q c).map fun x => x.or (some st) else s.statusOf q' c' := by
  unfold State.endJob
  split
  · rename_i h
    split
    · rename_i e
      rw [e.1, e.2]
      simp [State.statusOf, h]
    · rfl
  · rw [State.endJobZ_statusOf]

/-! ## Admin entries -/

section admin
variable {s : State} {c : BitVec 17} {j : Job}

/-- An admin entry that fails ends with its status, and moves nothing else. -/
theorem State.adminFail_ends (h : s.job? 0 c = some j) (hs : j.status = none) (st : Status) (off : Nat) :
    (s.adminFail c st off).endedWith 0 c st ∧ (s.adminFail c st off).still = s.still := by
  refine ⟨?_, by simp [State.adminFail]⟩
  unfold State.adminFail
  rw [State.endedWith_iff, State.endJob_statusOf, if_pos ⟨rfl, rfl⟩]
  refine (congrArg (Option.map _) (State.setJob_statusOf s 0 0 c c _ ?_)).trans ?_
  · intro j
    exact ⟨rfl, rfl, rfl⟩
  · simp [State.statusOf, h, hs]

theorem State.adminRefuse_ends (h : s.job? 0 c = some j) (hs : j.status = none) (st : Status) :
    (s.adminRefuse c st).endedWith 0 c st ∧ (s.adminRefuse c st).still = s.still := by
  refine ⟨?_, by simp [State.adminRefuse]⟩
  unfold State.adminRefuse
  rw [State.endedWith_iff, State.endJob_statusOf]
  simp [State.statusOf, h, hs]

theorem State.adminOk_ends (h : s.job? 0 c = some j) (hs : j.status = none) (r : Nat) :
    (s.adminOk c r).endedWith 0 c .ok ∧ (s.adminOk c r).still = s.still := by
  refine ⟨?_, by simp [State.adminOk]⟩
  unfold State.adminOk
  rw [State.endedWith_iff, State.endJob_statusOf, if_pos ⟨rfl, rfl⟩]
  refine (congrArg (Option.map _) (State.setJob_statusOf s 0 0 c c _ ?_)).trans ?_
  · intro j
    exact ⟨rfl, rfl, rfl⟩
  · simp [State.statusOf, h, hs]

/-- The named admin command, waiting to take effect. -/
theorem State.adminJob_of {op : Nat} {p : Nat → Bool} (h : s.job? 0 c = some j) (hp : j.phase = .command) (hs : j.status = none)
    (hr : s.plansRun = true) (ho : eOp j.entry = op) (hb : p (eSub j.entry) = true) : s.adminJob c op p = some j := by
  simp [State.adminJob, h, hp, hs, hr, ho, hb, Option.filter]

/-- It takes effect. -/
theorem State.adminDo_of {op : Nat} {p : Nat → Bool} {f : Job → State} (h : s.adminJob c op p = some j) :
    s.adminDo c op p f = .next (f j).flow := by
  simp [State.adminDo, onSome, h, done]

end admin

end Sys2Proof.Machine
end

