-- ==== Sys2Proof/Laws/Memory.lean ====
section
/-! SUPPORT. The mailbox areas' memory: every write keeps the canonical form, reads see what was written, and every other byte stays. -/

namespace Sys2Proof.Machine

/-- The canonical form as a statement: every entry inside the areas and not zero, and every offset above the ones before it. -/
theorem Memory.wf_iff (m : Memory) : Memory.wf m = true ↔ (m.map (·.1)).Pairwise (· < ·) ∧ ∀ c ∈ m, c.1 < 0x800 ∧ c.2 ≠ 0 := by
  simp [Memory.wf]

theorem Memory.wf_nil : Memory.wf [] = true := by decide

theorem Memory.wf_cons (x : Nat × Byte) (m : Memory) :
    Memory.wf (x :: m) = true ↔ (∀ c ∈ m, x.1 < c.1) ∧ x.1 < 0x800 ∧ x.2 ≠ 0 ∧ Memory.wf m = true := by
  simp only [Memory.wf_iff, List.map_cons, List.pairwise_cons, List.mem_map, forall_exists_index, and_imp, forall_apply_eq_imp_iff₂,
    List.mem_cons, forall_eq_or_imp]
  constructor
  · rintro ⟨⟨h1, h2⟩, ⟨h3, h4⟩, h5⟩
    exact ⟨h1, h3, h4, h2, h5⟩
  · rintro ⟨h1, h3, h4, h2, h5⟩
    exact ⟨⟨h1, h2⟩, ⟨h3, h4⟩, h5⟩

/-- A write adds no offset but its own. -/
theorem memSet_mem (m : Memory) (a : Nat) (b : Byte) (c : Nat × Byte) (h : c ∈ memSet m a b) : c = (a, b) ∧ b ≠ 0 ∨ c ∈ m := by
  induction m with
  | nil =>
    unfold memSet at h
    split at h
    · simp at h
    · rename_i hb
      exact .inl ⟨by simpa using h, hb⟩
  | cons x m ih =>
    obtain ⟨y, v⟩ := x
    unfold memSet at h
    split at h
    · split at h
      · exact .inr h
      · rename_i hb
        rcases List.mem_cons.1 h with h | h
        · exact .inl ⟨h, hb⟩
        · exact .inr h
    · split at h
      · split at h
        · exact .inr (List.mem_cons_of_mem _ h)
        · rename_i hb
          rcases List.mem_cons.1 h with h | h
          · exact .inl ⟨h, hb⟩
          · exact .inr (List.mem_cons_of_mem _ h)
      · rcases List.mem_cons.1 h with h | h
        · exact .inr (h ▸ List.mem_cons_self ..)
        · rcases ih h with h | h
          · exact .inl h
          · exact .inr (List.mem_cons_of_mem _ h)

/-- One byte's write keeps the canonical form; a zero may be written at any offset. -/
theorem memSet_wf (m : Memory) (a : Nat) (b : Byte) (hm : Memory.wf m = true) (ha : a < 0x800 ∨ b = 0) : Memory.wf (memSet m a b) = true := by
  induction m with
  | nil =>
    unfold memSet
    split
    · exact Memory.wf_nil
    · rename_i hb
      exact (Memory.wf_cons _ _).2 ⟨by simp, ha.resolve_right hb, hb, Memory.wf_nil⟩
  | cons x m ih =>
    obtain ⟨y, v⟩ := x
    have hc := (Memory.wf_cons _ _).1 hm
    unfold memSet
    split
    · rename_i hlt
      split
      · exact hm
      · rename_i hb
        refine (Memory.wf_cons _ _).2 ⟨?_, ha.resolve_right hb, hb, hm⟩
        intro c hcm
        rcases List.mem_cons.1 hcm with h | h
        · exact h ▸ hlt
        · exact Nat.lt_trans hlt (hc.1 c h)
    · split
      · rename_i e
        subst e
        split
        · exact hc.2.2.2
        · rename_i hb
          exact (Memory.wf_cons _ _).2 ⟨hc.1, hc.2.1, hb, hc.2.2.2⟩
      · refine (Memory.wf_cons _ _).2 ⟨?_, hc.2.1, hc.2.2.1, ih hc.2.2.2⟩
        intro c hcm
        rcases memSet_mem m a b c hcm with h | h
        · rw [h.1]
          dsimp only
          omega
        · exact hc.1 c h

/-- A write inside the areas keeps the canonical form. -/
theorem memWrite_wf (m : Memory) (a : Nat) (data : Bytes) (hm : Memory.wf m = true) (ha : a + data.length ≤ 0x800) :
    Memory.wf (memWrite m a data) = true := by
  induction data generalizing m a with
  | nil => exact hm
  | cons b bs ih =>
    simp only [List.length_cons] at ha
    exact ih _ _ (memSet_wf m a b hm (.inl (by omega))) (by omega)

/-- Zeros may be written anywhere. -/
theorem memWrite_zeros_wf (m : Memory) (a n : Nat) (hm : Memory.wf m = true) : Memory.wf (memWrite m a (Machine.zeros n)) = true := by
  unfold Machine.zeros
  induction n generalizing m a with
  | zero => exact hm
  | succ n ih => exact ih _ _ (memSet_wf m a 0 hm (.inr rfl))

/-! ## Reads -/

theorem memGet_cons (x : Nat × Byte) (m : Memory) (a : Nat) : memGet (x :: m) a = if a = x.1 then x.2 else memGet m a := by
  unfold memGet assocD
  simp only [List.lookup]
  by_cases h : a = x.1
  · simp [h]
  · have : (a == x.1) = false := by simpa using h
    simp [this, h]

/-- An offset below every entry reads zero. -/
theorem memGet_below (m : Memory) (a : Nat) (h : ∀ c ∈ m, a < c.1) : memGet m a = 0 := by
  induction m with
  | nil => rfl
  | cons x m ih =>
    have := h x (List.mem_cons_self ..)
    rw [memGet_cons, if_neg (by omega)]
    exact ih fun c hc => h c (List.mem_cons_of_mem _ hc)

/-- A byte reads as written; every other byte as before. -/
theorem memGet_memSet (m : Memory) (a x : Nat) (b : Byte) (hm : Memory.wf m = true) :
    memGet (memSet m a b) x = if x = a then b else memGet m x := by
  induction m with
  | nil =>
    unfold memSet
    split
    · rename_i hb
      subst hb
      split <;> rfl
    · rw [memGet_cons]
  | cons y m ih =>
    obtain ⟨y, v⟩ := y
    have hc := (Memory.wf_cons _ _).1 hm
    unfold memSet
    split
    · rename_i hlt
      split
      · rename_i hb
        split
        · rename_i hx
          rw [hb, hx]
          refine memGet_below _ _ fun c hcm => ?_
          rcases List.mem_cons.1 hcm with h | h
          · exact h ▸ hlt
          · exact Nat.lt_trans hlt (hc.1 c h)
        · rfl
      · rw [memGet_cons]
    · split
      · rename_i e
        subst e
        split
        · rename_i hb
          rw [memGet_cons]
          dsimp only
          split
          · rename_i hx
            rw [hb, hx]
            exact memGet_below _ _ hc.1
          · rfl
        · rw [memGet_cons, memGet_cons]
          dsimp only
          split <;> rfl
      · rw [memGet_cons, memGet_cons, ih hc.2.2.2]
        dsimp only
        split
        · rw [if_neg (by omega)]
        · rfl

/-- A write of bytes inside the areas reads back, and leaves every other byte. -/
theorem memGet_memWrite (m : Memory) (a x : Nat) (data : Bytes) (hm : Memory.wf m = true) (ha : a + data.length ≤ 0x800) :
    memGet (memWrite m a data) x = if a ≤ x ∧ x < a + data.length then data.getD (x - a) 0 else memGet m x := by
  induction data generalizing m a with
  | nil =>
    simp only [memWrite, List.length_nil]
    rw [if_neg (by omega)]
  | cons b bs ih =>
    simp only [List.length_cons] at ha ⊢
    unfold memWrite
    rw [ih _ _ (memSet_wf m a b hm (.inl (by omega))) (by omega), memGet_memSet m a x b hm]
    by_cases h : x = a
    · subst h
      rw [if_neg (by omega), if_pos rfl, if_pos (by omega)]
      simp
    · rw [if_neg h]
      by_cases h2 : a + 1 ≤ x ∧ x < a + 1 + bs.length
      · rw [if_pos h2, if_pos (by omega)]
        obtain ⟨k, rfl⟩ : ∃ k, x = a + 1 + k := ⟨x - (a + 1), by omega⟩
        have e1 : a + 1 + k - (a + 1) = k := by omega
        have e2 : a + 1 + k - a = k + 1 := by omega
        rw [e1, e2]
        rfl
      · rw [if_neg h2, if_neg (by omega)]

end Sys2Proof.Machine
end

