-- ==== Sys2Proof/WellFormed.lean ====
section
/-! DEFINITION. Well-formed commands: every operand in the range that the spec gives it. The meanings are total and do not depend on it; it says which commands the outside can send. -/

namespace Sys2Proof

/-- A domain number of 0 to 511 and a requester of 16 bits (R463, R464). -/
def From.wf (s : From) : Bool := s.domain < 512 && s.requester < 65536

/-- A strobe: a period of the tick at 200 MHz or above, and a phase in sixteenths (R293). -/
def Strobe.wf (s : Strobe) : Bool := s.phase < 16

/-- The numbers of the units that step 7 tests (Table 14.4). -/
def StartupFindings.wf (f : StartupFindings) : Bool :=
  f.chive.all (· < 72) && f.dill.all (· < 16) && f.basil.all (· < 16) && f.ports.all (· < 10) && f.kb.all (· < 2)
  && f.cells.all (· < 2)

/-- The elements of Table 12.2. -/
def Element.wf : Element → Bool
  | .keySlot d h => d < 512 && h < 2 ^ 24
  | .useBlock d h => d < 512 && h < 2 ^ 24
  | .counterRecord d h => d < 512 && h < 2 ^ 24
  | .jobState q _ => q < 1024
  | .context q _ => q < 1024
  | .queueState q => q < 1024
  | .thymeState _ => true
  | .retirementMap => true
  | .testVectors => true
  | .shadowPointers => true
  | .basilMemory q => q < 16
  | .curveEntry e => 0x40 ≤ e && e ≤ 0x7F
  | .verifierRom q => q < 16
  | .testRom k i => 1 ≤ k && k ≤ 9 && i < 72
  | .eventStaging d i w => d < 512 && i < 64 && w < 8
  | .mailboxArea d o => d < 512 && o < 0x800
  | .registerFifo => true
  | .timeKeys => true
  | .oscillatorModel => true
  | .setupRegisters => true

/-- A command that the outside can send. -/
def Instr.wf : Instr → Bool
  | .tickBoundary checks => checks.basilFails.all (· < 16) && checks.basilSigs.all (·.1 < 16) && checks.bunchFails.all (· < 9)
      && checks.heldFails.all (·.1 < 1024) && checks.lineFails.all (fun x => x.1 < 512 && x.2.1 < 2 ^ 45) && checks.stagingFails.all (· < 16)
  | .sliceResult kind lane _ _ _ => lane < (match kind with | .chive => 72 | .dill => 16)
  | .epochBoundary => true
  | .doorbell src q _ => src.wf && q < 1024
  | .disable src q _ => src.wf && q < 1024
  | .enable src q _ => src.wf && q < 1024
  | .pushWindowWrite src q offset data => src.wf && q < 1024 && data.length ≤ 64 && offset < 0x1000
  | .push q _ => q < 1024
  | .pushHalfTimeout q => q < 1024
  | .entryReadResponse port tag data => port < 10 && tag < 256 && data.bytes.length ≤ 4096
  | .auxBlockReadResponse port tag data => port < 10 && tag < 256 && data.bytes.length ≤ 4096
  | .fragmentTableReadResponse port tag data => port < 10 && tag < 256 && data.bytes.length ≤ 4096
  | .payloadReadResponse port tag data => port < 10 && tag < 256 && data.bytes.length ≤ 4096
  | .writeResponse port tag _ => port < 10 && tag < 256
  | .completionConfirm port tag => port < 10 && tag < 256
  | .coalescingTimer q => q < 1024
  | .p2Credit => true
  | .linkDown domain => domain < 512
  | .linkUp domain => domain < 512
  | .requesterReset src => src.wf
  | .flr domain => domain < 512
  | .fabricErrorResponse port tag => port < 10 && tag < 256
  | .readTruncated port tag beats data _ => port < 10 && tag < 256 && beats < 32 && data.bytes.length ≤ 128 * beats
  | .writeTruncated port tag => port < 10 && tag < 256
  | .checkResponse port tag => port < 10 && tag < 256
  | .egressCheckFail port tag => port < 10 && tag < 256
  | .portTestResult port _ => port < 10
  | .suspendedPortReadTimeout port => port < 10
  | .portRst port => port < 10
  | .keyLoadResponse _ _ _ => true
  | .slotWaitRetry q _ => q < 1024
  | .useReserveResponse _ _ s g => s < 2 ^ 64 && g < 2 ^ 64
  | .keyRevoke handle _ => handle < 2 ^ 24
  | .keyBusRequestLost _ => true
  | .unwrapSlotSwitch domain handle => domain < 512 && handle < 2 ^ 24
  | .jnlWriteResponse _ _ => true
  | .compactionStep => true
  | .jnlReadResponse _ _ => true
  | .jnlEraseResponse _ _ => true
  | .journalRecovery => true
  | .claimResponse port tag => port < 10 && tag < 256
  | .evictResponse port tag _ => port < 10 && tag < 256
  | .snoop port stag domain line _ => port < 10 && stag < 256 && domain < 512 && line < 2 ^ 45
  | .contextRestore port tag data => port < 10 && tag < 256 && data.bytes.length ≤ 4096
  | .basilOperationEnd seq => seq < 16
  | .candidateBudgetExhausted seq => seq < 16
  | .microcodeVerificationEnd => true
  | .microcodeReload => true
  | .microcodeBankUncorrectable _ => true
  | .aesGcmEncrypt q _ => q < 1024
  | .aesGcmDecrypt q _ => q < 1024
  | .gmacGenerate q _ => q < 1024
  | .gmacVerify q _ => q < 1024
  | .aesCcmEncrypt q _ => q < 1024
  | .aesCcmDecrypt q _ => q < 1024
  | .aesXtsEncrypt q _ => q < 1024
  | .aesXtsDecrypt q _ => q < 1024
  | .aesCbcEncrypt q _ => q < 1024
  | .aesCbcDecrypt q _ => q < 1024
  | .aesCtr q _ => q < 1024
  | .aesSivEncrypt q _ => q < 1024
  | .aesSivDecrypt q _ => q < 1024
  | .aesCmacGenerate q _ => q < 1024
  | .aesCmacVerify q _ => q < 1024
  | .keyWrap q _ => q < 1024
  | .keyUnwrap q _ => q < 1024
  | .chacha20Poly1305Encrypt q _ => q < 1024
  | .chacha20Poly1305Decrypt q _ => q < 1024
  | .hash q _ => q < 1024
  | .hmacGenerate q _ => q < 1024
  | .hmacVerify q _ => q < 1024
  | .encryptThenMac q _ => q < 1024
  | .verifyThenDecrypt q _ => q < 1024
  | .rsaPrivate q _ => q < 1024
  | .rsaPublic q _ => q < 1024
  | .ecdsaSign q _ => q < 1024
  | .ecdsaVerify q _ => q < 1024
  | .ecdh q _ => q < 1024
  | .keyGeneration q _ => q < 1024
  | .eddsaSign q _ => q < 1024
  | .eddsaVerify q _ => q < 1024
  | .x25519 q _ => q < 1024
  | .mlKemKeyGeneration q _ => q < 1024
  | .mlKemEncapsulation q _ => q < 1024
  | .mlKemDecapsulation q _ => q < 1024
  | .mlDsaKeyGeneration q _ => q < 1024
  | .mlDsaSign q _ => q < 1024
  | .mlDsaVerify q _ => q < 1024
  | .curveLoad q _ => q < 1024
  | .timeStatementRequest q _ => q < 1024
  | .ptpEgress _ => true
  | .ptpIngressVerify _ => true
  | .ntsClientRequest _ => true
  | .ntsClientResponseVerify _ => true
  | .ntsServerExchange _ => true
  | .adjust _ => true
  | .step _ => true
  | .sample _ => true
  | .modeSelect _ => true
  | .keyEntry _ => true
  | .utc _ => true
  | .fence q _ => q < 1024
  | .noOp q _ => q < 1024
  | .holdoverEntry => true
  | .temperatureSample theta => -2 ^ 15 ≤ theta && theta < 2 ^ 15
  | .stepApplied => true
  | .leap => true
  | .sgInitLoad src => src.wf
  | .counterReturn _ => true
  | .pipelineStart _ => true
  | .pipelineHandover _ _ _ => true
  | .timestampStrobe ch strobe => ch < 16 && strobe.wf
  | .ppsInputEdge n strobe => n < 2 && strobe.wf
  | .ppsOutputEdge n => n < 2
  | .eventWrite domain => domain < 512
  | .eventTimeout domain => domain < 512
  | .headWordRead domain _ => domain < 512
  | .eventWriteResponse port tag => port < 10 && tag < 256
  | .dirtyLogRecordWrite domain => domain < 512
  | .overflowClear src page => src.wf && page < 512
  | .stopped domain => domain < 512
  | .mbT2mDb src page _ => src.wf && page < 512
  | .mbM2tDb src page _ => src.wf && page < 512
  | .t2mAck src page => src.wf && page < 512
  | .m2tAck src page => src.wf && page < 512
  | .mailboxDisable src page _ => src.wf && page < 512
  | .mailboxEnable src page _ => src.wf && page < 512
  | .mailboxAreaWrite src page offset data => src.wf && page < 512 && offset + data.length ≤ 0x800 && data.length ≤ 64
  | .identify _ => true
  | .getLogDeferredError _ => true
  | .getLogPlan _ => true
  | .getLogMigrationState _ => true
  | .getLogSelfTest _ => true
  | .getFeaturesInterruptCoalescing _ => true
  | .getFeaturesEventQueue _ => true
  | .getFeaturesMigrationControl _ => true
  | .setFeaturesInterruptCoalescing _ => true
  | .setFeaturesEventQueue _ => true
  | .logStart _ => true
  | .stop _ => true
  | .logEnd _ => true
  | .restoreCount _ => true
  | .microcodeDownload _ => true
  | .microcodeActivate _ => true
  | .createQueue _ => true
  | .deleteQueue _ => true
  | .domainCreate _ => true
  | .domainResize _ => true
  | .domainReset _ => true
  | .domainDelete _ => true
  | .domainResetComplete domain => domain < 512
  | .selfTestChiveLane _ => true
  | .selfTestBunch _ => true
  | .selfTestDillLane _ => true
  | .selfTestBasilSequencer _ => true
  | .selfTestMemoryDataPort _ => true
  | .selfTestSageStandbyCounter _ => true
  | .selfTestThymeLockstepPair _ => true
  | .selfTestKeyBusLane _ => true
  | .selfTestEntropySource _ => true
  | .selfTestStart kind index => kind < 256 && index < 256
  | .selfTestTimeout kind index => kind < 256 && index < 256
  | .selfTestEnd kind index _ => kind < 256 && index < 256
  | .loadKeyByHandle _ => true
  | .loadKeyAesKw _ => true
  | .loadKeyAesKwp _ => true
  | .postedLoadRun _ => true
  | .registerPathOpen src => src.wf
  | .registerPathFinish src => src.wf
  | .registerPathClose src => src.wf
  | .dgRpData src _ => src.wf
  | .dgRpLast src _ => src.wf
  | .registerPathDone => true
  | .registerPathDataError => true
  | .go src => src.wf
  | .resume src => src.wf
  | .drain src => src.wf
  | .quiesce src => src.wf
  | .lightSleep src => src.wf
  | .deepSleep src => src.wf
  | .provision src => src.wf
  | .reset src => src.wf
  | .drainedPoint => true
  | .drainLimitExpiry => true
  | .wakeTimer => true
  | .wakeIn => true
  | .powerOnReset => true
  | .deviceReset => true
  | .mainReset => true
  | .pdAonSupplyLoss => true
  | .sense => true
  | .startupTestsEnd found => found.wf
  | .enterService => true
  | .transition src _ => src.wf
  | .otpCopyDone _ _ => true
  | .programInstanceSlot src index => src.wf && index < 16
  | .programEcdsaDigest src index => src.wf && index < 16
  | .programMlDsaDigest src index => src.wf && index < 16
  | .revokeEcdsaKey src index => src.wf && index < 16
  | .revokeMlDsaKey src index => src.wf && index < 16
  | .tamperSourceFire source => source < 12
  | .alarmPortsStop => true
  | .alarmClear src => src.wf
  | .request src cls => src.wf && cls < 256
  | .submit src => src.wf
  | .debugClose src => src.wf
  | .debugOpen src cls => src.wf && cls < 256
  | .debugResponseChecked => true
  | .challengeExpiry => true
  | .lockstepMismatch _ _ _ _ => true
  | .halfRejoin _ _ _ => true
  | .uncorrectableError element => element.wf
  | .scrub _ _ _ => true
  | .entropyHealthFail cell => cell < 2
  | .pllSwitch _ => true
  | .registerInterfaceFail => true
  | .kbRst lane => lane < 2
  | .linkUpLow lane => lane < 2
  | .echoResponse lane _ => lane < 2
  | .rcCounterRead src _ => src.wf
  | .registerWrite src _ addr size _ => src.wf && addr < 2 ^ 22 && (size == 4 || size == 8) && addr % size == 0
  | .mainGood => true
  | .timeGood => true
  | .entropyStartUpTestsEnd => true

end Sys2Proof
end

