-- ==== Sys2Proof/Laws/PerInstr.lean ====
section
/-! SUPPORT. The family of statements per command: a well-formed command names queues 0 to 1,023 (R74) and port numbers 0 to 9 (ports D0 to D9, chapter 15), and nothing beyond them. -/

namespace Sys2Proof.Laws.Operands

/-- The queue that a command names. -/
def queueOf : Instr → Option Nat
  | .doorbell _ q _ => some q
  | .disable _ q _ => some q
  | .enable _ q _ => some q
  | .pushWindowWrite _ q _ _ => some q
  | .push q _ => some q
  | .pushHalfTimeout q => some q
  | .coalescingTimer q => some q
  | .slotWaitRetry q _ => some q
  | .aesGcmEncrypt q _ => some q
  | .aesGcmDecrypt q _ => some q
  | .gmacGenerate q _ => some q
  | .gmacVerify q _ => some q
  | .aesCcmEncrypt q _ => some q
  | .aesCcmDecrypt q _ => some q
  | .aesXtsEncrypt q _ => some q
  | .aesXtsDecrypt q _ => some q
  | .aesCbcEncrypt q _ => some q
  | .aesCbcDecrypt q _ => some q
  | .aesCtr q _ => some q
  | .aesSivEncrypt q _ => some q
  | .aesSivDecrypt q _ => some q
  | .aesCmacGenerate q _ => some q
  | .aesCmacVerify q _ => some q
  | .keyWrap q _ => some q
  | .keyUnwrap q _ => some q
  | .chacha20Poly1305Encrypt q _ => some q
  | .chacha20Poly1305Decrypt q _ => some q
  | .hash q _ => some q
  | .hmacGenerate q _ => some q
  | .hmacVerify q _ => some q
  | .encryptThenMac q _ => some q
  | .verifyThenDecrypt q _ => some q
  | .rsaPrivate q _ => some q
  | .rsaPublic q _ => some q
  | .ecdsaSign q _ => some q
  | .ecdsaVerify q _ => some q
  | .ecdh q _ => some q
  | .keyGeneration q _ => some q
  | .eddsaSign q _ => some q
  | .eddsaVerify q _ => some q
  | .x25519 q _ => some q
  | .mlKemKeyGeneration q _ => some q
  | .mlKemEncapsulation q _ => some q
  | .mlKemDecapsulation q _ => some q
  | .mlDsaKeyGeneration q _ => some q
  | .mlDsaSign q _ => some q
  | .mlDsaVerify q _ => some q
  | .curveLoad q _ => some q
  | .timeStatementRequest q _ => some q
  | .fence q _ => some q
  | .noOp q _ => some q
  | _ => none

/-- The port that a command names. -/
def portOf : Instr → Option Nat
  | .entryReadResponse port _ _ => some port
  | .auxBlockReadResponse port _ _ => some port
  | .fragmentTableReadResponse port _ _ => some port
  | .payloadReadResponse port _ _ => some port
  | .writeResponse port _ _ => some port
  | .completionConfirm port _ => some port
  | .fabricErrorResponse port _ => some port
  | .readTruncated port _ _ _ _ => some port
  | .writeTruncated port _ => some port
  | .checkResponse port _ => some port
  | .egressCheckFail port _ => some port
  | .portTestResult port _ => some port
  | .suspendedPortReadTimeout port => some port
  | .portRst port => some port
  | .claimResponse port _ => some port
  | .evictResponse port _ _ => some port
  | .snoop port _ _ _ _ => some port
  | .contextRestore port _ _ => some port
  | .eventWriteResponse port _ => some port
  | _ => none

/-- What is said of each command. -/
def Statement (i : Instr) : Prop := i.wf = true → (∀ q, queueOf i = some q → q < 1024) ∧ ∀ p, portOf i = some p → p < 10

/-- The bounds hold of every command: one case split over the commands. -/
theorem bounds (i : Instr) : Statement i := by
  intro h
  cases i <;> first
    | exact ⟨fun _ e => absurd e (Option.some_ne_none _).symm, fun _ e => absurd e (Option.some_ne_none _).symm⟩
    | (simp only [Instr.wf, Bool.and_eq_true, decide_eq_true_eq] at h
       refine ⟨fun q e => ?_, fun p e => ?_⟩ <;> simp only [queueOf, portOf, Option.some.injEq, reduceCtorEq] at e <;> omega)

theorem tickBoundary (checks : TickChecks) : Statement (.tickBoundary checks) := bounds _
theorem sliceResult (kind : LaneKind) (lane : Nat) (gen : BitVec 12) (verdict : Verdict) (signature : BitVec 64) : Statement (.sliceResult kind lane gen verdict signature) := bounds _
theorem epochBoundary : Statement (.epochBoundary) := bounds _
theorem doorbell (src : From) (q : Nat) (w : BitVec 32) : Statement (.doorbell src q w) := bounds _
theorem disable (src : From) (q : Nat) (w : BitVec 32) : Statement (.disable src q w) := bounds _
theorem enable (src : From) (q : Nat) (w : BitVec 32) : Statement (.enable src q w) := bounds _
theorem pushWindowWrite (src : From) (q : Nat) (offset : Nat) (data : Bytes) : Statement (.pushWindowWrite src q offset data) := bounds _
theorem push (q : Nat) (parityError : Bool) : Statement (.push q parityError) := bounds _
theorem pushHalfTimeout (q : Nat) : Statement (.pushHalfTimeout q) := bounds _
theorem entryReadResponse (port : Nat) (tag : Nat) (data : ReadData) : Statement (.entryReadResponse port tag data) := bounds _
theorem auxBlockReadResponse (port : Nat) (tag : Nat) (data : ReadData) : Statement (.auxBlockReadResponse port tag data) := bounds _
theorem fragmentTableReadResponse (port : Nat) (tag : Nat) (data : ReadData) : Statement (.fragmentTableReadResponse port tag data) := bounds _
theorem payloadReadResponse (port : Nat) (tag : Nat) (data : ReadData) : Statement (.payloadReadResponse port tag data) := bounds _
theorem writeResponse (port : Nat) (tag : Nat) (checkFails : Bool) : Statement (.writeResponse port tag checkFails) := bounds _
theorem completionConfirm (port : Nat) (tag : Nat) : Statement (.completionConfirm port tag) := bounds _
theorem coalescingTimer (q : Nat) : Statement (.coalescingTimer q) := bounds _
theorem p2Credit : Statement (.p2Credit) := bounds _
theorem linkDown (domain : Nat) : Statement (.linkDown domain) := bounds _
theorem linkUp (domain : Nat) : Statement (.linkUp domain) := bounds _
theorem requesterReset (src : From) : Statement (.requesterReset src) := bounds _
theorem flr (domain : Nat) : Statement (.flr domain) := bounds _
theorem fabricErrorResponse (port : Nat) (tag : Nat) : Statement (.fabricErrorResponse port tag) := bounds _
theorem readTruncated (port : Nat) (tag : Nat) (beats : Nat) (data : ReadData) (byCheck : Bool) : Statement (.readTruncated port tag beats data byCheck) := bounds _
theorem writeTruncated (port : Nat) (tag : Nat) : Statement (.writeTruncated port tag) := bounds _
theorem checkResponse (port : Nat) (tag : Nat) : Statement (.checkResponse port tag) := bounds _
theorem egressCheckFail (port : Nat) (tag : Nat) : Statement (.egressCheckFail port tag) := bounds _
theorem portTestResult (port : Nat) (pass : Bool) : Statement (.portTestResult port pass) := bounds _
theorem suspendedPortReadTimeout (port : Nat) : Statement (.suspendedPortReadTimeout port) := bounds _
theorem portRst (port : Nat) : Statement (.portRst port) := bounds _
theorem keyLoadResponse (reqId : BitVec 16) (outcome : KbOutcome) (payload : Bytes) : Statement (.keyLoadResponse reqId outcome payload) := bounds _
theorem slotWaitRetry (q : Nat) (c : BitVec 17) : Statement (.slotWaitRetry q c) := bounds _
theorem useReserveResponse (reqId : BitVec 16) (outcome : KbOutcome) (s : Nat) (g : Nat) : Statement (.useReserveResponse reqId outcome s g) := bounds _
theorem keyRevoke (handle : Nat) (destroyed : Bool) : Statement (.keyRevoke handle destroyed) := bounds _
theorem keyBusRequestLost (reqId : BitVec 16) : Statement (.keyBusRequestLost reqId) := bounds _
theorem unwrapSlotSwitch (domain : Nat) (handle : Nat) : Statement (.unwrapSlotSwitch domain handle) := bounds _
theorem jnlWriteResponse (reqId : BitVec 16) (outcome : KbOutcome) : Statement (.jnlWriteResponse reqId outcome) := bounds _
theorem compactionStep : Statement (.compactionStep) := bounds _
theorem jnlReadResponse (reqId : BitVec 16) (data : Bytes) : Statement (.jnlReadResponse reqId data) := bounds _
theorem jnlEraseResponse (reqId : BitVec 16) (outcome : KbOutcome) : Statement (.jnlEraseResponse reqId outcome) := bounds _
theorem journalRecovery : Statement (.journalRecovery) := bounds _
theorem claimResponse (port : Nat) (tag : Nat) : Statement (.claimResponse port tag) := bounds _
theorem evictResponse (port : Nat) (tag : Nat) (superseded : Bool) : Statement (.evictResponse port tag superseded) := bounds _
theorem snoop (port : Nat) (stag : Nat) (domain : Nat) (line : Nat) (checkOk : Bool) : Statement (.snoop port stag domain line checkOk) := bounds _
theorem contextRestore (port : Nat) (tag : Nat) (data : ReadData) : Statement (.contextRestore port tag data) := bounds _
theorem basilOperationEnd (seq : Nat) : Statement (.basilOperationEnd seq) := bounds _
theorem candidateBudgetExhausted (seq : Nat) : Statement (.candidateBudgetExhausted seq) := bounds _
theorem microcodeVerificationEnd : Statement (.microcodeVerificationEnd) := bounds _
theorem microcodeReload : Statement (.microcodeReload) := bounds _
theorem microcodeBankUncorrectable (bankB : Bool) : Statement (.microcodeBankUncorrectable bankB) := bounds _
theorem aesGcmEncrypt (q : Nat) (c : BitVec 17) : Statement (.aesGcmEncrypt q c) := bounds _
theorem aesGcmDecrypt (q : Nat) (c : BitVec 17) : Statement (.aesGcmDecrypt q c) := bounds _
theorem gmacGenerate (q : Nat) (c : BitVec 17) : Statement (.gmacGenerate q c) := bounds _
theorem gmacVerify (q : Nat) (c : BitVec 17) : Statement (.gmacVerify q c) := bounds _
theorem aesCcmEncrypt (q : Nat) (c : BitVec 17) : Statement (.aesCcmEncrypt q c) := bounds _
theorem aesCcmDecrypt (q : Nat) (c : BitVec 17) : Statement (.aesCcmDecrypt q c) := bounds _
theorem aesXtsEncrypt (q : Nat) (c : BitVec 17) : Statement (.aesXtsEncrypt q c) := bounds _
theorem aesXtsDecrypt (q : Nat) (c : BitVec 17) : Statement (.aesXtsDecrypt q c) := bounds _
theorem aesCbcEncrypt (q : Nat) (c : BitVec 17) : Statement (.aesCbcEncrypt q c) := bounds _
theorem aesCbcDecrypt (q : Nat) (c : BitVec 17) : Statement (.aesCbcDecrypt q c) := bounds _
theorem aesCtr (q : Nat) (c : BitVec 17) : Statement (.aesCtr q c) := bounds _
theorem aesSivEncrypt (q : Nat) (c : BitVec 17) : Statement (.aesSivEncrypt q c) := bounds _
theorem aesSivDecrypt (q : Nat) (c : BitVec 17) : Statement (.aesSivDecrypt q c) := bounds _
theorem aesCmacGenerate (q : Nat) (c : BitVec 17) : Statement (.aesCmacGenerate q c) := bounds _
theorem aesCmacVerify (q : Nat) (c : BitVec 17) : Statement (.aesCmacVerify q c) := bounds _
theorem keyWrap (q : Nat) (c : BitVec 17) : Statement (.keyWrap q c) := bounds _
theorem keyUnwrap (q : Nat) (c : BitVec 17) : Statement (.keyUnwrap q c) := bounds _
theorem chacha20Poly1305Encrypt (q : Nat) (c : BitVec 17) : Statement (.chacha20Poly1305Encrypt q c) := bounds _
theorem chacha20Poly1305Decrypt (q : Nat) (c : BitVec 17) : Statement (.chacha20Poly1305Decrypt q c) := bounds _
theorem hash (q : Nat) (c : BitVec 17) : Statement (.hash q c) := bounds _
theorem hmacGenerate (q : Nat) (c : BitVec 17) : Statement (.hmacGenerate q c) := bounds _
theorem hmacVerify (q : Nat) (c : BitVec 17) : Statement (.hmacVerify q c) := bounds _
theorem encryptThenMac (q : Nat) (c : BitVec 17) : Statement (.encryptThenMac q c) := bounds _
theorem verifyThenDecrypt (q : Nat) (c : BitVec 17) : Statement (.verifyThenDecrypt q c) := bounds _
theorem rsaPrivate (q : Nat) (c : BitVec 17) : Statement (.rsaPrivate q c) := bounds _
theorem rsaPublic (q : Nat) (c : BitVec 17) : Statement (.rsaPublic q c) := bounds _
theorem ecdsaSign (q : Nat) (c : BitVec 17) : Statement (.ecdsaSign q c) := bounds _
theorem ecdsaVerify (q : Nat) (c : BitVec 17) : Statement (.ecdsaVerify q c) := bounds _
theorem ecdh (q : Nat) (c : BitVec 17) : Statement (.ecdh q c) := bounds _
theorem keyGeneration (q : Nat) (c : BitVec 17) : Statement (.keyGeneration q c) := bounds _
theorem eddsaSign (q : Nat) (c : BitVec 17) : Statement (.eddsaSign q c) := bounds _
theorem eddsaVerify (q : Nat) (c : BitVec 17) : Statement (.eddsaVerify q c) := bounds _
theorem x25519 (q : Nat) (c : BitVec 17) : Statement (.x25519 q c) := bounds _
theorem mlKemKeyGeneration (q : Nat) (c : BitVec 17) : Statement (.mlKemKeyGeneration q c) := bounds _
theorem mlKemEncapsulation (q : Nat) (c : BitVec 17) : Statement (.mlKemEncapsulation q c) := bounds _
theorem mlKemDecapsulation (q : Nat) (c : BitVec 17) : Statement (.mlKemDecapsulation q c) := bounds _
theorem mlDsaKeyGeneration (q : Nat) (c : BitVec 17) : Statement (.mlDsaKeyGeneration q c) := bounds _
theorem mlDsaSign (q : Nat) (c : BitVec 17) : Statement (.mlDsaSign q c) := bounds _
theorem mlDsaVerify (q : Nat) (c : BitVec 17) : Statement (.mlDsaVerify q c) := bounds _
theorem curveLoad (q : Nat) (c : BitVec 17) : Statement (.curveLoad q c) := bounds _
theorem timeStatementRequest (q : Nat) (c : BitVec 17) : Statement (.timeStatementRequest q c) := bounds _
theorem ptpEgress (c : BitVec 17) : Statement (.ptpEgress c) := bounds _
theorem ptpIngressVerify (c : BitVec 17) : Statement (.ptpIngressVerify c) := bounds _
theorem ntsClientRequest (c : BitVec 17) : Statement (.ntsClientRequest c) := bounds _
theorem ntsClientResponseVerify (c : BitVec 17) : Statement (.ntsClientResponseVerify c) := bounds _
theorem ntsServerExchange (c : BitVec 17) : Statement (.ntsServerExchange c) := bounds _
theorem adjust (c : BitVec 17) : Statement (.adjust c) := bounds _
theorem step (c : BitVec 17) : Statement (.step c) := bounds _
theorem sample (c : BitVec 17) : Statement (.sample c) := bounds _
theorem modeSelect (c : BitVec 17) : Statement (.modeSelect c) := bounds _
theorem keyEntry (c : BitVec 17) : Statement (.keyEntry c) := bounds _
theorem utc (c : BitVec 17) : Statement (.utc c) := bounds _
theorem fence (q : Nat) (c : BitVec 17) : Statement (.fence q c) := bounds _
theorem noOp (q : Nat) (c : BitVec 17) : Statement (.noOp q c) := bounds _
theorem holdoverEntry : Statement (.holdoverEntry) := bounds _
theorem temperatureSample (theta : Int) : Statement (.temperatureSample theta) := bounds _
theorem stepApplied : Statement (.stepApplied) := bounds _
theorem leap : Statement (.leap) := bounds _
theorem sgInitLoad (src : From) : Statement (.sgInitLoad src) := bounds _
theorem counterReturn (counterB : Bool) : Statement (.counterReturn counterB) := bounds _
theorem pipelineStart (c : BitVec 17) : Statement (.pipelineStart c) := bounds _
theorem pipelineHandover (c : BitVec 17) (refused : Bool) (verdictOk : Bool) : Statement (.pipelineHandover c refused verdictOk) := bounds _
theorem timestampStrobe (ch : Nat) (strobe : Strobe) : Statement (.timestampStrobe ch strobe) := bounds _
theorem ppsInputEdge (n : Nat) (strobe : Strobe) : Statement (.ppsInputEdge n strobe) := bounds _
theorem ppsOutputEdge (n : Nat) : Statement (.ppsOutputEdge n) := bounds _
theorem eventWrite (domain : Nat) : Statement (.eventWrite domain) := bounds _
theorem eventTimeout (domain : Nat) : Statement (.eventTimeout domain) := bounds _
theorem headWordRead (domain : Nat) (w : BitVec 64) : Statement (.headWordRead domain w) := bounds _
theorem eventWriteResponse (port : Nat) (tag : Nat) : Statement (.eventWriteResponse port tag) := bounds _
theorem dirtyLogRecordWrite (domain : Nat) : Statement (.dirtyLogRecordWrite domain) := bounds _
theorem overflowClear (src : From) (page : Nat) : Statement (.overflowClear src page) := bounds _
theorem stopped (domain : Nat) : Statement (.stopped domain) := bounds _
theorem mbT2mDb (src : From) (page : Nat) (w : BitVec 32) : Statement (.mbT2mDb src page w) := bounds _
theorem mbM2tDb (src : From) (page : Nat) (w : BitVec 32) : Statement (.mbM2tDb src page w) := bounds _
theorem t2mAck (src : From) (page : Nat) : Statement (.t2mAck src page) := bounds _
theorem m2tAck (src : From) (page : Nat) : Statement (.m2tAck src page) := bounds _
theorem mailboxDisable (src : From) (page : Nat) (w : BitVec 32) : Statement (.mailboxDisable src page w) := bounds _
theorem mailboxEnable (src : From) (page : Nat) (w : BitVec 32) : Statement (.mailboxEnable src page w) := bounds _
theorem mailboxAreaWrite (src : From) (page : Nat) (offset : Nat) (data : Bytes) : Statement (.mailboxAreaWrite src page offset data) := bounds _
theorem identify (c : BitVec 17) : Statement (.identify c) := bounds _
theorem getLogDeferredError (c : BitVec 17) : Statement (.getLogDeferredError c) := bounds _
theorem getLogPlan (c : BitVec 17) : Statement (.getLogPlan c) := bounds _
theorem getLogMigrationState (c : BitVec 17) : Statement (.getLogMigrationState c) := bounds _
theorem getLogSelfTest (c : BitVec 17) : Statement (.getLogSelfTest c) := bounds _
theorem getFeaturesInterruptCoalescing (c : BitVec 17) : Statement (.getFeaturesInterruptCoalescing c) := bounds _
theorem getFeaturesEventQueue (c : BitVec 17) : Statement (.getFeaturesEventQueue c) := bounds _
theorem getFeaturesMigrationControl (c : BitVec 17) : Statement (.getFeaturesMigrationControl c) := bounds _
theorem setFeaturesInterruptCoalescing (c : BitVec 17) : Statement (.setFeaturesInterruptCoalescing c) := bounds _
theorem setFeaturesEventQueue (c : BitVec 17) : Statement (.setFeaturesEventQueue c) := bounds _
theorem logStart (c : BitVec 17) : Statement (.logStart c) := bounds _
theorem stop (c : BitVec 17) : Statement (.stop c) := bounds _
theorem logEnd (c : BitVec 17) : Statement (.logEnd c) := bounds _
theorem restoreCount (c : BitVec 17) : Statement (.restoreCount c) := bounds _
theorem microcodeDownload (c : BitVec 17) : Statement (.microcodeDownload c) := bounds _
theorem microcodeActivate (c : BitVec 17) : Statement (.microcodeActivate c) := bounds _
theorem createQueue (c : BitVec 17) : Statement (.createQueue c) := bounds _
theorem deleteQueue (c : BitVec 17) : Statement (.deleteQueue c) := bounds _
theorem domainCreate (c : BitVec 17) : Statement (.domainCreate c) := bounds _
theorem domainResize (c : BitVec 17) : Statement (.domainResize c) := bounds _
theorem domainReset (c : BitVec 17) : Statement (.domainReset c) := bounds _
theorem domainDelete (c : BitVec 17) : Statement (.domainDelete c) := bounds _
theorem domainResetComplete (domain : Nat) : Statement (.domainResetComplete domain) := bounds _
theorem selfTestChiveLane (c : BitVec 17) : Statement (.selfTestChiveLane c) := bounds _
theorem selfTestBunch (c : BitVec 17) : Statement (.selfTestBunch c) := bounds _
theorem selfTestDillLane (c : BitVec 17) : Statement (.selfTestDillLane c) := bounds _
theorem selfTestBasilSequencer (c : BitVec 17) : Statement (.selfTestBasilSequencer c) := bounds _
theorem selfTestMemoryDataPort (c : BitVec 17) : Statement (.selfTestMemoryDataPort c) := bounds _
theorem selfTestSageStandbyCounter (c : BitVec 17) : Statement (.selfTestSageStandbyCounter c) := bounds _
theorem selfTestThymeLockstepPair (c : BitVec 17) : Statement (.selfTestThymeLockstepPair c) := bounds _
theorem selfTestKeyBusLane (c : BitVec 17) : Statement (.selfTestKeyBusLane c) := bounds _
theorem selfTestEntropySource (c : BitVec 17) : Statement (.selfTestEntropySource c) := bounds _
theorem selfTestStart (kind : Nat) (index : Nat) : Statement (.selfTestStart kind index) := bounds _
theorem selfTestTimeout (kind : Nat) (index : Nat) : Statement (.selfTestTimeout kind index) := bounds _
theorem selfTestEnd (kind : Nat) (index : Nat) (pass : Bool) : Statement (.selfTestEnd kind index pass) := bounds _
theorem loadKeyByHandle (c : BitVec 17) : Statement (.loadKeyByHandle c) := bounds _
theorem loadKeyAesKw (c : BitVec 17) : Statement (.loadKeyAesKw c) := bounds _
theorem loadKeyAesKwp (c : BitVec 17) : Statement (.loadKeyAesKwp c) := bounds _
theorem postedLoadRun (load : BitVec 32) : Statement (.postedLoadRun load) := bounds _
theorem registerPathOpen (src : From) : Statement (.registerPathOpen src) := bounds _
theorem registerPathFinish (src : From) : Statement (.registerPathFinish src) := bounds _
theorem registerPathClose (src : From) : Statement (.registerPathClose src) := bounds _
theorem dgRpData (src : From) (word : BitVec 64) : Statement (.dgRpData src word) := bounds _
theorem dgRpLast (src : From) (word : BitVec 64) : Statement (.dgRpLast src word) := bounds _
theorem registerPathDone : Statement (.registerPathDone) := bounds _
theorem registerPathDataError : Statement (.registerPathDataError) := bounds _
theorem go (src : From) : Statement (.go src) := bounds _
theorem resume (src : From) : Statement (.resume src) := bounds _
theorem drain (src : From) : Statement (.drain src) := bounds _
theorem quiesce (src : From) : Statement (.quiesce src) := bounds _
theorem lightSleep (src : From) : Statement (.lightSleep src) := bounds _
theorem deepSleep (src : From) : Statement (.deepSleep src) := bounds _
theorem provision (src : From) : Statement (.provision src) := bounds _
theorem reset (src : From) : Statement (.reset src) := bounds _
theorem drainedPoint : Statement (.drainedPoint) := bounds _
theorem drainLimitExpiry : Statement (.drainLimitExpiry) := bounds _
theorem wakeTimer : Statement (.wakeTimer) := bounds _
theorem wakeIn : Statement (.wakeIn) := bounds _
theorem powerOnReset : Statement (.powerOnReset) := bounds _
theorem deviceReset : Statement (.deviceReset) := bounds _
theorem mainReset : Statement (.mainReset) := bounds _
theorem pdAonSupplyLoss : Statement (.pdAonSupplyLoss) := bounds _
theorem sense : Statement (.sense) := bounds _
theorem startupTestsEnd (found : StartupFindings) : Statement (.startupTestsEnd found) := bounds _
theorem enterService : Statement (.enterService) := bounds _
theorem transition (src : From) (code : BitVec 32) : Statement (.transition src code) := bounds _
theorem otpCopyDone (readBack : Bool) (holdupOk : Bool) : Statement (.otpCopyDone readBack holdupOk) := bounds _
theorem programInstanceSlot (src : From) (index : Nat) : Statement (.programInstanceSlot src index) := bounds _
theorem programEcdsaDigest (src : From) (index : Nat) : Statement (.programEcdsaDigest src index) := bounds _
theorem programMlDsaDigest (src : From) (index : Nat) : Statement (.programMlDsaDigest src index) := bounds _
theorem revokeEcdsaKey (src : From) (index : Nat) : Statement (.revokeEcdsaKey src index) := bounds _
theorem revokeMlDsaKey (src : From) (index : Nat) : Statement (.revokeMlDsaKey src index) := bounds _
theorem tamperSourceFire (source : Nat) : Statement (.tamperSourceFire source) := bounds _
theorem alarmPortsStop : Statement (.alarmPortsStop) := bounds _
theorem alarmClear (src : From) : Statement (.alarmClear src) := bounds _
theorem request (src : From) (cls : Nat) : Statement (.request src cls) := bounds _
theorem submit (src : From) : Statement (.submit src) := bounds _
theorem debugClose (src : From) : Statement (.debugClose src) := bounds _
theorem debugOpen (src : From) (cls : Nat) : Statement (.debugOpen src cls) := bounds _
theorem debugResponseChecked : Statement (.debugResponseChecked) := bounds _
theorem challengeExpiry : Statement (.challengeExpiry) := bounds _
theorem lockstepMismatch (unit : LockUnit) (blame : Blame) (aTestFails : Bool) (bTestFails : Bool) : Statement (.lockstepMismatch unit blame aTestFails bTestFails) := bounds _
theorem halfRejoin (unit : LockUnit) (halfB : Bool) (pass : Bool) : Statement (.halfRejoin unit halfB pass) := bounds _
theorem uncorrectableError (element : Element) : Statement (.uncorrectableError element) := bounds _
theorem scrub (memory : Nat) (word : Nat) (corrected : Bool) : Statement (.scrub memory word corrected) := bounds _
theorem entropyHealthFail (cell : Nat) : Statement (.entropyHealthFail cell) := bounds _
theorem pllSwitch (coreClock : Bool) : Statement (.pllSwitch coreClock) := bounds _
theorem registerInterfaceFail : Statement (.registerInterfaceFail) := bounds _
theorem kbRst (lane : Nat) : Statement (.kbRst lane) := bounds _
theorem linkUpLow (lane : Nat) : Statement (.linkUpLow lane) := bounds _
theorem echoResponse (lane : Nat) (intact : Bool) : Statement (.echoResponse lane intact) := bounds _
theorem rcCounterRead (src : From) (counter : RcCounter) : Statement (.rcCounterRead src counter) := bounds _
theorem registerWrite (src : From) (viaDebug : Bool) (addr : Nat) (size : Nat) (value : BitVec 64) : Statement (.registerWrite src viaDebug addr size value) := bounds _
theorem mainGood : Statement (.mainGood) := bounds _
theorem timeGood : Statement (.timeGood) := bounds _
theorem entropyStartUpTestsEnd : Statement (.entropyStartUpTestsEnd) := bounds _

end Sys2Proof.Laws.Operands
end

