-- ==== Sys2Proof/Laws/Queues.lean ====
section
/-! SUPPORT. What changes of one queue do to the rest of the state: doorbells, pushes and pending halves (R89, R93, R95, R336). -/

namespace Sys2Proof.Machine

/-- A domain that is not STOPPED is left as it is (R336). -/
theorem State.reenter_still (s : State) (d : Nat) (h : ∀ x, s.domain? d = some x → x.mig.state ≠ .stopped) : (s.reenter d).still = s.still := by
  unfold State.reenter
  split
  · rfl
  · rename_i x hx; simp [h x hx]

/-- Reading stale entries again moves only transactions (R98). -/
@[simp] theorem State.readStale_still (s : State) (q : Nat) : (s.readStale q).still = s.still := by
  unfold State.readStale; split
  · simp
  · rfl

/-- A prefetch moves only transactions (R98). -/
@[simp] theorem State.prefetch_still (s : State) (q : Nat) : (s.prefetch q).still = s.still := by
  unfold State.prefetch; split
  · rfl
  · simp

/-- Two changes of a queue that agree up to its work in progress. -/
theorem State.setQueue_still_eq (s : State) (q : Nat) (f g : Queue → Queue) (h : ∀ x, x.num = q → x ∈ s.fennel.queues → (f x).still = (g x).still) :
    (s.setQueue q f).still = (s.setQueue q g).still := by
  simp only [State.still, State.setQueue, List.map_map]
  have : List.map (Queue.still ∘ fun x => if x.num == q then f x else x) s.fennel.queues = List.map (Queue.still ∘ fun x => if x.num == q then g x else x) s.fennel.queues := by
    apply List.map_congr_left
    intro x hx
    simp only [Function.comp]
    by_cases e : x.num = q
    · simp [e, h x e hx]
    · simp [e]
  rw [this]

/-- A change of a queue on two states that differ only in work in progress. -/
theorem State.still_setQueue (s u : State) (q f) (h : u.still = s.still) (hf : ∀ x y : Queue, x.still = y.still → (f x).still = (f y).still) : (u.setQueue q f).still = (s.setQueue q f).still := by
  have hq : u.fennel.queues.map Queue.still = s.fennel.queues.map Queue.still := congrArg (fun z => z.fennel.queues) h
  have : List.map Queue.still (List.map (fun x => if x.num == q then f x else x) u.fennel.queues) = List.map Queue.still (List.map (fun x => if x.num == q then f x else x) s.fennel.queues) := by
    revert hq
    generalize u.fennel.queues = a
    generalize s.fennel.queues = b
    induction a generalizing b with
    | nil => intro h; cases b with
      | nil => rfl
      | cons => simp at h
    | cons x a ih => intro h; cases b with
      | nil => simp at h
      | cons y b =>
        simp only [List.map_cons, List.cons.injEq] at h ⊢
        refine ⟨?_, ih _ h.2⟩
        have hn : x.num = y.num := congrArg (fun z => z.num) h.1
        rw [hn]; split
        · exact hf _ _ h.1
        · exact h.1
  have e1 : (u.setQueue q f).still = { u.still with fennel := { u.still.fennel with queues := List.map Queue.still (List.map (fun x => if x.num == q then f x else x) u.fennel.queues) } } := rfl
  have e2 : (s.setQueue q f).still = { s.still with fennel := { s.still.fennel with queues := List.map Queue.still (List.map (fun x => if x.num == q then f x else x) s.fennel.queues) } } := rfl
  rw [e1, e2, this, h]

/-- Two changes of one queue are one change. -/
theorem State.setQueue_setQueue (s : State) (q) (f g : Queue → Queue) (hf : ∀ x, (f x).num = x.num) : (s.setQueue q f).setQueue q g = s.setQueue q (fun x => g (f x)) := by
  unfold State.setQueue
  simp only [List.map_map]
  congr 2
  apply List.map_congr_left
  intro x _
  simp only [Function.comp]
  by_cases e : x.num = q <;> simp [e, hf]

/-- A pending first half that is discarded sets push_discard (R93). -/
theorem State.dropHalf_still (s : State) (x : Queue) (r : Nat) : (s.dropHalf x r).still = (s.setQueue x.num fun y => if x.pushHalf.isSome then { y with pushHalf := none, pushDiscard := true } else y).still := by
  unfold State.dropHalf State.pushDiscard
  split
  · rename_i h
    rw [State.event_still, State.setQueue_setQueue]
    intro x; rfl
  · symm; apply State.setQueue_still; intro y; rfl

end Sys2Proof.Machine
end

