-- ==== Sys2Proof/Machine/Words.lean ====
section
/-! DEFINITION. The words on the channels of the memory ports (R442 to R445, R447, Tables 15.1 to 15.5), and the frames of the key bus (R459, R460, Tables 15.10 and 15.11), as functions of the transactions and requests that State holds. -/

namespace Sys2Proof.Machine

/-! ## Check values -/

/-- A word with its check behind it (R447). -/
def withCheck (b : Bytes) : Bytes := b ++ leBytes 4 (crc32c b).toNat

/-- A received word passes its check (R447). -/
def wordOk (w : Bytes) : Bool := decide (4 ≤ w.length) && w == withCheck (w.take (w.length - 4))

/-! ## Requests (Table 15.3) -/

/-- op of a request (Table 15.2). -/
def RurenOp.code : RurenOp → Nat
  | .read => 1
  | .write => 2
  | .claim => 3
  | .evict => 4

/-- class of a request (Table 15.3). -/
def TClass.code : TClass → Nat
  | .metadata => 0
  | .sealed => 1
  | .shared => 2
  | .maintenance => 3

/-- Beats of a request: none for a CLAIM (Table 15.2). -/
def Txn.beats (t : Txn) : Nat := if t.op == .claim then 0 else beatsOf t.rest.1 t.rest.2

/-- The REQ word of a transaction under a tag (Table 15.3). -/
def Txn.requestWord (t : Txn) (tag : Nat) : Bytes :=
  withCheck ([BitVec.ofNat 8 (t.op.code + 16 * t.cls.code), BitVec.ofNat 8 tag, BitVec.ofNat 8 (t.beats - 1), 0]
    ++ leBytes 2 t.domain ++ Machine.zeros 2 ++ leBytes 8 (t.rest.1 / 128 * 128))

/-! ## Data beats (Table 15.4) -/

/-- The last bytes of a data beat before its check: tag, beat index with last, cut and snoop, response with the poison of both flits. -/
def beatTail (tag beat : Nat) (last cut snoop : Bool) (resp : Nat) (p0 p1 : Bool) : Bytes :=
  let b (x : Bool) (n : Nat) : Nat := if x then n else 0
  [BitVec.ofNat 8 tag, BitVec.ofNat 8 (beat % 32 + b last 32 + b cut 64 + b snoop 128), BitVec.ofNat 8 (resp % 8 + b p0 8 + b p1 16)]

/-- Byte i of the n-th beat of a write carries a byte of the transfer (R445). -/
def Txn.enabled (t : Txn) (n i : Nat) : Bool :=
  let a := t.iova / 128 * 128 + 128 * n + i
  decide (t.iova ≤ a) && decide (a < t.iova + t.len)

/-- The data of the n-th beat of a write; a byte that is not enabled is sent as zero (notes/assumptions/139). -/
def Txn.beatData (t : Txn) (n : Nat) : Bytes :=
  (List.range 128).map fun i => if t.enabled n i then byteAt t.data (t.iova / 128 * 128 + 128 * n + i - t.iova) else 0

/-- The byte enables of the n-th beat of a write. -/
def Txn.byteEnables (t : Txn) (n : Nat) : Nat := ((List.range 128).map fun i => if t.enabled n i then 2 ^ i else 0).sum

/-- The WDAT words of a WRITE or an EVICT, in ascending beat index (R445, R446). -/
def Txn.dataWords (t : Txn) (tag : Nat) : List Bytes :=
  (List.range t.beats).map fun n =>
    withCheck (t.beatData n ++ leBytes 16 (t.byteEnables n)
      ++ beatTail tag n (n + 1 == t.beats) false false 0 (nth t.poison (2 * n) false) (nth t.poison (2 * n + 1) false))

/-- The WDAT word that ends a burst at beat n: cut and last set, no byte enabled (Table 15.8). -/
def cutWord (tag n : Nat) : Bytes := withCheck (Machine.zeros 144 ++ beatTail tag n true true false 0 false false)

/-- The WDAT word that carries a line to a snoop (R445, Table 15.7). -/
def snoopWord (stag : Nat) (data : Bytes) (poison : List Bool) : Bytes :=
  withCheck (padTo 128 data ++ leBytes 16 (2 ^ 128 - 1) ++ beatTail stag 0 true false true 0 (nth poison 0 false) (nth poison 1 false))

/-- The SNR word of an answer: MISS, or DATA (Table 15.4). -/
def answerWord (stag : Nat) (data : Bool) : Bytes := withCheck [BitVec.ofNat 8 stag, if data then 1 else 0, 0, 0]

/-- The words that an output sends on the channels of a port. -/
def Output.portWords : Output → List Bytes
  | .snoopMiss _ stag => [answerWord stag false]
  | .snoopData _ stag data poison => [answerWord stag true, snoopWord stag data poison]
  | _ => []

/-- The words that an outstanding transaction has sent on the channels of its port: its request, and the beats of a WRITE or an EVICT. -/
def Txn.words (t : Txn) : List Bytes :=
  match t.tag with
  | none => []
  | some g => t.requestWord g :: (if t.op == .write || t.op == .evict then t.dataWords g else [])

/-! ## Received words -/

/-- Response codes (Table 15.5); a reserved code counts as ERROR. -/
inductive Resp where
  | ok | fault | error | trunc | check | superseded
  deriving DecidableEq, Repr

/-- A response code of Table 15.5. -/
def Resp.ofCode (c : Nat) : Resp :=
  match c % 8 with
  | 0 => .ok
  | 1 => .fault
  | 3 => .trunc
  | 4 => .check
  | 5 => .superseded
  | _ => .error

/-- The RDAT word of beat n of a read: 128 data bytes, tag, and code (Table 15.4). -/
def readWord (data : Bytes) (tag n : Nat) (last : Bool) (resp : Nat) (p0 p1 : Bool) : Bytes :=
  withCheck (padTo 128 data ++ beatTail tag n last false false resp p0 p1)

/-- What RDAT words with OK bring to a read: the bytes that it asked for, and the poison of every flit. -/
def Txn.readData (t : Txn) (ws : List Bytes) : ReadData :=
  { bytes := sub (ws.map (·.take 128)).flatten (t.rest.1 % 128) t.rest.2,
    poison := (ws.map fun w => [(byteAt w 130).getLsbD 3, (byteAt w 130).getLsbD 4]).flatten }

/-- The WRSP word of a tag (Table 15.4). -/
def responseWord (tag resp : Nat) : Bytes := withCheck [BitVec.ofNat 8 tag, BitVec.ofNat 8 (resp % 8), 0, 0]

/-- The command that an OK in the WRSP word of a transaction is (Table 15.2). -/
def Txn.okCommand (t : Txn) (port tag : Nat) : Instr :=
  match t.op, t.purpose with
  | .claim, _ => .claimResponse port tag
  | .evict, _ => .evictResponse port tag false
  | _, .completion .. => .completionConfirm port tag
  | _, .events .. => .eventWriteResponse port tag
  | _, _ => .writeResponse port tag false

/-- The command that a WRSP word on a port is to Duern (R447, R449, R498, Tables 15.2 and 15.5). -/
def State.onWrsp (s : State) (port : Nat) (w : Bytes) : Option Instr :=
  let tag := (byteAt w 0).toNat
  match (s.txn? port tag).filter (·.op != .read) with
  | none => none
  | some t =>
    if !wordOk w then some (.writeResponse port tag true)
    else match Resp.ofCode (byteAt w 1).toNat with
      | .ok => some (t.okCommand port tag)
      | .check => some (.checkResponse port tag)
      | .trunc => some (if t.op == .claim then .fabricErrorResponse port tag else .writeTruncated port tag)
      | .superseded => some (if t.op == .evict then .evictResponse port tag true else .fabricErrorResponse port tag)
      | _ => some (.fabricErrorResponse port tag)

/-- The SNP word of a snoop (Table 15.4). -/
def snpWord (stag domain line : Nat) : Bytes := withCheck ([BitVec.ofNat 8 stag, 0] ++ leBytes 2 domain ++ leBytes 8 line)

/-- The command that an SNP word on a port is to Duern (R447). -/
def onSnp (port : Nat) (w : Bytes) : Instr := .snoop port (byteAt w 0).toNat (fieldLe w 2 2 % 512) (fieldLe w 4 8 % 2 ^ 45) (wordOk w)

/-! ## Key-bus frames (Tables 15.10 and 15.11) -/

/-- target of a journal transaction. -/
def JTarget.code : JTarget → Nat
  | .copyA => 0
  | .copyB => 1
  | .map => 2

/-- type of a request. -/
def KbKind.code : KbKind → Nat
  | .keyLoad => 1
  | .useReserve _ => 2
  | .jnlRead .. => 3
  | .jnlWrite .. => 4
  | .jnlErase _ => 5
  | .echo _ => 7

/-- target field of a request: zero outside journal transactions. -/
def KbKind.target : KbKind → Nat
  | .jnlRead t _ _ | .jnlWrite t _ _ | .jnlErase t => t.code
  | _ => 0

/-- arg field of a request. -/
def KbKind.arg : KbKind → Nat
  | .useReserve n => n
  | .jnlRead _ o _ | .jnlWrite _ o _ => o
  | _ => 0

/-- The pattern of an ECHO frame: fixed, and of no value that the spec states (R461, notes/assumptions/139). -/
def echoPattern (n : Nat) : Bytes := (List.range 64).map (Config.echoByte n)

/-- Request payload (Table 15.11). -/
def KbKind.payload : KbKind → Bytes
  | .jnlRead _ _ n => leBytes 4 n ++ Machine.zeros 12
  | .jnlWrite _ _ d => d
  | .echo n => echoPattern n
  | _ => []

/-- A frame: type, the byte of target, destroyed and outcome, req_id, domain, handle, arg and payload, its check, and 12 zero bytes (Table 15.10). -/
def kbFrame (type flags : Nat) (reqId : BitVec 16) (domain handle arg : Nat) (payload : Bytes) : Bytes :=
  withCheck ([BitVec.ofNat 8 type, BitVec.ofNat 8 flags] ++ leBytes 2 reqId.toNat ++ leBytes 2 domain ++ leBytes 3 handle ++ [0]
    ++ leBytes 2 payload.length ++ leBytes 4 arg ++ payload) ++ Machine.zeros 12

/-- The domain and handle fields of a request: zero for journal transactions and ECHO (Table 15.10). -/
def KbReq.names (r : KbReq) : Nat × Nat :=
  match r.kind with
  | .keyLoad | .useReserve _ => (r.domain, r.handle)
  | _ => (0, 0)

/-- The frame of a request (R459). -/
def KbReq.frameBytes (r : KbReq) : Bytes :=
  kbFrame r.kind.code r.kind.target r.reqId r.names.1 r.names.2 r.kind.arg r.kind.payload

/-- outcome of a response (Table 15.10). -/
def outcomeCode : KbOutcome → Nat
  | .granted => 0
  | .refused => 1
  | .unknown => 2
  | .error => 3

/-- The response frame to a request: its type plus 0x80, its fields, an outcome and a payload (R459). -/
def KbReq.responseBytes (r : KbReq) (outcome : KbOutcome) (payload : Bytes) : Bytes :=
  kbFrame (r.kind.code + 0x80) (r.kind.target + 16 * outcomeCode outcome) r.reqId r.names.1 r.names.2 0 payload

/-- Duern's acknowledgement of a KEY_REVOKE with a req_id (R460). -/
def revokeAckBytes (reqId : BitVec 16) (domain handle : Nat) (destroyed : Bool) : Bytes :=
  kbFrame 0x86 (if destroyed then 8 else 0) reqId domain handle 0 []

/-- A received frame passes its check, and its length is as its field says (R459, R460). -/
def kbFrameOk (f : Bytes) : Bool :=
  let n := 16 + fieldLe f 10 2
  f.length == n + 16 && wordOk (f.take (n + 4))

end Sys2Proof.Machine
end

