-- ==== Sys2Proof/Tests/Slice0.lean ====
section
/-! SUPPORT. The model's own small tests: an ill-formed command for each check of WellFormed, values that the spec writes out, and for each statement that has hypotheses a witness that they can be met, clause by clause. -/

namespace Sys2Proof.Tests

open Sys2Proof.Machine

/-! ## Well-formed commands: one ill-formed command for each check -/

/-- Domain 0 and tenant 1 on P3, and a source whose domain number is out of range. -/
def mgr : From := { port := .p3, domain := 0, requester := 0 }
def ten : From := { port := .p3, domain := 1, requester := 7 }
def far : From := { port := .p3, domain := 512, requester := 0 }

def noChecks : TickChecks :=
  { aFails := false, bFails := false, disagree := false, basilFails := [], basilSigs := [], bunchFails := [], thymeDisagrees := false,
    heldFails := [], lineFails := [], stagingFails := [] }

def found : StartupFindings :=
  { chive := [], dill := [], basil := [], ports := [], kb := [], cells := [], halves := [], sageA := false, sageB := false, plls := [] }

def refused (is : List Instr) : Prop := is.all (fun i => !i.wf) = true

theorem test_wf_numbers : refused
    [.hash 1024 0, .doorbell mgr 1024 0, .pushWindowWrite mgr 1024 0x40 [], .writeResponse 10 0 false, .writeResponse 0 256 false,
     .claimResponse 10 0, .portRst 10, .linkDown 512, .eventWrite 512, .mbT2mDb mgr 512 0, .kbRst 2, .entropyHealthFail 2,
     .basilOperationEnd 16, .keyRevoke (2 ^ 24) false, .unwrapSlotSwitch 0 (2 ^ 24), .tamperSourceFire 12, .ppsOutputEdge 2,
     .selfTestStart 256 0, .selfTestStart 1 256, .programInstanceSlot mgr 16, .debugOpen mgr 256, .snoop 0 256 0 0 true,
     .snoop 0 0 0 (2 ^ 45) true, .sliceResult .chive 72 0 .pass 0, .sliceResult .dill 16 0 .pass 0, .timestampStrobe 16 ⟨0, 0, false, 0⟩,
     .timestampStrobe 0 ⟨0, 16, false, 0⟩, .temperatureSample 32768, .temperatureSample (-32769), .useReserveResponse 0 .granted (2 ^ 64) 0] := by
  unfold refused; decide +kernel

theorem test_wf_sources : refused
    [.doorbell far 0 0, .requesterReset { mgr with requester := 65536 }, .go far, .request far 1, .registerWrite far false 0 4 0] := by
  unfold refused; decide +kernel

theorem test_wf_data : refused
    [.pushWindowWrite mgr 0 0x40 (List.replicate 65 0), .pushWindowWrite mgr 0 0x1000 [], .mailboxAreaWrite ten 1 0x7FF [0, 0],
     .mailboxAreaWrite ten 1 0 (List.replicate 65 0), .payloadReadResponse 0 0 ⟨List.replicate 4097 0, []⟩, .readTruncated 0 0 32 ⟨[], []⟩ false,
     .readTruncated 0 0 1 ⟨List.replicate 129 0, []⟩ false, .registerWrite mgr false 2 4 0, .registerWrite mgr false 4 8 0,
     .registerWrite mgr false 0 2 0, .registerWrite mgr false (2 ^ 22) 4 0] := by
  unfold refused; decide +kernel

theorem test_wf_findings : refused
    [.tickBoundary { noChecks with basilFails := [16] }, .tickBoundary { noChecks with basilSigs := [(16, 0, 0)] }, .tickBoundary { noChecks with bunchFails := [9] },
     .tickBoundary { noChecks with heldFails := [(1024, 0)] }, .tickBoundary { noChecks with lineFails := [(512, 0, false)] },
     .tickBoundary { noChecks with lineFails := [(0, 2 ^ 45, true)] }, .tickBoundary { noChecks with stagingFails := [16] },
     .startupTestsEnd { found with chive := [72] }, .startupTestsEnd { found with dill := [16] }, .startupTestsEnd { found with basil := [16] },
     .startupTestsEnd { found with ports := [10] }, .startupTestsEnd { found with kb := [2] }, .startupTestsEnd { found with cells := [2] },
     .uncorrectableError (.keySlot 512 0), .uncorrectableError (.useBlock 0 (2 ^ 24)), .uncorrectableError (.counterRecord 512 0),
     .uncorrectableError (.jobState 1024 0), .uncorrectableError (.context 1024 0), .uncorrectableError (.queueState 1024),
     .uncorrectableError (.basilMemory 16), .uncorrectableError (.curveEntry 0x3F), .uncorrectableError (.curveEntry 0x80),
     .uncorrectableError (.verifierRom 16), .uncorrectableError (.testRom 0 0), .uncorrectableError (.testRom 1 72), .uncorrectableError (.eventStaging 0 64 0), .uncorrectableError (.eventStaging 0 0 8),
     .uncorrectableError (.mailboxArea 0 0x800)] := by
  unfold refused; decide +kernel

theorem test_wf_good : ([.doorbell ten 1023 0, .writeResponse 9 255 false, .sliceResult .chive 71 0 .pass 0, .linkDown 511, .mailboxAreaWrite ten 1 0x7C0 (List.replicate 64 0),
    .registerWrite mgr false 0x18 4 0, .temperatureSample (-32768), .uncorrectableError (.curveEntry 0x7F)] : List Instr).all Instr.wf = true := by
  decide +kernel

/-! ## A small state in Service

Domain 0 has the admin queue 0, the time queue 1 and data queue 5; domain 1 has data queue 6; the tick is 1,000. -/

def ent (l : List (Nat × Byte)) : Bytes := (List.range 128).map fun i => (l.lookup i).getD 0

def settings : DomainSettings :=
  { plan := { chive := 64, dill := 16, basil := 1, cls := .shared, verified := false, cap := 1, weight := 1, revision := 0 }, nsBase := 0,
    nsLog2 := 8, slotRes := 16, saveBase := 0x100000, saveCount := 4, events := .events 0 0x80000 9 0 0 0 0 true }

def svc : State :=
  { State.reset with
    mode := { ModeUnit.reset with mode := .service, mainOn := true, steps := ⟨true, true, true, true, true, true, true, true⟩ }
    thyme := { Thyme.reset with tick := 1000, laneOf := (List.range 64).map some }
    sage := { Sage.reset with now := 1000 * tickUnit }
    fennel := { Fennel.reset with queues := [newQueue 0 0 .b 4 0x1000 [], newQueue 1 0 .c 4 0x2000 [], newQueue 5 0 .a 4 0x3000 [],
      newQueue 6 1 .c 4 0x4000 []] }
    parsley := { qs := [newEventQ 0 0x80000 9 0 0 0 0 1000, newEventQ 1 0x90000 9 0 0 0 0 1000] }
    domains := [newDomain 0 settings, newDomain 1 settings] }

/-- svc with one queue changed, with one domain changed, with a job, with a transaction, in a mode, or with a register cell. -/
def withQ (q : Nat) (f : Queue → Queue) : State := svc.setQueue q f
def withD (d : Nat) (f : Domain → Domain) : State := svc.setDomain d f
def withJ (j : Job) : State := svc.addJob j
def withT (t : Txn) : State := { svc with txns := [t] }
def inMode (m : Mode) : State := { svc with mode := { svc.mode with mode := m } }
def withR (a : Nat) (v : BitVec 64) : State := svc.setReg a v

def q0 : Queue := newQueue 0 0 .b 4 0x1000 []
def q1 : Queue := newQueue 1 0 .c 4 0x2000 []
def q5 : Queue := newQueue 5 0 .a 4 0x3000 []
def q6 : Queue := newQueue 6 1 .c 4 0x4000 []
def d0 : Domain := newDomain 0 settings
def d1 : Domain := newDomain 1 settings

/-- A job at count 0 of a queue in a phase, with an opcode, a sub-option and further bytes. -/
def job (x : Queue) (ph : Phase) (op sub : Byte) (l : List (Nat × Byte)) : Job :=
  { newJob x 0 (ent ([(4, op), (5, sub)] ++ l)) false 999 with phase := ph }

def admin (op sub : Byte) (l : List (Nat × Byte)) : Job := job q0 .command op sub l

/-- A transaction on port 2 with tag 3. -/
def txn (op : RurenOp) (p : Purpose) : Txn :=
  { port := 2, tag := some 3, op := op, cls := .metadata, domain := 0, iova := 0x5000, len := 32, data := [], purpose := p, pos := 0,
    spare := false, cut := false, avoid := none, again := false, poison := [], dead := false }

/-- The state that a command answers. -/
def after (o : Host.Outcome State Fault Refusal) : Option State :=
  match o with
  | .next t => some t
  | _ => none

/-! ## The queue of commands, time and slices -/

theorem witness_StepRunsFrontCommand : ({ svc with pending := [.p2Credit, .sense] } : State).pending = .p2Credit :: [.sense] ∧ svc.pending = [] ∧
    svc.mode.mode ≠ .deepSleep ∧ (inMode .deepSleep).pending = [] ∧ (inMode .deepSleep).mode.mode = .deepSleep := by
  decide +kernel

theorem witness_CommandsLeaveTheQueue : (after (exec .p2Credit { svc with pending := [.sense] })).map (·.pending) = some [.sense] := by
  decide +kernel

theorem witness_TickBoundaryStartsTick : svc.mode.timeOn = true ∧ svc.mode.steps.s1 = true ∧ svc.thyme.epochDue = false ∧ 0 < addend0 + svc.sage.adj := by decide +kernel

theorem witness_EpochBoundaryStartsEpoch :
    (after (exec (.tickBoundary noChecks) { svc with sage := { svc.sage with now := 65535 * tickUnit } })).map (fun t =>
      (t.thyme.tick, t.thyme.epochDue)) = some (65536, true) ∧
    ({ svc with thyme := { svc.thyme with epochDue := true } } : State).plansRun = true ∧
    ({ inMode .startup with thyme := { svc.thyme with epochDue := true } } : State).plansRun = false := by decide +kernel

def issue : Issue :=
  { unit := .chive, lane := 3, pos := 0, domain := 0, queue := 5, count := 0, slice := 0, gen := 9, role := .primary, partner := none,
    delivered := none, keys := [] }

theorem witness_SliceResultJudged :
    let s := { withJ (job q5 .slices 0x10 0 []) with thyme := { svc.thyme with issues := [issue] } }
    s.thyme.issues.find? (fun i => i.unit == .chive && i.lane == 3 && i.gen == 9 && i.delivered.isNone) = some issue ∧
    issue.role ≠ .test ∧ issue.partner = none ∧ (∃ j, s.job? 5 0 = some j ∧ ∀ x ∈ j.slices, x.votes = []) ∧
    (∀ i ∈ svc.thyme.issues, ¬(i.unit = .chive ∧ i.lane = 3 ∧ i.gen = 9 ∧ i.delivered = none)) := by
  exact ⟨by decide +kernel, by decide, by decide, ⟨_, rfl, by decide +kernel⟩, by decide +kernel⟩

/-- A pair of issues of one slice: the primary on lane 3 and its shadow on lane 4, which may have delivered. -/
def pairOf (d : Option (Verdict × BitVec 64)) : List Issue :=
  [{ issue with partner := some 4 }, { issue with lane := 4, role := .shadow, partner := some 3, delivered := d }]

theorem witness_SliceResultJudged_forms :
    ({ issue with role := .test }.role = .test ∧
      (({ svc with thyme := { svc.thyme with compiled := [(0, { settings.plan with verified := true })] } } : State).planOf 0).any (·.verified) = true ∧
      (svc.planOf 0).any (·.verified) = false) ∧
    ((pairOf none).find? (fun x => x.unit == .chive && x.lane == 4 && x.gen == 9 && x.slice == 0 && x.queue == 5 && x.count == 0)).map (·.delivered) =
      some none ∧
    ((pairOf (some (.pass, 7))).find? (fun x => x.unit == .chive && x.lane == 4 && x.gen == 9 && x.slice == 0 && x.queue == 5 && x.count == 0)).map
      (fun x => (x.delivered, x.partner)) = some (some (.pass, 7), some 3) ∧
    (((pairOf none).take 1).find? (fun x => x.unit == .chive && x.lane == 4)) = none ∧
    (newSlice 0 0).votes = [] ∧ (newSlice 0 0).retry = false ∧ (newSlice 0 0).fails < 2 ∧ 2 ≤ { newSlice 0 0 with fails := 2 }.fails := by
  decide +kernel

/-! ## Queue pages -/

/-- The page of a data queue that takes writes of domain 0, and one whose first half of a push is pending. -/
def half : PushHalf := { src := ten, data := List.replicate 64 7, tick := 984 }

theorem witness_DoorbellRule :
    svc.pagesOpen = true ∧ svc.writeHeld mgr.domain = false ∧ svc.fennel.arrivals.length < 64 ∧ svc.queue? 5 = some q5 ∧ q5.domain = mgr.domain ∧
    svc.resetting q5.domain = false ∧ svc.fennel.arrivals = [] ∧
    (({ svc with fennel := { svc.fennel with arrivals := [.push 5 []] } } : State).fennel.arrivals = .push 5 [] :: []) ∧ q5.enabled = true ∧
    ((16 : BitVec 17) - q5.tail).toNat ≤ 2 ^ q5.n - (q5.tail - q5.head).toNat ∧ 2 ^ q5.n - (q5.tail - q5.head).toNat < ((17 : BitVec 17) - q5.tail).toNat ∧
    2 ^ 17 ≤ (0x20000 : BitVec 32).toNat % 2 ^ 30 ∧ 2 ^ 17 ≤ (0x40000000 : BitVec 32).toNat ∧
    (∃ x, (withQ 5 fun y => { y with enabled := false, pushHalf := some half }).queue? 5 = some x ∧ x.enabled = false ∧ x.pushHalf.isSome = true) := by
  and_intros <;> decide +kernel

theorem witness_DisableEnableRule :
    svc.pagesOpen = true ∧ svc.writeHeld mgr.domain = false ∧ svc.fennel.arrivals.length < 64 ∧ svc.queue? 1 = some q1 ∧ q1.domain = mgr.domain ∧
    svc.resetting q1.domain = false ∧ svc.fennel.arrivals = [] ∧ (0 : BitVec 32).toNat < 2 ^ 17 ∧ q1.enabled = true ∧
    (let x := { q1 with enabled := false }
     (withQ 1 fun y => { y with enabled := false }).queue? 1 = some x ∧ x.disabling = false ∧ x.idle = true) := by decide +kernel

theorem witness_PushWindowRule :
    svc.pagesOpen = true ∧ svc.writeHeld ten.domain = false ∧ svc.fennel.arrivals.length < 64 ∧ svc.queue? 6 = some q6 ∧ q6.domain = ten.domain ∧
    svc.resetting q6.domain = false ∧ svc.queue? 5 = some q5 ∧ q5.gen ≠ .c ∧ q6.gen = .c ∧ half.data.length = 64 := by decide +kernel

theorem witness_PushRule :
    let s : State := { svc with fennel := { svc.fennel with arrivals := [.push 5 half.data] } }
    (s.pagesOpen = true ∧ s.queue? 5 = some q5 ∧ s.fennel.arrivals = .push 5 half.data :: [] ∧ q5.enabled = true ∧
      0 < 2 ^ q5.n - (q5.tail - q5.head).toNat ∧ ((s.supersede 5 q5.tail).queue? 5).isSome = true) ∧
    (q5.takesPush false = true ∧ { q5 with copies := List.replicate 64 { count := 0, bytes := [], express := true, bad := none, checks := [], port := none } }.takesPush false = false) ∧
    (let u := withQ 6 fun y => { y with pushHalf := some half }
     u.queue? 6 = some { q6 with pushHalf := some half } ∧ half.tick + 16 ≤ u.thyme.tick ∧ u.mainRuns = true) := by decide +kernel

/-! ## The memory ports -/

def entryRead (again : Bool) : Txn := txn .read (.entry 5 [0] false again)

/-- Entries for count 0 of queue 5: fresh, stale and completed (Table 3.2); the first pass of the ring carries phase 1 (R80). -/
theorem witness_EntryReadRule :
    let x := { q5 with tail := 1 }
    let s := { (withQ 5 fun _ => x) with txns := [entryRead false] }
    (s.txn? 2 3 = some (entryRead false) ∧ (entryRead false).op = .read ∧ (entryRead false).dead = false ∧ s.queue? 5 = some x ∧
      x.copy? 0 = none ∧ x.copies.length < 64) ∧
    ((0 - x.validated).toNat < (x.tail - x.validated).toNat ∧ ¬(0 - q5.validated).toNat < (q5.tail - q5.validated).toNat) ∧
    ((q5.validated - q5.head).toNat ≤ ((3 : BitVec 17) - q5.head).toNat ∧ ((3 : BitVec 17) - q5.head).toNat < 2 ^ q5.n ∧
      ¬((16 : BitVec 17) - q5.head).toNat < 2 ^ q5.n) ∧
    x.judge 0 ((entryRead false).got ⟨[0xFF, 0x80], []⟩) = .fresh ∧ x.judge 0 ((entryRead false).got ⟨[0xFF, 0], []⟩) = .stale ∧
    x.judge 0 ((entryRead false).got ⟨[0, 0x80], []⟩) = .completed ∧
    (x.poisonedOf [0] [] = [] ∧ x.poisonedOf [0] [true] = [0] ∧ (entryRead true).purpose = .entry 5 [0] false true) ∧
    (let y := { q5 with tail := 1, validated := 1, recheck := [0] }
     let s : State := { (withQ 5 fun _ => y) with fennel := { (withQ 5 fun _ => y).fennel with jobs := [job q5 .completing 0x40 0 []] } }
     y.copy? 0 = none ∧ y.copies.length < 64 ∧ s.queue? 5 = some y ∧ ¬(0 - y.validated).toNat < (y.tail - y.validated).toNat ∧
     s.job? 5 0 = some (job q5 .completing 0x40 0 []) ∧ 0 ∈ y.recheck ∧ (0 : BitVec 17) ∉ x.recheck ∧ y.judge 0 ((entryRead false).got ⟨[0, 0x80], []⟩) = .completed) := by
  decide +kernel

theorem witness_BlockReadRule :
    let j := job q5 .aux 0x10 0 []
    let ok (t : Txn) : Bool := ({ withJ j with txns := [t] } : State).txn? 2 3 == some t && t.op == .read && !t.dead
    let r (t : Txn) := (({ withJ j with txns := [t] } : State).endTxn 2 3).job? 5 0
    ok (txn .read (.aux 5 0)) = true ∧ r (txn .read (.aux 5 0)) = some j ∧ ok (txn .read (.table 5 0 true)) = true ∧
    ok (txn .read (.payload 5 0 0 0)) = true ∧ ok (txn .read (.package true)) = true ∧ ok (txn .read (.response 0)) = true ∧
    ok (txn .read (.portTest 1 0)) = true ∧ (txn .read (.aux 5 0)).poisoned ⟨[], [true]⟩ = true ∧ (txn .read (.aux 5 0)).poisoned ⟨[], [false]⟩ = false := by
  decide +kernel

theorem witness_EndOfJob :
    let j := job q5 .slices 0x10 0 []
    (withJ j).job? 5 0 = some j ∧ j.status = none ∧
    (withJ { j with status := some .poisoned }).job? 5 0 = some { j with status := some .poisoned } ∧
    (∃ t ∈ (({ withJ j with txns := [txn .read (.payload 5 0 0 0)] } : State).endJob 5 0 .malformed).txns,
      t.op = .read ∧ t.purpose.job? = some (5, 0)) ∧
    (Status.malformed ≠ .ok ∧ eChain (job q5 .slices 0x10 0 [(7, 1)]).entry = true) ∧ ((6 : Nat), (0 : BitVec 17)) ≠ (5, 0) := by
  and_intros <;> decide +kernel

theorem witness_WriteResponseRule :
    let ok (t : Txn) : Bool := ({ svc with txns := [t] } : State).txn? 2 3 == some t && t.op == .write && !t.dead
    ok (txn .write (.output 5 0 0 0)) = true ∧ ok (txn .write (.zero 5 0 0)) = true ∧ ok (txn .write (.result 5 0)) = true ∧
    ok (txn .write (.result 0 0)) = true ∧ ok (txn .write (.marker 1)) = true ∧ ok (txn .write (.dirty 1)) = true ∧
    ok (txn .write (.stamp 0)) = true ∧ ok { txn .write (.portTest 1 0) with cls := .maintenance } = true ∧ (txn .write (.result 5 0)).cls ≠ .maintenance ∧
    (let t := { txn .write (.result 5 0) with dead := true }
     (withT t).txn? 2 3 = some t ∧ t.dead = true ∧ t.purpose.plainWrite = true) := by decide +kernel

/-- Count 0 of queue 5 awaits its confirmation at the head; count 1 is confirmed behind it, and count 2 is not. -/
def threeCounts (c : BitVec 17) : State :=
  let j (c : BitVec 17) (ph : Phase) : Job := { job q5 ph 0x10 0 [] with count := c }
  { withQ 5 fun x => { x with tail := 3 } with
    txns := [txn .write (.completion 5 c)],
    fennel := { svc.fennel with
      queues := svc.fennel.queues.map fun x => if x.num == 5 then { x with tail := 3 } else x,
      jobs := [j 0 .completing, j 1 .confirmed, j 2 .completing] } }

theorem witness_CompletionAdvancesHead :
    ((threeCounts 0).txn? 2 3).map (·.purpose) = some (.completion 5 0) ∧ ((threeCounts 0).job? 5 0).map (·.phase) = some .completing ∧
    ((threeCounts 2).txn? 2 3).map (·.purpose) = some (.completion 5 2) ∧ ((threeCounts 2).job? 5 2).map (·.phase) = some .completing ∧
    ((threeCounts 0).queue? 5).map (·.head) = some 0 ∧ ((threeCounts 2).job? 5 0).map (·.phase) = some .completing ∧
    ((threeCounts 0).job? 5 1).map (·.phase) = some .confirmed ∧ ((threeCounts 0).job? 5 2).map (·.phase) = some .completing ∧
    (svc.mode.timeOn = true ∧ svc.mode.steps.s1 = true ∧ svc.thyme.epochDue = false) ∧
    ((after (exec (.tickBoundary noChecks) svc)).bind (·.queue? 5)).map (·.domain) = some mgr.domain ∧ mgr.port ≠ .p1 := by
  and_intros <;> decide +kernel

/-- svc with no spare port. -/
def noSpare (t : Txn) : State :=
  { withT t with sorrel := { svc.sorrel with ports := svc.sorrel.ports.take 8 ++ List.replicate 2 { role := .retired, counts := 0, egress := 0, bad := false } } }

theorem witness_FailedTransfers :
    let t := txn .read (.payload 5 0 0 0)
    let w := txn .write (.output 5 0 0 0)
    let j := job q5 .writing 0x10 0 []
    (withT t).txn? 2 3 = some t ∧ t.dead = false ∧ t.cut = false ∧ t.cls ≠ .maintenance ∧ (withT t).sparePort = some 8 ∧ (noSpare t).sparePort = none ∧
    (({ svc with txns := [txn .read (.aux 5 0)] } : State).txn? 2 3).isSome = true ∧
    (({ svc with txns := [txn .read (.response 0)] } : State).txn? 2 3).isSome = true ∧
    (let s := { withJ j with txns := [w] }
     s.txn? 2 3 = some w ∧ (({ s with txns := s.txns.filter fun x => !(x == w) } : State).logTxn w).job? 5 0 = some j ∧ j.status = none) ∧
    (withT (txn .evict (.line 5 0 false 0))).txn? 2 3 = some (txn .evict (.line 5 0 false 0)) ∧
    (withT { t with cut := true }).txn? 2 3 = some { t with cut := true } ∧ (withT { t with dead := true }).txn? 2 3 = some { t with dead := true } := by
  decide +kernel

theorem witness_ChecksReissue :
    let t := txn .write (.result 5 0)
    let u := txn .write (.output 5 0 0 0)
    let v := { txn .write (.portTest 1 0) with cls := .maintenance }
    let e := txn .evict (.line 5 0 false 0)
    (withT t).txn? 2 3 = some t ∧ t.dead = false ∧ t.op = .write ∧ t.cls ≠ .maintenance ∧ (withT u).txn? 2 3 = some u ∧ u.purpose = .output 5 0 0 0 ∧
    (withT v).txn? 2 3 = some v ∧ v.cls = .maintenance ∧ (withT e).txn? 2 3 = some e ∧ (withT e).line? e.domain (e.iova / 128) = none ∧
    (withT { t with dead := true }).txn? 2 3 = some { t with dead := true } := by
  decide +kernel

/-- svc with the ports in given roles and counts, and a scratch area for the port test. -/
def withPorts (ps : List PortState) : State :=
  { withR 0x90080 0x700000 with sorrel := { svc.sorrel with ports := ps } }

theorem witness_PortSuspension :
    let p (r : PortRole) (n : Nat) : PortState := { role := r, counts := n, egress := 0, bad := false }
    let s := withPorts [p (.position 0) 1, p .suspended 2, p .retired 0, p (.position 1) 0, p .spare 0, p .spare 0]
    s.sorrel.ports[1]? = some (p .suspended 2) ∧ s.sorrel.ports[2]? = some (p .retired 0) ∧ s.regN 0x90080 % 2 ^ 52 ≠ 0 ∧
    s.txns = [] ∧ (p .suspended 2).bad = false ∧ s.sorrel.ports[0]? = some (p (.position 0) 1) ∧ s.sparePort = some 4 ∧
    s.sorrel.ports[4]? = some (p .spare 0) ∧ s.sorrel.ports[3]? = some (p (.position 1) 0) := by decide +kernel

theorem witness_InterruptsAndNotices :
    let f (n : Nat) (y : Queue) : Queue := { y with coalCount := 2, coalTicks := 16, pendingInt := n, firstPending := some 984 }
    (let x := f 2 q5
     (withQ 5 (f 2)).queue? 5 = some x ∧ x.coalCount ≠ 0 ∧ x.pendingInt ≠ 0 ∧ x.lastInt ≠ some svc.thyme.tick ∧
     x.coalCount.toNat ≤ x.pendingInt) ∧
    (let x := f 1 q5
     ¬x.coalCount.toNat ≤ x.pendingInt ∧ x.coalTicks ≠ 0 ∧ x.firstPending = some 984 ∧ 984 + x.coalTicks.toNat ≤ svc.thyme.tick) ∧
    ¬(f 0 q5).pendingInt ≠ 0 := by decide +kernel

/-- A context line of queue 5's job at the line of transaction txn. -/
def wline (st : LineState) : WbLine :=
  { domain := 0, line := 0x5000 / 128, data := List.replicate 128 1, checks := flitChecks (List.replicate 128 1), state := st, queue := 5, count := 0, older := false }

theorem witness_ContextLines :
    let s (t : Txn) (st : LineState) : State := { withT t with dill := { svc.dill with lines := [wline st] } }
    let claim := txn .claim (.line 5 0 false 0)
    let evict := txn .evict (.line 5 0 false 0)
    ((s claim .claimed).txn? 2 3 = some claim ∧ (s claim .claimed).line? claim.domain (claim.iova / 128) = some (wline .claimed) ∧
      (s { claim with dead := true } .claimed).txn? 2 3 = some { claim with dead := true }) ∧
    ((s evict .owned).txn? 2 3 = some evict ∧ (s evict .owned).line? evict.domain (evict.iova / 128) = some (wline .owned) ∧
      (s evict .owned).evictSent (wline .owned) = true ∧ (s { evict with tag := none } .owned).evictSent (wline .owned) = false) ∧
    (s claim .claimed).line? 0 (0x5000 / 128) = some (wline .claimed) ∧ svc.line? 0 5 = none := by decide +kernel

/-- A context of queue 5's job that is being restored from record 1, saved as number 7. -/
def restoringCtx : Ctx :=
  { domain := 0, queue := 5, count := 0, older := false, place := .restoring 1 7, lru := 0, state := [], outer := [], carry := [],
    absorbed := 0, next := 0, sealed := [] }

def restoring : State :=
  { withJ (job q5 .ctxWait 0x40 0 []) with dill := { svc.dill with ctxs := [restoringCtx], sealKey := some (List.replicate 32 9) } }

/-- The record of Table 7.6 for a context: its image under its tag. -/
def goodRecord (s : State) (j : Job) (x : Ctx) : Bytes :=
  let w := padTo 616 (s.ctxImage j x 1 7)
  w ++ padTo 24 (gcmTag (s.dill.sealKey.getD []) (saveIv x.domain 1 7) (sub w 0 48) (sub w 48 568))

theorem record_parts (w t : Bytes) (hw : w.length = 616) (ht : t.length = 16) :
    sub (w ++ padTo 24 t) 0 40 = sub w 0 40 ∧ sub (w ++ padTo 24 t) 0 48 = sub w 0 48 ∧ sub (w ++ padTo 24 t) 48 568 = sub w 48 568 ∧
    sub (w ++ padTo 24 t) 616 16 = t := by
  have h3 : (w.drop 48).take 568 = w.drop 48 := List.take_of_length_le (by simp [hw])
  have h4 : t.take 24 = t := List.take_of_length_le (by omega)
  refine ⟨?_, ?_, ?_, ?_⟩ <;> simp [sub, padTo, List.take_append, List.drop_append, hw, ht, zeros, h3, h4]

theorem goodRecord_accepted : restoring.restoreOk (job q5 .ctxWait 0x40 0 []) restoringCtx 1 7 (goodRecord restoring (job q5 .ctxWait 0x40 0 []) restoringCtx) = true := by
  have hw : (padTo 616 (restoring.ctxImage (job q5 .ctxWait 0x40 0 []) restoringCtx 1 7)).length = 616 := by decide +kernel
  have h40 : sub (padTo 616 (restoring.ctxImage (job q5 .ctxWait 0x40 0 []) restoringCtx 1 7)) 0 40 =
      sub (restoring.ctxImage (job q5 .ctxWait 0x40 0 []) restoringCtx 1 7) 0 40 := by decide +kernel
  have ht (k i a b : Bytes) (h : (aesEnc k (gcmJ0 i)).length = 16) : (gcmTag k i a b).length = 16 := by
    have hl (n v : Nat) : (leBytes n v).length = n := by
      induction n generalizing v with
      | zero => rfl
      | succ n ih => simp [leBytes, ih]
    simp [gcmTag, xorB, h, bitsBlock, beBytes, hl]
  obtain ⟨h1, h2, h3, h4⟩ := record_parts _ _ hw (ht (restoring.dill.sealKey.getD []) (saveIv restoringCtx.domain 1 7)
    (sub (padTo 616 (restoring.ctxImage (job q5 .ctxWait 0x40 0 []) restoringCtx 1 7)) 0 48)
    (sub (padTo 616 (restoring.ctxImage (job q5 .ctxWait 0x40 0 []) restoringCtx 1 7)) 48 568) (by decide +kernel))
  simp only [State.restoreOk, goodRecord]
  rw [h1, h2, h3, h4, h40]
  simp only [BEq.rfl, Bool.and_self]

theorem witness_ContextRestoreRule :
    let t := txn .read (.restore 5 0 false)
    let j := job q5 .ctxWait 0x40 0 []
    let s := { restoring with txns := [t] }
    s.txn? 2 3 = some t ∧ t.op = .read ∧ t.dead = false ∧ s.job? 5 0 = some j ∧
    s.dill.ctxs.find? (fun x => x.queue == 5 && x.count == 0 && x.older == false) = some restoringCtx ∧ restoringCtx.place = .restoring 1 7 ∧
    (s.endTxn 2 3).reading (fun p => p == .restore 5 0 false) = false ∧
    s.restoreOk j restoringCtx 1 7 (zeros 640) = false ∧ s.restoreOk j restoringCtx 1 7 (goodRecord s j restoringCtx) = true :=
  ⟨by decide +kernel, by decide, by decide, by decide +kernel, by decide +kernel, by decide, by decide +kernel, by decide +kernel, goodRecord_accepted⟩

/-! ## Links, resets, keys and the journal -/

def hostD1 (f : Domain → Domain) : State := (withD 1 f).setReg 0x90010 2

theorem witness_LinkAndResetRule :
    (hostD1 id).mainRuns = true ∧ (hostD1 id).isHost 1 = true ∧ (hostD1 id).domain? 1 = some d1 ∧
    ((hostD1 fun x => { x with linkDown := true }).linkSettled 1).domain? 1 = some { d1 with linkDown := true } ∧
    ((((hostD1 id).addChange (.linkDown 1)).linkSettled 1).domain? 1).any (·.linkDown) = true ∧
    (∀ del : Bool, let x := { d1 with resetting := some 999, deleting := del }
      let s := withD 1 fun _ => x
      s.domain? 1 = some x ∧ s.resetting 1 = true ∧ s.domainQuiet 1 = true) := by decide +kernel

def kreq (k : KbKind) (f : KbFor) : KbReq :=
  { serial := 5, reqId := 5, frame := some 0, lane := 0, kind := k, domain := 0, handle := 8, dest := f, tick := 999, errors := 0 }

def slot (l : Bool) : KeySlot :=
  { domain := 0, handle := 8, loading := l, record := none, material := none, useNext := 0, useEnd := 0, useAsked := true, exhausted := false,
    pinned := false, revoked := false, newKey := none, lru := 0, counter := none }

def withK (r : KbReq) (xs : List KeySlot) : State :=
  { svc with keyBus := { reqs := [r], serial := 6, presented := none, nextId := 6, nextFrame := 0 }, bay := { svc.bay with slots := xs } }

/-- An AES-128 record that is valid for ever: type 0x0, algorithm 0x01, 16 bytes. -/
def aesRecord : Bytes := ent [(1, 1), (4, 16), (31, 0xFF)]

theorem witness_KeyLoadRule :
    let r := kreq .keyLoad .slot
    let s := withK r [slot true]
    let t := kreq .keyLoad (.job 5 0)
    (s.kbReq? 5 = some r ∧ r.kind = .keyLoad ∧ s.resetting r.domain = false ∧ 128 ≤ aesRecord.length ∧ recordOk (parseRec aesRecord) = true ∧
      (s.kbEnd 5).slot? 0 8 = some (slot true) ∧ (slot true).loading = true ∧ s.inAlarm = false ∧ s.kbClosed = false ∧ s.keyBus.freeId = some 6) ∧
    (withK t []).kbReq? 5 = some t ∧ (KbOutcome.refused ≠ .granted ∧ KbOutcome.refused ≠ .error) ∧
    (let j := job q5 .keys 0x10 0 []
     (withJ j).job? 5 0 = some j ∧ j.phase = .keys) := by decide +kernel

theorem witness_KeyUseRule :
    let r := kreq (.useReserve 4) .slot
    let s := withK r [slot false]
    let t := kreq (.useReserve 1) (.job 5 0)
    let m : KeySlot := { slot false with newKey := some [1, 2] }
    (s.kbReq? 5 = some r ∧ s.resetting r.domain = false ∧ s.slot? 0 8 = some (slot false) ∧ s.mainRuns = true) ∧
    (withK t []).kbReq? 5 = some t ∧
    (withK r [m]).slot? 0 8 = some m ∧ m.revoked = false ∧ m.newKey = some [1, 2] ∧ (withK r [m]).heldByOther 0 8 = false ∧
    (let k := { slot false with record := some (parseRec aesRecord), revoked := true }
     (withK r [k]).slot? 0 8 = some k ∧ k.record.isSome = true ∧ k.revoked = true ∧
     Change.revoked k.domain k.handle ∉ (withK r [k]).admin.changes) := by decide +kernel

theorem witness_KeyBusLanes :
    let r := kreq (.echo 0) (.lane 1)
    let k (n e : Nat) : KbLane := { health := .suspended, losses := n, echoes := e, badFrames := 0 }
    let s (x : KbLane) : State := { withK r [] with sorrel := { svc.sorrel with kb := [x, x] } }
    (withK (kreq .keyLoad .slot) []).kbReq? 5 = some (kreq .keyLoad .slot) ∧ svc.resetting 0 = false ∧ svc.mainRuns = true ∧
    (s (k 1 255)).kbReq? 5 = some r ∧ (s (k 1 255)).sorrel.kb[1]? = some (k 1 255) ∧ 255 ≤ (k 1 255).echoes ∧ 1 ≤ (k 1 255).losses ∧
    (s (k 0 254)).sorrel.kb[1]? = some (k 0 254) ∧ (k 0 254).echoes < 255 ∧ (k 0 254).losses = 0 ∧
    (s (k 0 254)).keyBus.reqs.find? (fun r => r.dest == .lane 1) = some r ∧ 2 ≤ (k 1 255).losses + 1 ∧ 2 ≤ { k 0 0 with badFrames := 1 }.badFrames + 1 ∧
    (k 0 254).losses + 1 < 2 ∧ (k 0 254).badFrames + 1 < 2 ∧ (∀ r ∈ svc.keyBus.reqs, r.dest ≠ .lane 1) ∧
    svc.thyme.tick < r.tick + 6250 ∧ ¬svc.thyme.tick < { r with tick := 0 }.tick + 1000 := by decide +kernel

def compacting (n : Nat) : Compaction := { step := n, removed := [], newUsed := 0, table := [] }

theorem witness_JournalRule :
    let w := kreq (.jnlWrite .copyA jLogBase [1]) .mint
    let rd := kreq (.jnlRead .map 0 64) .mint
    let er := kreq (.jnlErase .copyB) .mint
    let boot (en : BitVec 64) : State := { (withR 0x40000 en) with
      mode := { svc.mode with mode := .startup, steps := { svc.mode.steps with s8 := false } } }
    ((withK w []).kbReq? 5 = some w ∧ w.dest = .mint ∧ (withK w []).inAlarm = false ∧ KbOutcome.error ≠ .granted) ∧
    (∀ n ∈ [0, 5, 8, 9], let s : State := { svc with mint := { svc.mint with compaction := some (compacting n) } }
      s.mint.compaction = some (compacting n) ∧ s.jBusy = false ∧ (∀ r ∈ s.mint.records, r.unread = false) ∧ ∀ a ∈ s.mint.appends, a.waiting = none) ∧
    (∀ r ∈ [Recovery.headers, .reading, .scanning], let s := { withK rd [] with mint := { svc.mint with recovery := r } }
     s.kbReq? 5 = some rd ∧ rd.dest = .mint ∧ s.mint.recovery = r) ∧
    ((withK er []).kbReq? 5 = some er ∧ ({ withK er [] with mint := { svc.mint with recovery := .erasing } } : State).mint.recovery = .erasing) ∧
    (let s := boot 0x80000001
     s.mode.mode = .startup ∧ s.mode.fail = 0 ∧ s.mode.steps.s4 = true ∧ s.mode.steps.s8 = false ∧ s.mode.formatWait = false ∧
     s.mint.recovery = .idle ∧ (s.reg 0x40000).getLsbD 31 = true ∧ s.kbClosed = false) ∧
    (svc.mint.recovery ≠ .headers ∧ svc.mint.recovery ≠ .reading ∧ svc.mint.recovery ≠ .scanning ∧ svc.inAlarm = false) ∧
    ({ svc with lovage := { svc.lovage with life := .returned } } : State).kbClosed = true ∧
    (boot 0x80000001).jnlEn = true ∧ (boot 0x80000000).jnlEn = false := by decide +kernel

/-! ## Engines -/

def seqOp (q : Nat) (dur : Nat) (res : Option (Status × Bytes)) : Op :=
  { queue := q, count := 0, domain := 0, start := 990, dur := dur, bankB := false, draw := 0, result := res, secret := none, restarts := 0,
    budgets := 3, partner := none, isShadow := false, votes := [] }

def onSeq (j : Job) (o : Op) : State := { withJ j with basil := { svc.basil with seqs := svc.basil.seqs.set 2 (some o) } }

theorem witness_SequencerRule :
    let j := job q5 .basil 0x60 0x12 []
    let o := seqOp 5 11 (some (.ok, [1]))
    let k := job q5 .basil 0x60 0x39 []
    let p := seqOp 5 12 none
    (let s := onSeq j o
     s.basil.seqs[2]? = some (some o) ∧ o.isShadow = false ∧ o.start + o.dur ≤ s.thyme.tick + 1 ∧ s.job? 5 0 = some j ∧ j.status = none ∧
     o.secret = none) ∧
    (let s := onSeq k p
     s.basil.seqs[2]? = some (some p) ∧ p.isShadow = false ∧ p.start + p.dur ≤ s.thyme.tick + 2 ∧ p.partner = none ∧ s.job? 5 0 = some k ∧
     eOp k.entry = 0x60 ∧ eSub k.entry = 0x39 ∧ 3 ≤ p.budgets) ∧
    (let o := { seqOp 5 12 (some (.ok, [1])) with partner := some 14 }
     (onSeq j o).basil.seqs[2]? = some (some o) ∧ o.start + o.dur = (onSeq j o).thyme.tick + 2 ∧ (onSeq j o).basil.seqs.length = 16 ∧
     o.votes = [] ∧ o.restarts = 0 ∧ (1 : BitVec 64) ≠ 2) ∧
    (let o := { seqOp 5 12 (some (.ok, [1])) with restarts := 1, votes := [(2, 1), (14, 2)] }
     (onSeq j o).basil.seqs[2]? = some (some o) ∧ o.partner = none ∧ o.result.isSome = true ∧ o.start + o.dur = (onSeq j o).thyme.tick + 2) := by
  decide +kernel

def verifying (b : Bool) (a : Option (BitVec 17)) (st : Option Status) : Verify :=
  { bankB := b, active := true, admin := a, base := 0x10000, len := 4112, bytes := [], got := 0, failed := st }

theorem witness_MicrocodeRule :
    let j := admin 5 0 []
    (let v := verifying true (some 0) (some .poisoned)
     let s := { withJ j with basil := { svc.basil with verify := [v] } }
     s.verifyReady = some v ∧ v.failed.isSome = true ∧ s.job? 0 0 = some j ∧ j.status = none) ∧
    (let v := verifying true none none
     let s := { svc with basil := { svc.basil with verify := [v], rom := [(.bank true, 14)] } }
     s.verifyReady = some v ∧ s.verifierRuns (.bank true) = true ∧ s.mode.steps.s6 = true ∧ (∀ x ∈ s.basil.verify, x.bankB = v.bankB) ∧
     (s.packageCheck v.bytes v.len).isSome = true) ∧
    (let s : State := { (withR 0x60000 0x80000000) with mode := { svc.mode with mode := .startup, steps := { svc.mode.steps with s6 := false } } }
     s.mode.fail = 0 ∧ s.mode.steps.s4 = true ∧ s.reloading = false ∧ (s.reg 0x60000).getLsbD 31 = true ∧ (∀ b, s.bankAddr b = 0) ∧
     (s.setReg 0x60010 0x10000).bankAddr true ≠ 0) ∧
    (let s : State := { svc with basil := { svc.basil with bankA := { Bank.none with state := .active } } }
     s.mainRuns = true ∧ (s.basil.bank false).state = .active) := by decide +kernel

/-- A job at the end of its slices: nothing is left to deliver. -/
def ending (x : Queue) (op sub : Byte) : Job := job x .slices op sub []

theorem witness_SymmetricEnds :
    (∀ p ∈ [(0x18, 0), (0x19, 0), (0x1C, 0), (0x1D, 0), (0x1E, 0), (0x10, 0), (0x12, 0), (0x12, 1), (0x14, 0), (0x20, 0), (0x22, 0), (0x22, 1), (0x30, 0),
      (0x41, 0), (0x42, 0), (0x50, 0), (0x40, 0), (0x24, 0)],
      let j := ending q5 (BitVec.ofNat 8 p.1) (BitVec.ofNat 8 p.2)
      (withJ j).job? 5 0 = some j ∧ j.phase = .slices ∧ j.allDelivered = true ∧ eOp j.entry = p.1 ∧ ∀ x ∈ j.slices, x.fault = none) ∧
    (∃ x ∈ ({ ending q5 0x18 0 with slices := [{ newSlice 0 0 with fault := some (0, 0x0A) }] } : Job).slices, x.fault ≠ none) ∧
    (∀ p ∈ [0x10, 0x11, 0x14, 0x15, 0x1C, 0x1E, 0x22, 0x30, 0x31], eOp (ending q5 (BitVec.ofNat 8 p) 0).entry = p ∧
      eAad (ending q5 (BitVec.ofNat 8 p) 0).entry = 0) ∧ (zeros 32).length % 16 = 0 ∧
    (!bit (eSub (ending q5 0x12 0).entry) 0) = true ∧ bit (eSub (ending q5 0x12 1).entry) 0 = true ∧ (!bit (eSub (ending q5 0x50 0).entry) 7) = true := by
  decide +kernel

def record (typ alg klen : Nat) (m : Bytes) : KeyRec :=
  { typ := typ, alg := alg, policy := 0x3FF, klen := klen, hdigest := 0, useLimit := 0, notBefore := 0, notAfter := 2 ^ 64 - 1, newer := 0,
    older := 0, material := m, clean := true }

/-- Slot 8 of domain 0 with a record and its material. -/
def full (h : Nat) (r : KeyRec) : KeySlot :=
  { slot false with handle := h, record := some r, material := some r.material, useAsked := false, useEnd := 9 }

/-- An unwrap by AES-KWP under KEK 8 of domain 0 to slot 9, whose last slice leaves a key of 5 bytes. -/
def unwrapping : Job :=
  { ending q6 0x25 2 with
    domain := 0, queue := 5, made := [0xA6, 0x59, 0x59, 0xA6, 0, 0, 0, 5, 1, 2, 3, 4, 5, 0, 0, 0],
    keys := [{ role := .key, second := false, handle := 8, failed := none }, { role := .key2, second := true, handle := 9, failed := none }] }

def unwrapState (l : List KeySlot) : State := { withJ unwrapping with bay := { svc.bay with slots := full 8 (record 0 1 16 (zeros 16)) :: l } }

/-- Five authenticated decrypts at their end: a tag that agrees, one that does not, with and without a held output, and one that has selected its key. -/
theorem witness_AuthenticatedEnds_decrypt :
    let out : LaneOut := { lane := 0, second := false, queue := 6, count := 0, slice := 0, held := true, zeroed := false, data := [1] }
    (∀ p ∈ [(0x11, 0), (0x15, 0), (0x21, 0), (0x31, 0), (0x50, 0x80)],
      let j := ending q6 (BitVec.ofNat 8 p.1) (BitVec.ofNat 8 p.2)
      let k : JobKey := { role := .key, second := p.1 == 0x50, handle := 8, failed := none }
      let good : Job := { j with keys := [k], made := zeros 64 }
      (withJ j).job? 6 0 = some j ∧ j.phase = .slices ∧ j.allDelivered = true ∧ j.status = none ∧ eOp j.entry = p.1 ∧
      (j.selects || j.memberLives (p.1 == 0x50) false) = false ∧ good.memberLives (p.1 == 0x50) false = true ∧
      good.made.take (macLen good.entry) = good.tagIn ∧ (withJ j).thyme.outs = [] ∧
      (({ withJ j with thyme := { svc.thyme with outs := [out] } } : State).thyme.outs.find?
        fun x => x.queue == 6 && x.count == 0 && x.held) = some out) ∧
    (let j := { ending q6 0x11 0 with keys := [{ role := .older, second := false, handle := 8, failed := none }] }
     j.selects = true) ∧ bit (eSub (ending q6 0x50 0x80).entry) 7 = true := by decide +kernel

theorem witness_AuthenticatedEnds_unwrap :
    let s := unwrapState [full 9 (record 2 0x20 0 [])]
    s.job? 5 0 = some unwrapping ∧ unwrapping.phase = .slices ∧ unwrapping.allDelivered = true ∧ unwrapping.status = none ∧
    eOp unwrapping.entry = 0x25 ∧ (unwrapping.olderKey false).isSome = false ∧ unwrapping.memberLives false false = true ∧
    unwrapping.mainKey true = some 9 ∧ kwOpen 2 unwrapping.made = some [1, 2, 3, 4, 5] ∧
    s.targetOpen 0 9 = true ∧ (s.recOf 0 9).any (fun r => unwrapFits r [1, 2, 3, 4, 5]) = true ∧ (unwrapState []).targetOpen 0 9 = false ∧
    kwOpen 2 ({ unwrapping with made := [] } : Job).made = none ∧ ({ unwrapping with keys := [] } : Job).mainKey true = none := by
  decide +kernel

theorem witness_PublicKeyResults :
    let o := seqOp 5 12 none
    (∀ p ∈ ([0x01, 0x02, 0x10, 0x11, 0x12, 0x13, 0x20, 0x21, 0x24, 0x30, 0x31, 0x32, 0x38, 0x39, 0x3A, 0x40] : List Nat),
      let j := job q5 .basil 0x60 (BitVec.ofNat 8 p) []
      (onSeq j o).opOf 5 0 0x60 p = some (2, o, j)) ∧
    eSub (job q5 .basil 0x60 0x10 []).entry ≠ 0x39 ∧
    (let j := { job q5 .basil 0x70 0 [] with pk := some [1] }
     (onSeq j o).opOf 5 0 0x70 0 = some (2, o, j) ∧ j.pk = some [1]) := by decide +kernel

/-! ## Secure time -/

/-- A control job at the head of Q1 with a block. -/
def control (l : List (Nat × Byte)) : Job :=
  { job q1 .command 0x71 0x10 [(8, 32)] with data := [(0, (ent l).take 32)] }

theorem witness_ControlJobs :
    (∀ p ∈ [(0x01, []), (0x02, []), (0x02, [(4, 1), (21, 0xFF)]), (0x03, []), (0x04, [(4, 3)]), (0x06, [(10, 2)]), (0x05, [(4, 63)]),
        (0x05, [(5, 1), (6, 1)])],
      (withJ (control ((0, BitVec.ofNat 8 p.1) :: p.2))).controlJob 0 p.1 = some (control ((0, BitVec.ofNat 8 p.1) :: p.2))) ∧
    timeKeyOf (control [(0, 5), (4, 63)]).image = none ∧
    (let j := control [(0, 5), (5, 1), (6, 1)]
     ∃ k, timeKeyOf j.image = some k ∧ (withJ j).sage.keyClash k = false ∧
      ({ (withJ j) with sage := { svc.sage with keys := [{ k with index := 2 }] } } : State).sage.keyClash k = true) ∧
    (let j := job q5 .command 0x7F 1 []
     (5 : Nat) ≠ 0 ∧ (withJ j).job? 5 0 = some j ∧ eOp j.entry = 0x7F ∧ j.phase = .command ∧ bit (eSub j.entry) 0 = true ∧
     bit (eSub (job q5 .command 0x7F 0 []).entry) 0 = false) := by
  exact ⟨by decide +kernel, by decide +kernel, ⟨_, rfl, by decide +kernel, by decide +kernel⟩, by decide +kernel⟩

/-- A PTP Sync message of version 2.1 with an AUTHENTICATION TLV of key 7, and one without. -/
def ptpAuth : Bytes := (ent [(1, 0x12), (3, 70), (44, 0x80), (45, 0x09), (47, 22), (53, 7)]).take 70
def ptpPlain : Bytes := (ent [(1, 0x12), (3, 44)]).take 44

def timeKey (kind : BitVec 8) : TimeKey :=
  { index := 1, kind := kind, tx := true, rx := true, cfZero := false, keyId := 7, handle := 8, handle2 := 9, lastSeq := [], generations := 0 }

def pipeJob (ph : Phase) (sub : Byte) (m : Bytes) : Job :=
  { job q1 ph 0x71 sub [(8, BitVec.ofNat 8 m.length)] with data := [(0, m)], stagedTick := 999 }

def pipeMsg (k : Option TimeKey) : PipeMsg :=
  { count := 0, start := 996, entry := k, sealer := none, launch := some 0, adj := 0, utc := 0, abandoned := false, result := none }

def inPipeline (j : Job) (m : PipeMsg) : State := { withJ j with sage := { svc.sage with pipe := [m] } }

theorem witness_PipelineRule :
    (let j := pipeJob .command 0x01 ptpAuth
     (withJ j).startable 0 = some j ∧ ((withJ j).pipeNeeds j).toOption = none ∧
     (({ withJ j with sage := { svc.sage with keys := [timeKey 1] } } : State).pipeNeeds j).toOption.isSome = true) ∧
    (∀ b : Bool, let m := { pipeMsg none with result := some (.ok, []), abandoned := b }
      let j := pipeJob .pipe 0x01 ptpPlain
      let s := inPipeline j m
      s.sage.pipe.find? (·.count == 0) = some m ∧ m.start + 4 ≤ s.thyme.tick ∧ s.job? 1 0 = some j ∧ j.status = none ∧
      isEgress (eSub j.entry) = true) ∧
    (Status.authFail ≠ .ok ∧ isEgress (eSub (pipeJob .pipe 0x02 []).entry) = false) ∧
    (eSub (pipeJob .pipe 0x04 []).entry = 0x04 ∧ ([1] : Bytes) ≠ [] ∧ (pipeJob .pipe 0x04 []).dstFits [1].length = false ∧
      (pipeJob .pipe 0x04 []).dstFits ([] : Bytes).length = true) ∧
    (65535 ≤ { timeKey 2 with generations := 65535 }.generations ∧ { timeKey 2 with generations := 65534 }.generations < 65535 ∧
      { timeKey 2 with lastSeq := [(0, 4)] }.lastSeq.lookup (bits (byteAt ptpAuth 0).toNat 3 0) = some 4 ∧
      BitVec.ofNat 16 (beNat (sub ptpAuth 30 2)) ≠ (4 : BitVec 16) + 1 ∧ (timeKey 2).lastSeq.lookup 0 = none) := by decide +kernel

theorem witness_MessagesFormed :
    (∀ sub ∈ ([1, 2, 3, 4, 5] : List Byte), let j := pipeJob .pipe sub ptpAuth
      (inPipeline j (pipeMsg (some (timeKey 1)))).inPipe 0 sub.toNat = some (j, pipeMsg (some (timeKey 1)))) ∧
    ptpForm ptpAuth = .auth 54 7 ∧ ptpForm (pipeJob .pipe 2 ptpAuth).message = .auth 54 7 ∧
    (∃ x, ptpStamp 0 0 0 ptpAuth = some x ∧ ptpForm x = .auth 54 7) ∧ ptpStamp 2 1 0 (ent ((8, 0x7F) :: (List.range 7).map fun i => (9 + i, 0xFF))) = none ∧
    (∃ x, ptpStamp 0 0 0 ptpPlain = some x ∧ (pipeMsg none).entry = none) := by
  exact ⟨by decide +kernel, by decide +kernel, by decide +kernel, ⟨_, rfl, by decide +kernel⟩, by decide +kernel, ⟨_, rfl, rfl⟩⟩

theorem witness_SageRule :
    (let s : State := { svc with sage := { svc.sage with servoState := .locked, sinceInput := some 0x186A0000 } }
     s.mode.timeOn = true ∧ s.mode.steps.s1 = true ∧ s.sage.servoState ≠ .freerun ∧ s.sage.servoState ≠ .holdover ∧ s.sg 0x18 ≤ 0x186A0000) ∧
    (svc.sage.sampleIn = 0 ∧ ({ svc.sage with sampleIn := 65535 } : Sage).sampleIn ≠ 0) ∧
    (let p : PendingStep := { target := .absolute 5, eStep := none }
     let s : State := { inMode .startup with sage := { svc.sage with pendingStep := some p } }
     s.sage.pendingStep = some p ∧ s.stepFits = true ∧ p.target.time s.sage.now = some 5 ∧ 5 < endTime) ∧
    (let p : PendingStep := { target := .absolute endTime, eStep := none }
     p.target.time 0 = some endTime) ∧
    ((inMode .startup).unitWrite mgr = true ∧ (inMode .startup).mode.mode = .startup) ∧
    (let s : State := { svc with sage := { svc.sage with leap := 1, leapAt := 0 } }
     s.sage.leap ≠ 0 ∧ s.sage.leapAt.toNat * 1000000000 * nsUnit ≤ s.sage.now) ∧
    (let s : State := { svc with sage := { svc.sage with ctrB := { failed := true, retired := false, agreed := 65536, failures := 1, testing := false } } }
     (s.sage.counter true).failed = true ∧ (s.sage.counter true).retired = false ∧ 65536 ≤ (s.sage.counter true).agreed) := by decide +kernel

def strobe : Strobe := { period := 3, phase := 15, egress := true, frameId := 9 }

theorem witness_TimestampRule :
    let on (v a : BitVec 64) := (withR 0x70100 v).setReg 0x70110 a
    ((15 : Nat) < 16 ∧ svc.inAlarm = false ∧ svc.channelOn 0 = false) ∧
    ((on 0x80000007 0).channelOn 0 = true ∧ (on 0x80000007 0).channelOk 0 = false ∧ (on 0x8000000C 0x1000).channelOk 0 = true ∧
      (on 0x8000000C 0x1001).channelOk 0 = false) ∧
    ((1 : Nat) < 2 ∧ svc.mode.mode ≠ .lightSleep ∧ (svc.stamp 17 strobe).2 = none) ∧
    (let s := (withR 0x70040 0x80000001)
     let s := { s with sage := { s.sage with now := 999999999 * nsUnit } }
     s.mode.timeOn = true ∧ s.mode.steps.s1 = true ∧ bit (s.sg 0x40) 31 = true ∧ s.sg 0x44 = 0 ∧
     (s.sage.now + nsUnit) % (1000000000 * nsUnit) = 0 ∧ nsUnit < s.sage.nextEdge - s.sage.now ∧ nsUnit < 1000000000 * nsUnit) ∧
    (svc.mode.timeOn = true ∧ svc.mode.steps.s1 = true) := by
  and_intros <;> decide +kernel

/-! ## Events, migration, mailboxes -/

def ev (prio : Nat) : Event := { typ := 1, prio := prio, arg := 0, tick := 999, data := [], cont := none, poison := 0 }

def withE (f : EventQ → EventQ) : State := svc.setEvq 1 f
def evq1 : EventQ := newEventQ 1 0x90000 9 0 0 0 0 1000

theorem witness_EventRule :
    (let q := { evq1 with staged := [ev 0] }
     (withE fun _ => q).evq? 1 = some q ∧ (withE fun _ => q).eventsOpen q = true ∧ q.starts = true) ∧
    (let q := { evq1 with staged := [ev 2], timeout := 16, lastStaged := 984 }
     (withE fun _ => q).evq? 1 = some q ∧ (withE fun _ => q).eventsOpen q = true ∧ q.timedOut svc.thyme.tick = true) ∧
    (let t := txn .read (.headWord 1)
     (withT t).txns.find? (fun t => t.purpose == .headWord 1 && t.tag.isSome) = some t ∧ t.dead = false) ∧
    (let t := txn .write (.events 1 0 1 true)
     let s := withT t
     s.txn? 2 3 = some t ∧ t.dead = false ∧ ((s.endTxn 2 3).logTxn t).evq? 1 = some evq1 ∧
     ((s.endTxn 2 3).logTxn t).linkOff 1 = false) := by decide +kernel

def mig (st : MigState) : Migration := { Migration.fresh with state := st, base := 0x200000, k := 8 }

theorem witness_MigrationRule :
    (∀ o : Bool, let x := { d1 with mig := { mig .logging with closed := [(5, 1)], overflow := o } }
      (withD 1 fun _ => x).domain? 1 = some x ∧ x.mig.closed = (5, 1) :: []) ∧
    ({ mig .logging with tail := 256 }.full = true ∧ { mig .logging with tail := 255 }.full = false) ∧
    (svc.pagesOpen = true ∧ svc.eventHold mgr.domain = false ∧ (1 : Nat) ≠ 0 ∧ mgr.port ≠ .p1 ∧ mgr.domain = 0 ∧
      svc.resetting 0 = false ∧ svc.domain? 1 = some d1) ∧
    (∀ m ∈ [Marker.none, .issued, .confirmed], let x := { d1 with mig := { mig .stopping with marker := m } }
      (withD 1 fun _ => x).domain? 1 = some x ∧ (withD 1 fun _ => x).stopReady x = true) := by decide +kernel

theorem witness_MailboxRule :
    (svc.pagesOpen = true ∧ svc.eventHold ten.domain = false ∧ svc.writeHeld ten.domain = false ∧ svc.domain? 1 = some d1 ∧
      svc.eventHold mgr.domain = false ∧ svc.writeHeld mgr.domain = false) ∧
    ((1 : Nat) ≠ 0 ∧ ten.port ≠ .p1 ∧ ten.domain = 1 ∧ svc.resetting 1 = false ∧ mgr.port ≠ .p1 ∧ mgr.domain = 0 ∧
      svc.resetting 0 = false) ∧
    (({ d1.mailbox with enabled := true }.enabled = true ∧ d1.mailbox.t2mFull = false ∧ d1.mailbox.m2tFull = false) ∧
      ((0x10001 : BitVec 32).setWidth 11 : BitVec 11).toNat = 1 ∧ ((1024 : BitVec 32).setWidth 11 : BitVec 11).toNat = 1024 ∧
      ¬((1025 : BitVec 32).setWidth 11 : BitVec 11).toNat ≤ 1024 ∧ ¬1 ≤ ((0x10000 : BitVec 32).setWidth 11 : BitVec 11).toNat) ∧
    ((0 : BitVec 32).getLsbD 0 = false ∧ (1 : BitVec 32).getLsbD 0 = true ∧ (2 : BitVec 32).getLsbD 1 = true) ∧
    ((0x3FF : Nat) + [0].length ≤ 0x400 ∧ 0x400 ≤ (0x400 : Nat) ∧ 0x7FF + [0].length ≤ 0x800 ∧ (0x3FF < 0x400 ∧ 0x400 < 0x3FF + [0, 0].length) ∧
      0x800 < 0x7FF + [0, 0].length) ∧ (ten.domain ≠ 0 ∧ mgr.domain ≠ 1) := by decide +kernel

/-! ## Administration -/

/-- The admin entry is there, at its command phase, in Service. -/
def adminReady (j : Job) (op sub : Nat) : Prop :=
  (withJ j).job? 0 0 = some j ∧ j.phase = .command ∧ j.status = none ∧ (withJ j).plansRun = true ∧ eOp j.entry = op ∧ eSub j.entry = sub

theorem witness_AdminReads :
    (adminReady (admin 1 0 []) 1 0 ∧ adminReady (admin 2 1 []) 2 1 ∧ adminReady (admin 2 2 []) 2 2 ∧ adminReady (admin 2 4 []) 2 4) ∧
    (let j := admin 2 3 [(24, 1)]
     adminReady j 2 3 ∧ (withJ j).domain? j.target = some d1 ∧ (withJ j).domain? (admin 2 3 [(24, 2)]).target = none) ∧
    (let j := admin 3 1 [(24, 1), (32, 6)]
     adminReady j 3 1 ∧ svc.domain? j.target = some d1 ∧ svc.queue? (fieldLe j.entry 32 2) = some q6 ∧ q6.domain = j.target ∧
     svc.queue? (fieldLe (admin 3 1 [(24, 1), (32, 5)]).entry 32 2) = some q5 ∧ q5.domain ≠ 1) ∧
    (adminReady (admin 3 2 [(24, 1)]) 3 2 ∧ svc.evq? d1.num = some evq1) ∧ adminReady (admin 3 3 [(24, 1)]) 3 3 := by
  unfold adminReady; decide +kernel

theorem witness_AdminReads_page :
    (let s := withJ (admin 2 1 [])
     (s.askPage 0).admin.page = some 0 ∧ (s.askPage 0).job? 0 0 = some (admin 2 1 [])) ∧
    (let s := { withJ (admin 1 0 []) with txns := [txn .write (.result 0 0)] }
     s.txn? 2 3 = some (txn .write (.result 0 0)) ∧ s.job? 0 0 = some (admin 1 0 [])) := by decide +kernel

theorem witness_AdminSettings :
    (let j := admin 4 1 [(24, 1), (32, 6)]
     adminReady j 4 1 ∧ svc.domain? j.target = some d1 ∧ svc.queue? (fieldLe j.entry 32 2) = some q6 ∧ q6.domain = j.target ∧
     svc.queue? (fieldLe (admin 4 1 [(24, 1), (32, 7)]).entry 32 2) = none) ∧
    (adminReady (admin 4 2 [(24, 1), (46, 8)]) 4 2 ∧ (eventSettings 1 (admin 4 2 [(24, 1), (46, 8)]).entry 32 true).isSome = true ∧
      eventSettings 1 (admin 4 2 [(24, 1), (46, 9)]).entry 32 true = none) ∧
    (adminReady (admin 4 3 [(32, 1)]) 4 3 ∧ svc.domain? (admin 4 3 [(32, 1)]).target = some d0 ∧ d0.num = 0 ∧ d1.num ≠ 0) ∧
    (let e := (admin 4 3 [(24, 1), (32, 1), (42, 0x20), (48, 20)]).entry
     (byteAt e 32).toNat = 1 ∧ fieldLe e 40 8 % 4096 = 0 ∧ 8 ≤ (byteAt e 48).toNat ∧ (byteAt e 48).toNat ≤ 20 ∧
     20 < (byteAt (admin 4 3 [(48, 21)]).entry 48).toNat ∧ (byteAt (admin 4 3 [(48, 7)]).entry 48).toNat < 8 ∧
     fieldLe (admin 4 3 [(40, 1)]).entry 40 8 % 4096 ≠ 0 ∧ svc.q1Owner ≠ d1.num ∧
     (withR 0x70000 1).q1Owner = d1.num ∧ d1.mig.state = .normal ∧ (mig .logging).state ≠ .normal) ∧
    (let e := (admin 4 3 [(24, 1), (32, 4), (34, 6), (36, 9)]).entry
     (byteAt e 32).toNat = 4 ∧ svc.queue? (fieldLe e 34 2) = some q6 ∧ q6.head = 0 ∧ q6.tail = 0 ∧ q6.used = false) ∧
    svc.domain? (admin 4 1 [(24, 2)]).target = none := by
  unfold adminReady; decide +kernel

theorem witness_QueueAdmin :
    (let j := admin 8 0 [(24, 1), (32, 7), (34, 2), (35, 16), (49, 0x50)]
     let e := j.entry
     adminReady j 8 0 ∧ svc.domain? j.target = some d1 ∧ genOf (byteAt e 34).toNat = some .c ∧ genOf 3 = none ∧ (byteAt e 35).toNat = 16 ∧
     fieldLe e 32 2 ≠ 0 ∧ svc.soon.queue? 7 = none ∧ (svc.soon.queue? 6).isSome = true ∧ fieldLe e 48 8 ≠ 0 ∧ fieldLe e 48 8 % 4096 = 0 ∧
     fieldLe e 48 8 + 2 ^ 16 * Gen.c.size ≤ 2 ^ 52 ∧ bits (svc.sg 0) 8 0 ≠ d1.num) ∧
    (let j := admin 9 0 [(24, 1), (32, 6)]
     adminReady j 9 0 ∧ svc.domain? (admin 9 0 [(24, 2)]).target = none ∧ svc.queue? 6 = some q6 ∧ q6.domain = j.target ∧ q6.idle = true ∧ { q6 with tail := 1 }.idle = false ∧
     q5.domain ≠ j.target) := by unfold adminReady; decide +kernel

/-- Settings of Table 11.4 at their bytes: a shared plan of one lane-tick, a window of 256 handles and a staging mark of 8. -/
def domainEnt (op : Byte) (d : Byte) : Job :=
  admin op 0 [(24, d), (32, 1), (37, 1), (40, 1), (51, 8), (52, 4), (86, 8)]

theorem witness_DomainAdmin :
    (adminReady (domainEnt 0x0C 2) 0x0C 0 ∧ (domainEnt 0x0C 2).target ≠ 0 ∧ (domainEnt 0x0C 0).target = 0 ∧
      ∃ x ev, domainSettings 2 (domainEnt 0x0C 2).entry true = .inl x ∧ eventQOf x.events svc.thyme.tick = some ev ∧
        (svc.soon.domain? 2).isSome = false ∧ (svc.thyme.plan.lookup 2).isSome = false ∧ svc.thyme.staged.any (·.domain == 2) = false ∧
        svc.wouldAdmit 2 x.plan = true ∧ svc.soon.otherSlots 2 + x.slotRes ≤ 65536) ∧
    (domainSettings 2 (admin 0x0C 0 []).entry true = .inr 32 ∧ (svc.soon.domain? 1).isSome = true) ∧
    (adminReady (domainEnt 0x0D 1) 0x0D 0 ∧ svc.domain? 1 = some d1 ∧ domainSettings 1 (admin 0x0D 0 []).entry false = .inr 32 ∧
      ∃ x, domainSettings 1 (domainEnt 0x0D 1).entry false = .inl x ∧ svc.wouldAdmit 1 x.plan = true ∧
        svc.soon.otherSlots 1 + x.slotRes ≤ 65536 ∧ svc.pinnedOf 1 ≤ x.slotRes ∧
        svc.holdsSaved 1 = false ∧ svc.wouldAdmit 1 { x.plan with chive := 1001 } = false) ∧
    svc.domain? (domainEnt 0x0D 2).target = none ∧
    (let j := admin 0x0E 1 [(24, 1)]
     adminReady j 0x0E 1 ∧ adminReady (admin 0x0E 0 []) 0x0E 0 ∧ j.resetMark = false ∧ (withJ j).domain? j.target = some d1 ∧ d1.num ≠ 0 ∧
     (withJ j).domain? 2 = none ∧ (withJ j).domain? 0 = some d0 ∧ d0.num = 0) := by
  unfold adminReady
  refine ⟨⟨?_, ?_, ?_, _, _, rfl, rfl, ?_⟩, ?_, ⟨?_, ?_, ?_, _, rfl, ?_⟩, ?_, ?_⟩ <;> decide +kernel

def withBanks (a b : BankState) : State :=
  { svc with basil := { svc.basil with bankA := { Bank.none with state := a, sigKind := 1 }, bankB := { Bank.none with state := b } } }

theorem witness_MicrocodeAdmin :
    (let j := admin 5 0 [(8, 0x10), (9, 0x10)]
     adminReady j 5 0 ∧ (∀ v ∈ (withJ j).basil.verify, v.admin ≠ some 0) ∧ j.bankB = false ∧ ((withJ j).basil.bank j.bankB).state = .empty ∧
     eLen j.entry = 4112 ∧ eLen (admin 5 0 [(8, 0x0F), (9, 0x10)]).entry < 4112 ∧
     eLen (admin 5 0 [(8, 0x73), (9, 0x22), (10, 2)]).entry = 139891 ∧ 139891 < eLen (admin 5 0 [(8, 0x74), (9, 0x22), (10, 2)]).entry ∧
     ((withBanks .active .empty).basil.bank false).state ≠ .empty ∧ ((withBanks .active .empty).basil.bank false).state ≠ .standby) ∧
    (adminReady (admin 6 0 []) 6 0 ∧ ((withBanks .empty .standby).basil.bank true).state = .standby ∧
      (withBanks .empty .standby).svnOk ((withBanks .empty .standby).basil.bank true) = true ∧
      (let s := { withBanks .standby .empty with lovage := { svc.lovage with mono := [(17, ⟨1, 1, 1⟩)] } }
       (s.basil.bank false).state = .standby ∧ s.svnOk (s.basil.bank false) = false)) ∧
    (let s := { withBanks .active .standby with basil := { (withBanks .active .standby).basil with switch := some (true, true) } }
     s.switching true = true ∧ s.switching false = false ∧ (s.basil.bank true).state = .standby ∧ (s.basil.bank false).state = .active ∧
     svc.switching false = false) := by unfold adminReady; decide +kernel

def tested (st : Bool) (a : Nat) : SelfTest := { kind := 1, index := 71, accepted := a, started := st, second := false, count := 0 }

theorem witness_SelfTestRule :
    (∀ p ∈ ([1, 2, 3, 4, 5, 6, 7, 8, 9] : List Byte), adminReady (admin 0x10 p []) 0x10 p.toNat) ∧ (∀ t ∈ svc.sorrel.tests, t.count ≠ 0) ∧
    (lastIndex 1 = 71 ∧ fieldLe (admin 0x10 1 [(32, 71)]).entry 32 2 ≤ lastIndex 1 ∧ lastIndex 1 < fieldLe (admin 0x10 1 [(32, 72)]).entry 32 2) ∧
    (svc.unitRetired 1 71 = false ∧
      ({ svc with sorrel := { svc.sorrel with lanes := svc.sorrel.lanes.set 71 { UnitState.fresh with health := .retired } } } : State).unitRetired 1 71 = true) ∧
    (let s := { svc with sorrel := { svc.sorrel with tests := [tested false 999] } }
     s.test? 1 71 false = some (tested false 999) ∧ s.plansRun = true ∧ (tested false 999).accepted < s.thyme.tick ∧
     s.thyme.tick ≤ (tested false 999).accepted + 65536 ∧ s.testCanStart 1 71 = true ∧ s.testCanStart 5 2 = false) ∧
    (let j := admin 0x10 1 [(32, 71)]
     let s := { withJ j with sorrel := { svc.sorrel with tests := [tested false 999] }, thyme := { svc.thyme with tick := 66536 } }
     s.test? 1 71 false = some (tested false 999) ∧ (tested false 999).accepted + 65536 < s.thyme.tick ∧ s.job? 0 0 = some j ∧ j.status = none) ∧
    (let s := { svc with sorrel := { svc.sorrel with tests := [tested true 999] } }
     s.test? 1 71 true = some (tested true 999) ∧ s.plansRun = true) ∧
    (let t (k : Nat) : SelfTest := { tested true 999 with kind := k, index := 0 }
     let s (k : Nat) : State := { svc with sorrel := { svc.sorrel with tests := [t k], cells := [false, true] } }
     (∀ k ∈ [3, 7, 9], (s k).test? k 0 true = some (t k) ∧ (t k).second = false) ∧ ((s 7).halvesOf .thyme).2 = .inPair ∧
     (s 9).sorrel.cells = [false, true] ∧ ∃ x, (s 3).sorrel.dill[0]? = some x ∧ x.health ≠ .retired ∧ x.tested = 0) := by
  unfold adminReady
  refine ⟨?_, ?_, ?_, ?_, ?_, ?_, ?_, ?_, ?_, ?_, _, rfl, ?_⟩ <;> decide +kernel

def load (k : LoadKind) : PostedLoad :=
  { load := 1, kind := k, domain := 0, handle := 8, kek := 9, data := 0x5000, len := 24, count := 0, tag := 0, accepted := 999 }

/-- A posted load, with the slot of its handle. -/
def loading (k : LoadKind) (x : KeySlot) : State :=
  { svc with admin := { svc.admin with loads := [load k] }, bay := { svc.bay with slots := [x] } }

theorem witness_LoadKeyRule :
    (∀ p ∈ ([0, 1, 2] : List Byte), adminReady (admin 0x11 p [(24, 1), (32, 0xFF)]) 0x11 p.toNat) ∧ svc.admin.loads.length < 64 ∧
    (let j := admin 0x11 1 [(24, 1), (32, 0xFF)]
     svc.domain? j.target = some d1 ∧ inWindow d1 (fieldLe j.entry 32 3) = true ∧ (svc.domain? 0).any (fun m => inWindow m (fieldLe j.entry 36 3)) = true ∧
     inWindow d1 (fieldLe (admin 0x11 1 [(33, 1)]).entry 32 3) = false ∧ svc.domain? (admin 0x11 1 [(24, 2)]).target = none) ∧
    (let s := loading .handle (slot true)
     s.load? 1 = some (load .handle) ∧ s.plansRun = true ∧ s.resetting 0 = false ∧ (load .handle).accepted < s.thyme.tick ∧
     (s.checkSlot 0 8 false).2 = .wait) ∧
    (∃ k, ((loading .handle (full 8 (record 0 1 16 (zeros 16)))).checkSlot 0 8 false).2 = .ready k ∧ k.typ ≠ 2) ∧
    (∃ k, ((loading .handle (full 8 { record 1 1 16 [] with newer := 9, older := 10 })).checkSlot 0 8 false).2 = .ready k ∧ k.typ = 1 ∧
      ((svc.domain? 0).any fun x => inWindow x k.newer && inWindow x k.older) = true ∧
      ((svc.domain? 0).any fun x => inWindow x 256 && inWindow x k.older) = false) ∧
    (∃ k, ((loading .kw { full 8 (record 2 1 16 []) with pinned := true }).checkSlot 0 8 false).2 = .ready k ∧ k.typ = 2) ∧
    (∃ st, ((loading .kw { full 8 (record 2 1 16 []) with revoked := true }).checkSlot 0 8 false).2 = .fail st) ∧
    (let w := { unwrapping with queue := loadQueue, count := 1 }
     let s (w : Job) := (loading .kwp { full 8 (record 2 0x20 0 []) with pinned := true }).addJob w
     (loading .kwp (slot true)).job? loadQueue ((1 : BitVec 32).setWidth 17) = none ∧
     (s w).job? loadQueue ((1 : BitVec 32).setWidth 17) = some w ∧ w.status = none ∧ w.allDelivered = true ∧
     w.unwrapped.1 = some [1, 2, 3, 4, 5] ∧ ({ w with made := [] } : Job).unwrapped.1 = none ∧ (s w).targetOpen 0 8 = true ∧
     ((s w).recOf 0 8).any (fun r => unwrapFits r [1, 2, 3, 4, 5]) = true ∧
     ({ w with passes := [{ unit := .chive, size := 4096, start := 0, total := 24, first := 0, count := 1, order := .serial, reads := true, writes := false }] } : Job).allDelivered = false) := by
  unfold adminReady
  refine ⟨?_, ?_, ?_, ?_, ⟨_, rfl, ?_⟩, ⟨_, rfl, ?_, ?_, ?_⟩, ⟨_, rfl, ?_⟩, ⟨_, rfl⟩, ?_⟩ <;> decide +kernel

/-! ## The register path -/

def withRp (f : RegPath → RegPath) : State := { svc with dill := { svc.dill with rp := f svc.dill.rp } }
def opened' (r : RegPath) : RegPath := { r with opened := true, owner := mgr, fifo := 31, words := 3 }

theorem witness_RegisterPathRule :
    (svc.unitWrite mgr = true ∧ svc.rpMode = true ∧ svc.dill.rp.opened = false ∧ svc.dill.rp.opening = false) ∧
    (let s := withRp opened'
     s.unitWrite mgr = true ∧ s.rpMode = true ∧ s.dill.rp.opened = true ∧ s.dill.rp.takes = true ∧ s.dill.rp.fifo < 32 ∧ s.dill.rp.owner = mgr ∧
     s.dill.rp.held = [] ∧ (s.setReg 0x58018 8).regSoon 0x58018 % 16 ≤ 8 ∧ 8 < (s.setReg 0x58018 9).regSoon 0x58018 % 16 ∧
     s.dill.rp.words = ceilDiv ((s.setReg 0x58010 17).regN 0x58010) 8 ∧ s.dill.rp.words ≠ ceilDiv ((s.setReg 0x58010 16).regN 0x58010) 8) ∧
    (let s := withRp fun r => { opened' r with fifo := 32, held := [.write mgr 0x58040 8 7] }
     s.dill.rp.takes = true ∧ 32 ≤ s.dill.rp.fifo ∧ s.dill.rp.held ≠ [] ∧ s.unitWrite mgr = true ∧ s.rpMode = true) ∧
    (let s := withRp fun r => { opened' r with held := [.write mgr 0x58040 8 7] }
     s.dill.rp.takes = true ∧ s.dill.rp.fifo < 32 ∧ s.dill.rp.held = [.write mgr 0x58040 8 7]) ∧
    (let s := withRp fun r => { opened' r with finishing := true }
     s.dill.rp.takes = false ∧ s.dill.rp.finishing = true ∧ s.dill.rp.busy = false ∧ s.dill.rp.done = false) ∧
    (svc.dill.rp.held = [] ∧ rpFormOk 0x02 0 false = true ∧ rpFormOk 0x02 3 true = false ∧ svc.sharedOnDie + 1 < svc.sharedCtxRoom) := by
  decide +kernel

/-! ## Modes, resets, start-up -/

def draining (t : BitVec 4) : State := { svc with mode := { svc.mode with mode := .drain, target := t, drainTick := 999, drainedPt := true } }

/-- A state in which a write of message bytes waits at the port. -/
def holding (s : State) : State := s.holdAccess (.write mgr 0x58040 8 7)
def setUp (s : State) : State := s.setReg 0x20008 0x1000

theorem witness_ModeRequests :
    (svc.windowWrite mgr = true ∧ svc.mode.fail = 0 ∧ svc.mode.mode = .service ∧ svc.mode.target = 0 ∧ svc.mode.mode ∈ drainFrom ∧
      svc.dill.rp.held = [] ∧ (holding svc).dill.rp.held ≠ [] ∧ (holding svc).windowWrite mgr = true) ∧
    ((draining 3).mode.fromProv = false ∧ ({ (draining 3) with mode := { (draining 3).mode with fromProv := true } } : State).mode.fromProv = true ∧
      svc.lovage.goAllowed = false ∧ ({ svc.lovage with life := .test } : Lovage).goAllowed = true ∧ (0x10 : BitVec 64).toNat % 16 = 0 ∧
      8 < (0x1F : BitVec 64).toNat % 16) ∧
    (let s := { inMode .deepSleep with regs := assocSet (assocSet svc.regs 0x108 3) 0x110 0xFFFF00000000002A, aon := { svc.aon with aonCount := 2 ^ 48 + 42 } }
     s.mode.mode = .deepSleep ∧ s.aon.aonCount % 2 ^ 48 = s.regN 0x110 % 2 ^ 48) ∧
    (let s := setUp { svc with mode := { svc.mode with mode := .startup, hold := true } }
     s.windowWrite mgr = true ∧ s.mode.target = 0 ∧ s.mode.hold = true ∧ s.setupErr = 0 ∧ (s.setReg 0x20008 1).setupErr ≠ 0) ∧
    ((inMode .quiesce).mode.mode = .quiesce ∧ (draining 3).mode.target = 3 ∧ (draining 3).mode.mode = .drain) ∧
    ((draining 5).atDrainedPoint = true ∧ (draining 6).atDrainedPoint = true ∧ (draining 9).atDrainedPoint = true) ∧
    (let s := { (draining 5).setReg 0x120 16 with mode := { (draining 5).mode with drainTick := 984 } }
     s.drainLimit = true) ∧
    (let s := { inMode .lightSleep with regs := assocSet (assocSet svc.regs 0x108 3) 0x110 1000 }
     s.mode.mode = .lightSleep ∧ bit (s.regN 0x108) 0 = true ∧ bit (s.regN 0x108) 1 = true ∧ s.thyme.tick = s.regN 0x110) := by decide +kernel

theorem witness_ResetsAndSense :
    ((inMode .cold).mode.mode = .cold ∧ svc.mode.mode ≠ .cold ∧ svc.windowWrite mgr = true ∧ svc.aon.alarmNow = false ∧ svc.dill.rp.held = [] ∧
      (holding svc).dill.rp.held ≠ [] ∧ svc.lovage.op = none) ∧
    (({ svc.lovage with op := some { kind := .programming, steps := [⟨20, .a, 1⟩, ⟨20, .b, 1⟩], pulsed := false, halted := false } } : Lovage).op.map (·.steps)) =
      some [⟨20, .a, 1⟩, ⟨20, .b, 1⟩] ∧
    (let s := inMode .startup
     s.windowWrite mgr = true ∧ s.mode.target = 0) ∧
    ((inMode .alarm).windowWrite mgr = true ∧ (inMode .alarm).mode.aborting = false ∧ (draining 3).atDrainedPoint = true) ∧
    (State.reset.mode.mode = .sense ∧ State.reset.mode.timeOn = true ∧ State.reset.mode.steps.s1 = false ∧ State.reset.mode.steps.s2 = false) ∧
    (let sensed (l : Bool) (s3 : Bool) : State := { State.reset with
       mode := { ModeUnit.reset with mainOn := true, steps := ⟨true, true, s3, false, false, false, false, false⟩ },
       aon := { Aon.reset with alarmLatched := l } }
     (sensed true false).mode.steps.s3 = false ∧ (sensed true true).senseToAlarm = true ∧ (sensed false true).senseToAlarm = false) := by decide +kernel

def starting (st : Steps) (l : Option HoldReq) : State :=
  { svc with mode := { svc.mode with mode := .startup, steps := st, hold := true, latched := l } }

theorem witness_StartupRule :
    (let s := starting ⟨true, true, true, true, false, false, false, false⟩ none
     s.mode.mode = .startup ∧ s.mode.fail = 0 ∧ s.mode.steps.s4 = true ∧ s.mode.steps.s5 = false) ∧
    (let s := starting ⟨true, true, true, true, true, true, false, false⟩ none
     s.mode.steps.s5 = true ∧ s.mode.steps.s6 = true ∧ s.mode.steps.s7 = false ∧ failureCode found = 0 ∧
     failureCode { found with cells := [0, 1] } = 1 ∧ failureCode { found with cells := [1], kb := [0, 1] } = 5) ∧
    (let s (r : HoldReq) := starting ⟨true, true, true, true, true, true, true, true⟩ (some r)
     (s .go).startupOver = true ∧ (s .go).lovage.granted = none ∧ (s .go).setupErr ≠ 0 ∧ (s .provision).mustProvision = true ∧
     (setUp { s .go with lovage := { Lovage.reset with life := .test } }).setupErr = 0 ∧
     (setUp { s .go with lovage := { Lovage.reset with life := .test } }).mustProvision = false) ∧
    (let s := setUp { inMode .provisioning with mode := { svc.mode with mode := .provisioning, latched := some .go }, lovage := { Lovage.reset with life := .test } }
     s.mode.latched = some .go ∧ s.setupErr = 0 ∧ s.lovage.goAllowed = true ∧ Lovage.reset.goAllowed = false) ∧
    (let s : State := { draining 3 with mode := { (draining 3).mode with fromProv := true, resume := true } }
     s.mode.mode = .drain ∧ s.mode.fromProv = true ∧ s.mode.resume = true ∧ s.lovage.granted = none) := by decide +kernel

/-! ## Life cycle, debug and tamper -/

def value (v : BitVec 32) : OtpVal := { a := ⟨v, true⟩, b := ⟨v, true⟩ }

/-- OTP with an instance value, and a digest of each kind, in slot 0 (Table 13.6). -/
def provisionable : Lovage :=
  { Lovage.reset with life := .test, vals := (20, value 5) :: (List.range 12).map (fun w => (40 + w, value 1)) ++ (List.range 12).map (fun w => (88 + w, value 1)) }

def lov (m : Mode) (l : Lovage) : State := { inMode m with lovage := l }
def anOp : OtpOp := { kind := .programming, steps := [⟨20, .a, 1⟩], pulsed := false, halted := false }

theorem witness_OtpOperations :
    (svc.unitWrite mgr = true ∧ svc.dill.rp.held = [] ∧ (holding svc).unitWrite mgr = true ∧ (holding svc).dill.rp.held ≠ [] ∧ svc.lovage.op = none ∧ (lov .service { Lovage.reset with op := some anOp }).lovage.op.isSome = true) ∧
    (lifeOf 1 = none ∧ lifeOf (lifeCode .test) = some .test ∧ svc.moveRefusal .provisioned = some 1) ∧
    ((lov .provisioning Lovage.reset).moveRefusal .test = none ∧ (lov .service Lovage.reset).moveRefusal .test = some 2) ∧
    ((lov .provisioning provisionable).moveRefusal .provisioned = none ∧ provisionable.blankSecret = some 0 ∧
      (lov .provisioning { provisionable with vals := [] }).moveRefusal .provisioned = some 6) ∧
    ((lov .authDebug { Lovage.reset with life := .secured, retArmed := true }).moveRefusal .returned = none ∧
      (lov .authDebug { Lovage.reset with life := .secured }).moveRefusal .returned = some 5) ∧
    (let o := { anOp with pulsed := true }
     anOp.steps = ⟨20, .a, 1⟩ :: [] ∧ o.pulsed = true ∧ anOp.pulsed = false ∧ anOp.halted = false) := by decide +kernel

def challenge : Challenge := { bytes := zeros 64, cls := 4, tick := 1000 }

def drbg (b : Bool) : State :=
  { svc with basil := { svc.basil with drbgs := svc.basil.drbgs.set 16 { instantiated := b, requests := 0, refusing := false } } }

theorem witness_DebugRule :
    ((drbg true).unitWrite mgr = true ∧ ((drbg true).basil.drbgs[16]?).any (·.instantiated) = true ∧
      ((drbg false).basil.drbgs[16]?).any (·.instantiated) = false ∧ (1 : Nat) ≤ 4 ∧ ¬(5 : Nat) ≤ 4 ∧ svc.dill.rp.held = [] ∧
      (inMode .alarm).inAlarm = true ∧ (inMode .alarm).unitWrite mgr = true ∧ svc.mode.mode ∈ drainFrom) ∧
    (svc.lovage.life = .blank ∧ (lov .service { Lovage.reset with life := .secured }).lovage.life ≠ .test ∧ svc.inAlarm = false) ∧
    (let s := lov .service { Lovage.reset with chal := some challenge }
     s.lovage.checking = none ∧ s.lovage.chal = some challenge ∧ svc.lovage.chal = none) ∧
    (let s := { lov .service { Lovage.reset with chal := some challenge } with thyme := { svc.thyme with tick := 3750001000 } }
     challenge.tick + 3750000000 ≤ s.thyme.tick) ∧
    (let s := lov .service { Lovage.reset with checking := some challenge, resp := zeros 7571 }
     let s := { s with basil := { s.basil with rom := [(.response, 14)] } }
     s.lovage.checking = some challenge ∧ s.portsRun = true ∧ s.txns = [] ∧ s.verifierRuns .response = true) := by decide +kernel

theorem witness_TamperRule :
    (sourceActive svc.mode.mode 10 = true ∧ sourceActive .deepSleep 2 = true ∧ sourceActive .deepSleep 1 = false) ∧
    (svc.tamperEnabled &&& causeBit 12 10 ≠ 0 ∧ (withR 0x80080 0xBFF).tamperEnabled &&& causeBit 12 10 = 0) ∧
    (let s := { svc with aon := { svc.aon with alarmLatched := true } }
     s.aon.alarmLatched = true ∧ svc.aon.alarmLatched = false) ∧
    (let s : State := { svc with mode := { svc.mode with mode := .alarm, aborting := true } }
     s.mode.aborting = true ∧ s.fennel.jobs = []) ∧
    ((inMode .alarm).windowWrite mgr = true ∧ (inMode .alarm).mode.aborting = false ∧ (inMode .alarm).dill.rp.held = [] ∧
      (holding (inMode .alarm)).windowWrite mgr = true) ∧
    (let s : State := { State.reset with lovage := { Lovage.reset with mono := [(17, ⟨3, 0, 0⟩)] } }
     s.mode.mode = .sense ∧ s.mode.steps.s2 = false ∧ s.lovage.atSense.controlTorn = true ∧ Lovage.reset.atSense.controlTorn = false ∧
     s.tamperEnabled &&& causeBit 12 9 ≠ 0) := by decide +kernel

/-! ## Integrity and registers -/

def halves (a b : Half) : State := { svc with sorrel := { svc.sorrel with halves := [(.fennel, a, b)] } }

theorem witness_FaultRule :
    (svc.mainRuns = true ∧ svc.inAlarm = false ∧ svc.halvesOf .fennel = (.inPair, .inPair)) ∧
    ((halves .left .inPair).halvesOf .fennel = (.left, .inPair) ∧ (halves .inPair .left).halvesOf .fennel = (.inPair, .left)) ∧
    (let j := job q5 .slices 0x10 0 []
     (withJ j).job? 5 (BitVec.ofNat 17 0) = some j ∧ j.status = none) ∧ svc.test? 7 0 true = none ∧
    (let s := { svc with sorrel := { svc.sorrel with scrubSeen := [(1, 2)], spareRows := [(1, 0), (1, 3), (1, 4)] } }
     s.sorrel.scrubSeen.contains (1, 2) = true ∧ (s.sorrel.spareRows.filter fun v => v.1 == 1).length < 4 ∧
     ¬(svc.sorrel.scrubSeen.contains (1, 2)) = true) ∧
    (svc.sorrel.cells[1]? = some true ∧ svc.mode.timeOn = true) ∧
    (svc.elementRuns (.curveEntry 0x40) = true ∧ (inMode .lightSleep).elementRuns .timeKeys = true ∧ (inMode .lightSleep).mainRuns = false ∧
      (true, !svc.sorrel.pllCore) ∉ svc.sorrel.pllBad) := by decide +kernel

theorem witness_RegisterRule :
    (svc.windowWrite mgr = true ∧ svc.windowWrite ten = false ∧ svc.mainRuns = true ∧ svc.unitWrite mgr = true ∧ svc.dill.rp.held = [] ∧
      (holding svc).unitWrite mgr = true ∧ svc.rpMode = true ∧ (inMode .startup).unitWrite mgr = true ∧ svc.mode.mode = .service ∧
      (lov .service { Lovage.reset with dbgClass := 3 }).debugWrites = true) ∧
    (∃ r l, regSpecs.find? (·.addr == 0x20008) = some r ∧ r.size = 8 ∧ r.lock = some l ∧ bit (svc.regSoon l) 31 = false ∧
      svc.rpHolds 0x20008 = false ∧ bit ((withR l 0x80000000).regSoon l) 31 = true) ∧
    ((withRp opened').rpHolds 0x58000 = true ∧ (regSpecs.find? (·.addr == 0x58000)).isSome = true) ∧
    ((1023 : Nat) < 1024 ∧ svc.pagesOpen = true ∧ svc.writeHeld mgr.domain = false ∧ svc.fennel.arrivals.length < 64 ∧ svc.queue? 5 = some q5 ∧
      svc.resetting mgr.domain = false) ∧
    ((511 : Nat) < 512 ∧ svc.eventHold mgr.domain = false ∧ mgr.port ≠ .p1 ∧ svc.resetting mgr.domain = false ∧
      svc.domain? 1 = some d1) ∧
    (svc.register 0x1F0 = none ∧ svc.register 0x1EC = none ∧ svc.windowWrite ten = false ∧ mgr.domain ≠ 1 ∧ ten.domain = 1 ∧ far.domain ≠ 1) := by
  refine ⟨?_, ⟨_, _, rfl, ?_, rfl, ?_, ?_, ?_⟩, ?_, ?_, ?_, ?_⟩ <;> decide +kernel

/-! ## What holds of every command -/

theorem witness_OtpOnlyGrows :
    ((after (exec (.otpCopyDone true true) (lov .service { provisionable with op := some anOp }))).map fun t => ((t.lovage.val' 20).a.bits, (t.lovage.val' 20).b.bits)) =
      some (5, 5) := by decide +kernel

theorem witness_AlarmLatchStays :
    let s := { svc with aon := { svc.aon with alarmLatched := true } }
    (after (exec (.tamperSourceFire 10) s)).isSome = true ∧ s.aon.alarmLatched = true ∧ Instr.tamperSourceFire 10 ≠ .powerOnReset ∧
    Instr.tamperSourceFire 10 ≠ .pdAonSupplyLoss := by decide +kernel

theorem witness_TimeMovesOnlyBy :
    ((after (exec .p2Credit svc)).map fun t => (t.thyme.tick, t.sage.now)) = some (1000, 1000 * tickUnit) ∧ Instr.p2Credit ≠ .stepApplied ∧
    Instr.p2Credit ≠ .deviceReset ∧ Instr.p2Credit ≠ .powerOnReset ∧ Instr.p2Credit ≠ .pdAonSupplyLoss ∧ Instr.p2Credit ≠ .drainedPoint ∧
    (-adjLimit ≤ svc.sage.adj ∧ svc.sage.adj ≤ adjLimit ∧ svc.sage.adjNext = none) := by decide +kernel

theorem witness_BorrowingCreditSaturates :
    let s := { svc with thyme := { svc.thyme with chiveCredit := [(0, 8388607), (1, -8388608)], compiled := [(0, settings.plan), (1, settings.plan)] } }
    (∀ x ∈ s.credits .chive, -8388608 ≤ x.2 ∧ x.2 ≤ 8388607) ∧ (∀ x ∈ s.credits .dill, -8388608 ≤ x.2 ∧ x.2 ≤ 8388607) ∧
    (after (exec .p2Credit s)).isSome = true ∧ s.borrowers.map (·.1) = [0, 1] ∧ assocD ((s.payCredit .chive 1).credits .chive) 1 0 = -8388608 := by
  decide +kernel

theorem witness_MailboxAreasCanonical :
    let s := { (withD 1 fun x => { x with mailbox := { x.mailbox with area := [(3, 7), (9, 1)] } }) with pending := [.mailboxAreaWrite ten 1 3 [0, 5]] }
    (∀ x ∈ s.domains, Memory.wf x.mailbox.area = true) ∧ s.admin.changes = [] ∧
    ((after (step s)).map fun t => t.domains.map (·.mailbox.area)) = some [[], [(4, 5), (9, 1)]] := by decide +kernel

/-! ## Values that the spec writes out -/

/-- Reset columns: an unlocked register cell of Table 16.8, and OTP blank with no alarm (R439). -/
theorem test_reset_cells : State.reset.reg 0x40000 = 0 ∧ State.reset.reg 0x4000C = 0x1000 ∧ State.reset.reg 0x80080 = 0xFFF := by decide +kernel

/-- A tick is 160 ns in units of 2^-40 ns (R30). -/
theorem test_tick_unit : tickUnit = 160 * 2 ^ 40 := by decide

/-- FIPS 197, appendix C.1: the example of AES-128. -/
theorem test_aes128 :
    aesEnc ((List.range 16).map (BitVec.ofNat 8)) [0x00, 0x11, 0x22, 0x33, 0x44, 0x55, 0x66, 0x77, 0x88, 0x99, 0xAA, 0xBB, 0xCC, 0xDD, 0xEE, 0xFF] =
      [0x69, 0xC4, 0xE0, 0xD8, 0x6A, 0x7B, 0x04, 0x30, 0xD8, 0xCD, 0xB7, 0x80, 0x70, 0xB4, 0xC5, 0x5A] := by decide +kernel

/-- FIPS 180-4: the digest of "abc". -/
theorem test_sha256_abc : beNat (digest 0x02 0 [0x61, 0x62, 0x63]) = 0xBA7816BF8F01CFEA414140DE5DAE2223B00361A396177A9CB410FF61F20015AD := by
  decide +kernel

/-- FIPS 203: a coefficient nearer to q/2 than to 0 is the bit 1. -/
theorem test_kem_compress : compress 1 832 = 0 ∧ compress 1 833 = 1 ∧ decompress 1 1 = 1665 := by decide

/-- FIPS 204, Decompose: the top of the range wraps to the low part -1. -/
theorem test_dsa_decompose_wraps : decompose 95232 8380416 = (0, -1) ∧ decompose 95232 95233 = (1, -95231) := by decide

/-- FIPS 204, HintBitUnpack: positions that do not rise are refused. -/
theorem test_dsa_hint_must_rise :
    unpackHint (dsaParams 0x31) ([5, 5] ++ zeros 78 ++ [2, 2, 2, 2]) = none ∧
    (unpackHint (dsaParams 0x31) ([5, 6] ++ zeros 78 ++ [2, 2, 2, 2])).isSome = true := by decide +kernel

end Sys2Proof.Tests
end

section
/-! PROOF. Registers and reads (R12 to R14, R87, R322, R463, R474 to R482): the tables of registers, who reaches a window, what a write of a setup register does, what a read returns, and the statement RegisterRule. -/

namespace Sys2Proof.Machine

/-! ## The setup registers -/

/-- A setup register has 4 or 8 bytes and is aligned to them. -/
theorem regSpecs_aligned : ∀ r ∈ regSpecs, (r.size = 4 ∧ r.addr % 4 = 0) ∨ (r.size = 8 ∧ r.addr % 8 = 0) := by decide +kernel

/-- The words of the register path's FIFO are no setup registers (Table 7.3). -/
theorem regSpecs_addr_ne_fifo : ∀ r ∈ regSpecs, r.addr ≠ 0x58040 ∧ r.addr ≠ 0x58048 := by decide +kernel

section
variable {a : Nat} {r : RegSpec} (h : regSpecs.find? (·.addr == a) = some r)
include h

theorem regSpec_addr : r.addr = a := by simpa using List.find?_some h

theorem regSpec_aligned : (r.size = 4 ∧ a % 4 = 0) ∨ (r.size = 8 ∧ a % 8 = 0) :=
  regSpec_addr h ▸ regSpecs_aligned r (List.mem_of_find?_eq_some h)

/-- Flow control holds no write of a setup register (R240). -/
theorem State.rpFull_of_regSpec (s : State) : s.rpFull a = false := by
  have hne := regSpecs_addr_ne_fifo r (List.mem_of_find?_eq_some h)
  rw [regSpec_addr h] at hne
  simp [State.rpFull, hne]

/-- Where a setup register stands, a read finds it. -/
theorem State.register_of_regSpec (s : State) : s.register a = some (r.size, s.setupRead r) := by
  simp [State.register, h]

end

/-! ## Who reaches a window -/

theorem exec_registerWrite (src : From) (viaDebug : Bool) (a size : Nat) (v : BitVec 64) (s : State) :
    exec (.registerWrite src viaDebug a size v) s = execRegisterWrite src viaDebug a size v s := rfl

theorem exec_rcCounterRead (src : From) (c : RcCounter) (s : State) : exec (.rcCounterRead src c) s = execRcCounterRead src c s := rfl

section
variable {s : State} {src : From}

theorem State.windowWrite_iff : s.windowWrite src = true ↔
    src.port = .p3 ∧ src.domain = 0 ∧ s.windowUp = true ∧ s.lovage.life ≠ .scrapped := by
  simp [State.windowWrite, and_assoc]

theorem State.mainRuns_of_windowWrite (h : s.windowWrite src = true) : s.mainRuns = true := by
  obtain ⟨-, -, hup, -⟩ := State.windowWrite_iff.1 h
  simp only [State.windowUp, Bool.and_eq_true] at hup
  exact hup.1

theorem State.takesWrite_of_unitWrite (h : s.unitWrite src = true) (a : Nat) (v : BitVec 64) : s.takesWrite src a v = true := by
  obtain ⟨hw, hf⟩ : s.windowWrite src = true ∧ s.mode.fail = 0 := by simpa [State.unitWrite] using h
  simp [State.takesWrite, hw, hf]

/-- An access with none before it is served at once (R240, R477). -/
theorem State.inTurn_of_free (h : s.dill.rp.held = []) (w : PortAccess) (f : State → State) : s.inTurn w f = f s := by
  simp [State.inTurn, h]

/-- An access behind others waits (R240, R477). -/
theorem State.inTurn_of_held (h : s.dill.rp.held ≠ []) (w : PortAccess) (f : State → State) : s.inTurn w f = s.holdAccess w := by
  simp [State.inTurn, h]

/-- A P3 write to a unit window that is accepted comes in its turn. -/
theorem exec_registerWrite_window (h : s.unitWrite src = true) {a : Nat} (ha : a < 0x200000) (size : Nat) (v : BitVec 64) :
    exec (.registerWrite src false a size v) s = .next (s.inTurn (.write src a size v) fun s =>
      if s.rpFull a then s.holdAccess (.write src a size v) else s.windowRegister src false a size v) := by
  simp [exec_registerWrite, execRegisterWrite, guarded, done, ha, State.takesWrite_of_unitWrite h]

/-- With no access before it, and room in the FIFO, the write takes effect. -/
theorem exec_registerWrite_served (h : s.unitWrite src = true) (hf : s.dill.rp.held = []) {a : Nat} (ha : a < 0x200000)
    (hr : s.rpFull a = false) (size : Nat) (v : BitVec 64) :
    exec (.registerWrite src false a size v) s = .next (s.windowRegister src false a size v) := by
  simp [exec_registerWrite_window h ha, State.inTurn_of_free hf, hr]

/-- A read by domain 0 on P3 is one of the window. -/
theorem State.readAccess_window (h : s.windowWrite src = true) {a : Nat} (ha : a < 0x200000) (size : Nat) :
    s.readAccess src a size = s.windowRead a size := by
  obtain ⟨hp, hd, hup, hl⟩ := State.windowWrite_iff.1 h
  simp [State.readAccess, ha, hp, hd, hup, hl]

/-- To any other a window reads zero, but LC_STATUS (R398, R463, R475). -/
theorem State.readAccess_refused (h : s.windowWrite src = false) {a : Nat} (ha : a < 0x200000) (hs : a ≠ 0x80000) (size : Nat) :
    s.readAccess src a size = 0 := by
  have hne : ¬(s.windowWrite src = true) := by simp [h]
  rw [State.windowWrite_iff] at hne
  simp only [State.readAccess, if_pos ha, Bool.and_eq_true, Bool.or_eq_true, beq_iff_eq, bne_iff_ne, hs, or_false, and_assoc]
  exact if_neg hne

end

/-! ## Writes of setup registers -/

/-- P3 may not change the setup register r at a: its lock is set or is to be set (R14), or a session of the register path is open (Table 7.3). -/
def State.setupLocked (s : State) (r : RegSpec) (a : Nat) : Prop :=
  (∃ l, r.lock = some l ∧ bit (s.regSoon l) 31 = true) ∨ s.rpHolds a = true

/-- The register path's registers take no write in this mode (R238). -/
abbrev State.rpAway (s : State) (a : Nat) : Prop := 0x58000 ≤ a ∧ a < 0x58100 ∧ s.rpMode = false

theorem State.not_setupLocked_iff {s : State} {r : RegSpec} {a : Nat} :
    ¬s.setupLocked r a ↔ (∀ l, r.lock = some l → bit (s.regSoon l) 31 = false) ∧ s.rpHolds a = false := by
  simp [State.setupLocked, not_or]

theorem State.not_rpAway_iff {s : State} {a : Nat} : ¬s.rpAway a ↔ (inRp a = true → s.rpMode = true) := by
  simp [State.rpAway, inRp]

section
variable (s : State) (r : RegSpec) (v : Nat)

/-- The lock of a register is clear when no lock register of it has bit 31. -/
theorem State.lockBit_clear {s : State} {r : RegSpec} (h : ∀ l, r.lock = some l → bit (s.regSoon l) 31 = false) :
    (r.lock.any fun l => bit (s.regSoon l) 31) = false := by
  simpa [Option.any_eq_false] using h

/-- A lock or an open session of the register path keeps a register from changing (R14, Table 7.3). -/
theorem State.writeSetup_locked (h : s.setupLocked r r.addr) : s.writeSetup r false v = s := by
  have hc : ((r.lock.any fun l => bit (s.regSoon l) 31) && !false || s.rpHolds r.addr) = true := by
    simpa [State.setupLocked, Option.any_eq_true] using h
  simp only [State.writeSetup, hc, if_true]

/-- An unlocked register takes its writable bits at the next boundary, and keeps a lock bit that is set; the debug port writes it whatever the lock (R477, R482). -/
theorem State.writeSetup_takes (debug : Bool) (hl : debug = false → ∀ l, r.lock = some l → bit (s.regSoon l) 31 = false)
    (hh : s.rpHolds r.addr = false) (ho : debug = false → r.lock.isSome = true → s.setupOver = false) :
    s.writeSetup r debug v = s.addChange (.setup r.addr (BitVec.ofNat 64
      ((v &&& r.mask) ||| if r.lock = some r.addr then s.regSoon r.addr &&& 0x80000000 else 0))) := by
  cases debug with
  | true => simp [State.writeSetup, hh]
  | false =>
    have hover : (r.lock.isSome && s.setupOver) = false := by
      simpa using ho rfl
    simp [State.writeSetup, hh, State.lockBit_clear (hl rfl), hover]

/-- In Service a P3 write of an unlocked RWL register sets its lock, and no more (R488). -/
theorem State.writeSetup_service (hl : ¬s.setupLocked r r.addr) (hr : r.lock.isSome = true) (ho : s.setupOver = true) :
    s.writeSetup r false v = if r.lock = some r.addr ∧ bit v 31 = true
      then s.addChange (.setup r.addr (BitVec.ofNat 64 (s.regSoon r.addr ||| 0x80000000))) else s := by
  obtain ⟨hbit, hh⟩ := State.not_setupLocked_iff.1 hl
  simp [State.writeSetup, hh, State.lockBit_clear hbit, hr, ho]

/-- Service and Degraded are where setup is over. -/
theorem State.setupOver_iff : s.setupOver = true ↔ s.mode.mode = .service ∨ s.mode.mode = .degraded := by
  simp [State.setupOver]

/-- The register path takes writes in Service and Degraded (R238). -/
theorem State.rpMode_of_setupOver (h : s.setupOver = true) : s.rpMode = true := by
  rcases s.setupOver_iff.1 h with h | h <;> simp [State.rpMode, h]

variable {s r}

/-- A P3 write of a setup register: of its own width, and for the register path in the modes of R238. -/
theorem State.windowRegister_setup (src : From) {a : Nat} (h : regSpecs.find? (·.addr == a) = some r) (size : Nat) (v : BitVec 64) :
    s.windowRegister src false a size v =
      if size = r.size ∧ ¬s.rpAway a then s.writeSetup r false v.toNat else s := by
  simp only [State.not_rpAway_iff, State.windowRegister, State.writeRp, h, beq_iff_eq, Bool.false_eq_true, if_false, @eq_comm _ r.size]
  by_cases hi : inRp a = true <;> by_cases hm : s.rpMode = true <;> simp [hi, hm]

/-- The debug port's write of a setup register outside the register path. -/
theorem State.windowRegister_debug (src : From) {a : Nat} (h : regSpecs.find? (·.addr == a) = some r) (hi : inRp a = false) (v : BitVec 64) :
    s.windowRegister src true a r.size v = s.writeSetup r true v.toNat := by
  simp [State.windowRegister, h, hi]

/-- A write to an address of no setup register is a command or clears bits. -/
theorem State.windowRegister_command (src : From) {a : Nat} (h : regSpecs.find? (·.addr == a) = none) (hi : inRp a = false) (v : BitVec 64) :
    s.windowRegister src false a 4 v = s.writeCommand false a v := by
  simp [State.windowRegister, h, hi]

end

/-! ## What a word reads -/

section
variable (s : State) {a : Nat}

/-- Bits that are RW1C or that reading clears are returned as they are (Table 0.4). -/
theorem State.status_of_live (h : liveBits a = 2 ^ 64 - 1) {v : Nat} (hv : v < 2 ^ 64) : s.status a v = v := by
  simp only [State.status, h, Nat.sub_self, Nat.and_zero, Nat.zero_or, Nat.and_two_pow_sub_one_eq_mod]
  exact Nat.mod_eq_of_lt hv

/-- RO fields are returned as they stood at the start of the tick (R478). -/
theorem State.status_of_latched (h : liveBits a = 0) (v : Nat) :
    BitVec.ofNat 64 (s.status a v) = BitVec.ofNat 64 (assocD s.shown a v) := by
  apply BitVec.eq_of_toNat_eq
  simp only [State.status, h, Nat.sub_zero, Nat.and_zero, Nat.or_zero, Nat.and_two_pow_sub_one_eq_mod, BitVec.toNat_ofNat, Nat.mod_mod]

variable {s}

/-- A register of 4 bytes reads its value. -/
theorem State.windowRead_word {v : Nat} (ha : a % 4 = 0) (h : s.register a = some (4, v)) : s.windowRead a 4 = BitVec.ofNat 64 v := by
  simp [State.windowRead, ha, h]

/-- A register of 8 bytes reads its value. -/
theorem State.windowRead_double {v : Nat} (ha : a % 8 = 0) (h : s.register a = some (8, v)) : s.windowRead a 8 = BitVec.ofNat 64 v := by
  simp [State.windowRead, ha, h]

/-- A word that is neither a register nor the half of one is reserved, and reads zero (R474). -/
theorem State.windowRead_reserved (ha : a % 4 = 0) (h : s.register a = none) (hb : s.register (a - 4) = none) : s.windowRead a 4 = 0 := by
  simp [State.windowRead, ha, h, hb]

/-- A read of a setup register in its width. -/
theorem State.windowRead_setup {r : RegSpec} (h : regSpecs.find? (·.addr == a) = some r) :
    s.windowRead a r.size = BitVec.ofNat 64 (s.setupRead r) := by
  have hreg := s.register_of_regSpec h
  obtain ⟨hs, ha⟩ | ⟨hs, ha⟩ := regSpec_aligned h
  · rw [hs] at hreg ⊢
    exact State.windowRead_word ha hreg
  · rw [hs] at hreg ⊢
    exact State.windowRead_double ha hreg

/-- A setup register reads as R13 says; LC_PROG_DATA is write-only (Table 13.7). -/
theorem State.setupRead_eq (r : RegSpec) : s.setupRead r = if 0x80040 ≤ r.addr ∧ r.addr < 0x80070 then 0
    else (if r.lock.isSome = true then s.regN r.addr else s.regSoon r.addr) &&& r.mask := by
  simp [State.setupRead, writeOnly]

/-- A status register reads its status word. -/
theorem State.register_of_statusReg {r : Nat × Nat × Nat} (h : regSpecs.find? (·.addr == a) = none)
    (hs : s.statusRegs.find? (·.1 == a) = some r) : s.register a = some (r.2.1, s.status a r.2.2) := by
  simp [State.register, h, hs]

/-- A status register of 4 bytes whose bits are all live reads its value. -/
theorem State.windowRead_live {w : Nat} {b : BitVec w} (hw : w ≤ 64) (ha : a % 4 = 0) (hl : liveBits a = 2 ^ 64 - 1)
    (h : regSpecs.find? (·.addr == a) = none) (hs : s.statusRegs.find? (·.1 == a) = some (a, 4, b.toNat)) :
    s.windowRead a 4 = b.setWidth 64 := by
  have hb : b.toNat < 2 ^ 64 := Nat.lt_of_lt_of_le b.isLt (Nat.pow_le_pow_right (by decide) hw)
  rw [State.windowRead_word ha (State.register_of_statusReg h hs), s.status_of_live hl hb, BitVec.ofNat_toNat]

/-- TH_TICK reads the tick number at the start of the tick (R478, Table 16.5). -/
theorem State.windowRead_tick : s.windowRead 0x10000 8 = BitVec.ofNat 64 (assocD s.shown 0x10000 s.thyme.tick) := by
  have hs : s.statusRegs.find? (·.1 == 0x10000) = some (0x10000, 8, s.thyme.tick) := rfl
  rw [State.windowRead_double rfl (State.register_of_statusReg rfl hs)]
  exact s.status_of_latched rfl _

/-- GL_RESET_CAUSE reads as it is (Table 14.2). -/
theorem State.windowRead_resetCause : s.windowRead 0x11C 4 = s.aon.resetCause.setWidth 64 :=
  State.windowRead_live (by decide) rfl rfl rfl rfl

/-- LC_TAMPER_HIT reads as it is (Table 13.7). -/
theorem State.windowRead_hit : s.windowRead 0x80084 4 = s.lovage.hit.setWidth 64 :=
  State.windowRead_live (by decide) rfl rfl rfl rfl

/-- An RC counter reads its count (Table 16.12). -/
theorem State.windowRead_counter (c : RcCounter) : s.windowRead (counterAddr c) 4 = (s.sorrel.counter c).setWidth 64 := by
  cases c <;> exact State.windowRead_live (by decide) rfl rfl rfl rfl

/-- The status words of a boundary hold its tick number. -/
theorem State.latchStatus_tick (d : Nat) : assocD s.latchStatus.shown 0x10000 d = s.thyme.tick := by
  have hr : (s.statusRegs.map fun r => (r.1, r.2.2)).lookup 0x10000 = some s.thyme.tick := rfl
  simp only [assocD, State.latchStatus, State.statusWords, List.append_assoc, List.lookup_append, hr, Option.some_or, Option.getD_some]

end

/-! ## Counters that reading clears -/

theorem counterAddr_lt (c : RcCounter) : counterAddr c < 0x200000 := by cases c <;> decide

theorem counterAddr_ne_status (c : RcCounter) : counterAddr c ≠ 0x80000 := by cases c <;> decide

theorem State.clearCounter_same (s : State) (c : RcCounter) : (s.clearCounter c).sorrel.counter c = 0 := by cases c <;> rfl

theorem State.clearCounter_other (s : State) {c d : RcCounter} (h : d ≠ c) :
    (s.clearCounter c).sorrel.counter d = s.sorrel.counter d := by
  cases c <;> cases d <;> simp [State.clearCounter, Sorrel.counter] at h ⊢

section
variable {s : State} {src : From} (c : RcCounter)

/-- A read by domain 0 on P3 answers the count, and clears it. -/
theorem State.readCounter_window (h : s.windowWrite src = true) :
    s.readCounter src c = (s.emit (.readData ((s.sorrel.counter c).setWidth 64))).clearCounter c := by
  simp only [State.readCounter, State.readAccess_window h (counterAddr_lt c), State.windowRead_counter, h, if_true]

/-- Any other read answers zero, and clears nothing. -/
theorem State.readCounter_refused (h : s.windowWrite src = false) : s.readCounter src c = s.emit (.readData 0) := by
  simp only [State.readCounter, State.readAccess_refused h (counterAddr_lt c) (counterAddr_ne_status c), h, Bool.false_eq_true, if_false]

theorem exec_rcCounterRead_window (h : s.windowWrite src = true) :
    exec (.rcCounterRead src c) s = .next (s.inTurn (.count src c) fun s => s.readCounter src c) := by
  simp [exec_rcCounterRead, execRcCounterRead, guarded, done, State.mainRuns_of_windowWrite h, h]

theorem exec_rcCounterRead_refused (h : s.windowWrite src = false) (hm : s.mainRuns = true) :
    exec (.rcCounterRead src c) s = .next (s.emit (.readData 0)) := by
  simp [exec_rcCounterRead, execRcCounterRead, guarded, done, hm, h, State.readCounter_refused c h]

end

/-! ## Queue and mailbox pages -/

/-- An address of a queue page lies past the mailbox pages, and gives its queue and offset (Table 16.1). -/
theorem queuePage_split (q : Nat) {off : Nat} (ho : off < 4096) :
    ¬0x400000 + 4096 * q + off < 0x200000 ∧ ¬0x400000 + 4096 * q + off < 0x400000 ∧
      (0x400000 + 4096 * q + off - 0x400000) / 4096 = q ∧ (0x400000 + 4096 * q + off) % 4096 = off := by
  omega

/-- An address of a mailbox page lies between the unit windows and the queue pages, and gives its page and offset (Table 16.1). -/
theorem mailboxPage_split {page off : Nat} (hpg : page < 512) (ho : off < 4096) :
    ¬0x200000 + 4096 * page + off < 0x200000 ∧ 0x200000 + 4096 * page + off < 0x400000 ∧
      (0x200000 + 4096 * page + off - 0x200000) / 4096 = page ∧ (0x200000 + 4096 * page + off) % 4096 = off := by
  omega

section
variable {s : State} {src : From}

/-- A write of a queue page that has no command of its own. -/
theorem exec_registerWrite_queuePage {q off size : Nat} {v : BitVec 64} (ho : off < 4096) (hr : ownQueueRow off = false) (hp : s.pagesOpen = true)
    (hh : s.writeHeld src.domain = false) (hn : s.fennel.arrivals.length < 64) :
    exec (.registerWrite src false (0x400000 + 4096 * q + off) size v) s =
      .next (s.queueAccess src q (clearQueueBits src off size v)).flow := by
  obtain ⟨h1, h2, e1, e2⟩ := queuePage_split q ho
  simp only [exec_registerWrite, execRegisterWrite, State.pageWrite, guarded, done, h1, h2, e1, e2, hr, hp, hh, hn, if_false, if_true,
    Bool.false_eq_true, Bool.not_false, Bool.and_self, decide_true]

@[simp] theorem State.foreignWrite_still (q : Nat) : (s.foreignWrite src q).still = s.still := State.event_still ..

@[simp] theorem State.mailboxAccess_still (page off : Nat) : (s.mailboxAccess src page off).still = s.still := by
  unfold State.mailboxAccess
  split
  · rfl
  · exact State.event_still ..

/-- A write of a mailbox page that has no command of its own. -/
theorem exec_registerWrite_mailboxPage {page off size : Nat} {v : BitVec 64} (hpg : page < 512) (ho : off < 4096) (hp : s.pagesOpen = true)
    (hh : s.eventHold src.domain = false) :
    exec (.registerWrite src false (0x200000 + 4096 * page + off) size v) s = .next (s.pageRegister src page off size v).flow := by
  obtain ⟨h1, h2, e1, e2⟩ := mailboxPage_split hpg ho
  simp only [exec_registerWrite, execRegisterWrite, State.mailboxWrite, guarded, done, h1, h2, e1, e2, hp, hh, if_false, if_true,
    Bool.false_eq_true, Bool.not_false, Bool.true_or, Bool.and_self]

/-- A field is written by the domain that R322 names. -/
theorem State.mailboxField_own {page off : Nat} {side : Side} {f : Domain → State → State} {x : Domain} (hr : s.resetting src.domain = false)
    (hx : s.domain? page = some x) (hp : page ≠ 0) (h1 : src.port ≠ .p1) (hd : src.domain = side.domain page) :
    s.mailboxField src page off side f = f x s := by
  simp [State.mailboxField, hr, hx, Option.filter, hp, h1, ← hd]

/-- Any other domain's write of a field is an access event. -/
theorem State.mailboxField_foreign {page off : Nat} {side : Side} {f : Domain → State → State} (hr : s.resetting src.domain = false)
    (hd : src.domain ≠ side.domain page) : s.mailboxField src page off side f = s.mailboxAccess src page off := by
  have hnone : ((s.domain? page).filter fun _ => page != 0 && src.port != .p1 && src.domain == side.domain page) = none := by
    simp [Option.filter_eq_none_iff, hd]
  simp [State.mailboxField, hr, hnone]

theorem State.readAccess_mailboxPage {page off : Nat} (size : Nat) (hpg : page < 512) (ho : off < 4096) :
    s.readAccess src (0x200000 + 4096 * page + off) size = s.mailboxRead src page off size := by
  obtain ⟨h1, h2, e1, e2⟩ := mailboxPage_split hpg ho
  simp only [State.readAccess, h1, h2, e1, e2, if_false, if_true]

theorem State.readAccess_queuePage {q off : Nat} (size : Nat) (ho : off < 4096) :
    s.readAccess src (0x400000 + 4096 * q + off) size = s.queueRead src q off := by
  obtain ⟨h1, h2, e1, e2⟩ := queuePage_split q ho
  simp only [State.readAccess, h1, h2, e1, e2, if_false]

end

/-! ## The clauses of the rule -/

section
variable {s : State} {src : From}

section
variable (h : s.unitWrite src = true) (hf : s.dill.rp.held = []) {a size : Nat} {r : RegSpec} (ha : a < 0x200000)
  (hr : regSpecs.find? (·.addr == a) = some r) (v : BitVec 64)
include h hf ha hr

/-- A P3 write of a setup register with no access before it. -/
theorem exec_registerWrite_setup : exec (.registerWrite src false a size v) s =
    .next (if size = r.size ∧ ¬s.rpAway a then s.writeSetup r false v.toNat else s) := by
  rw [exec_registerWrite_served h hf ha (State.rpFull_of_regSpec hr s), State.windowRegister_setup src hr]

/-- A write of another width, of a locked register, or outside the modes of R238 is ignored. -/
theorem exec_registerWrite_ignored (hno : size ≠ r.size ∨ s.setupLocked r a ∨ s.rpAway a) :
    exec (.registerWrite src false a size v) s = .next s := by
  rw [exec_registerWrite_setup h hf ha hr]
  split
  · rename_i hyes
    have hlocked : s.setupLocked r a := (hno.resolve_left fun hne => hne hyes.1).resolve_right hyes.2
    rw [State.writeSetup_locked s r _ ((regSpec_addr hr).symm ▸ hlocked)]
  · rfl

/-- Before Service an unlocked register, and in every mode one of RW fields, takes the write (R477). -/
theorem exec_registerWrite_takes (hs : size = r.size) (hl : ¬s.setupLocked r a) (hw : ¬s.rpAway a)
    (ho : ¬(r.lock.isSome = true ∧ (s.mode.mode = .service ∨ s.mode.mode = .degraded))) :
    exec (.registerWrite src false a size v) s = .next (s.addChange (.setup r.addr (BitVec.ofNat 64
      ((v.toNat &&& r.mask) ||| if r.lock = some r.addr then s.regSoon r.addr &&& 0x80000000 else 0)))) := by
  have hover : r.lock.isSome = true → s.setupOver = false := fun hsome =>
    Bool.eq_false_iff.2 fun hm => ho ⟨hsome, s.setupOver_iff.1 hm⟩
  rw [← regSpec_addr hr] at hl
  obtain ⟨hbit, hholds⟩ := State.not_setupLocked_iff.1 hl
  rw [exec_registerWrite_setup h hf ha hr, if_pos ⟨hs, hw⟩, State.writeSetup_takes s r _ false (fun _ => hbit) hholds (fun _ => hover)]

/-- In Service the write of an unlocked RWL register sets its lock, and no more (R488). -/
theorem exec_registerWrite_service (hs : size = r.size) (hl : ¬s.setupLocked r a)
    (ho : r.lock.isSome = true ∧ (s.mode.mode = .service ∨ s.mode.mode = .degraded)) :
    exec (.registerWrite src false a size v) s = .next (if r.lock = some r.addr ∧ bit v.toNat 31 = true
      then s.addChange (.setup r.addr (BitVec.ofNat 64 (s.regSoon r.addr ||| 0x80000000))) else s) := by
  have hover := s.setupOver_iff.2 ho.2
  rw [← regSpec_addr hr] at hl
  rw [exec_registerWrite_setup h hf ha hr, if_pos ⟨hs, State.not_rpAway_iff.2 fun _ => s.rpMode_of_setupOver hover⟩,
    State.writeSetup_service s r _ hl ho.1 hover]

end

/-- A P3 write of a register that is no setup register, with no access before it. -/
theorem exec_registerWrite_command (h : s.unitWrite src = true) (hf : s.dill.rp.held = []) {a : Nat} (ha : a < 0x200000)
    (hr : regSpecs.find? (·.addr == a) = none) (hi : inRp a = false) (v : BitVec 64) :
    exec (.registerWrite src false a 4 v) s = .next (s.writeCommand false a v) := by
  have hfull : s.rpFull a = false := by
    simp only [inRp, Bool.and_eq_false_iff, decide_eq_false_iff_not] at hi
    have h1 : a ≠ 0x58040 := by omega
    have h2 : a ≠ 0x58048 := by omega
    simp [State.rpFull, h1, h2]
  rw [exec_registerWrite_served h hf ha hfull, State.windowRegister_command src hr hi]

/-- The debug port's write of a setup register outside the register path takes effect whatever the lock (R482). -/
theorem exec_registerWrite_debug (h : s.debugWrites = true) {a : Nat} {r : RegSpec} (hi : a < 0x58000 ∨ 0x58100 ≤ a) (ha : a < 0x200000)
    (hr : regSpecs.find? (·.addr == a) = some r) (v : BitVec 64) :
    exec (.registerWrite src true a r.size v) s = .next (s.addChange (.setup r.addr (BitVec.ofNat 64
      ((v.toNat &&& r.mask) ||| if r.lock = some r.addr then s.regSoon r.addr &&& 0x80000000 else 0)))) := by
  have hin : inRp a = false := by
    simp only [inRp, Bool.and_eq_false_iff, decide_eq_false_iff_not]
    omega
  have h1 : a ≠ 0x58000 := by omega
  have h2 : a ≠ 0x58004 := by omega
  have hh : s.rpHolds r.addr = false := by simp [State.rpHolds, regSpec_addr hr, h1, h2]
  have hx : exec (.registerWrite src true a r.size v) s = .next (s.windowRegister src true a r.size v) := by
    simp [exec_registerWrite, execRegisterWrite, guarded, done, ha, h]
  rw [hx, State.windowRegister_debug src hr hin, State.writeSetup_takes s r v.toNat true (by simp) hh (by simp)]

/-- A queue's own domain clears the error bits of its status (Table 3.5). -/
theorem clearQueueBits_own {q : Nat} {x : Queue} (v : BitVec 64) (hq : s.queue? q = some x) (hr : s.resetting src.domain = false)
    (hp : src.port ≠ .p1) (hd : src.domain = x.domain) :
    s.queueAccess src q (clearQueueBits src 0x108 4 v) = s.setQueue q fun y => { y with
      dbError := y.dbError && !v.getLsbD 27, pushDiscard := y.pushDiscard && !v.getLsbD 26 } := by
  simp [State.queueAccess, hr, hq, Option.filter, ← hd, clearQueueBits, hp, State.queue?_num s hq]

/-- From P1 or from another domain a write of the status is reported, and changes nothing (R87, R463). -/
theorem clearQueueBits_foreign {q : Nat} {x : Queue} (off size : Nat) (v : BitVec 64) (hq : s.queue? q = some x)
    (h : src.port = .p1 ∨ src.domain ≠ x.domain) : (s.queueAccess src q (clearQueueBits src off size v)).still = s.still := by
  unfold State.queueAccess
  split
  · rfl
  · by_cases hd : x.domain = src.domain
    · have hp : src.port = .p1 := h.resolve_right fun hne => hne hd.symm
      simp [hq, Option.filter, hd, clearQueueBits, hp]
    · simp [hq, Option.filter, hd]

section
variable {page : Nat} {x : Domain} (v : BitVec 64) (hr : s.resetting src.domain = false) (hx : s.domain? page = some x) (hp : page ≠ 0)
  (h1 : src.port ≠ .p1)
include hr hx hp h1

/-- The manager writes DL_HEAD (Table 10.3). -/
theorem State.pageRegister_head (hd : src.domain = 0) :
    s.pageRegister src page 0x820 4 v = s.setDomain page fun x => { x with mig := { x.mig with head := v.setWidth 32 } } := by
  have hf (f : Domain → State → State) := State.mailboxField_own (off := 0x820) (side := .manager) (f := f) hr hx hp h1 hd
  simp [State.pageRegister, hf]

/-- The manager clears its own error bit of MB_STATUS (Table 10.3). -/
theorem State.pageRegister_m2tErr (hd : src.domain = 0) : (s.pageRegister src page 0x810 4 v).still = (s.setDomain page fun x =>
    { x with mailbox := { x.mailbox with m2tErr := x.mailbox.m2tErr && !v.getLsbD 25 } }).still := by
  have hf (f : Domain → State → State) := State.mailboxField_own (off := 0x810) (side := .manager) (f := f) hr hx hp h1 hd
  simp only [State.pageRegister, hd, hf, beq_self_eq_true, bne_self_eq_false, if_true, Bool.false_eq_true, if_false]
  split
  · exact State.mailboxAccess_still ..
  · rfl

/-- The page's domain clears its own error bit of MB_STATUS (Table 10.3). -/
theorem State.pageRegister_t2mErr (hd : src.domain = page) : (s.pageRegister src page 0x810 4 v).still = (s.setDomain page fun x =>
    { x with mailbox := { x.mailbox with t2mErr := x.mailbox.t2mErr && !v.getLsbD 26 } }).still := by
  have hf (f : Domain → State → State) := State.mailboxField_own (off := 0x810) (side := .tenant) (f := f) hr hx hp h1 hd
  have hne : src.domain ≠ 0 := hd ▸ hp
  simp only [State.pageRegister, hne, hf, beq_self_eq_true, bne_self_eq_false, if_true, Bool.false_eq_true, if_false]
  split
  · exact State.mailboxAccess_still ..
  · rfl

end

/-- DL_HEAD is the manager's: a write by any other is reported, and changes nothing (R322). -/
theorem State.pageRegister_head_foreign {page : Nat} (size : Nat) (v : BitVec 64) (hr : s.resetting src.domain = false)
    (hd : src.domain ≠ 0) : (s.pageRegister src page 0x820 size v).still = s.still := by
  have hf (f : Domain → State → State) := State.mailboxField_foreign (page := page) (off := 0x820) (side := .manager) (f := f) hr hd
  simp [State.pageRegister, hf]

/-- A queue page reads to its queue's domain (R87, Tables 3.4 and 3.5). -/
theorem State.queueRead_own {q : Nat} {x : Queue} (off : Nat) (hq : s.queue? q = some x) (hd : src.domain = x.domain) (hp : src.port ≠ .p1) :
    s.queueRead src q off = if off = 0x100 then BitVec.ofNat 64 (s.status (0x400000 + 4096 * q + 0x100) x.head.toNat)
      else if off = 0x108 then BitVec.ofNat 64 (s.status (0x400000 + 4096 * q + 0x108) x.status) else 0 := by
  simp only [State.queueRead, hq, Option.filter, hd, hp, bne_iff_ne, ne_eq, not_false_eq_true, beq_self_eq_true, Bool.and_true, if_true,
    beq_iff_eq]
  split
  · rename_i e
    rw [e]
  · split
    · rename_i e
      rw [e]
    · rfl

/-- To any other it reads zero (R87, R463). -/
theorem State.queueRead_foreign {q : Nat} {x : Queue} (off : Nat) (hq : s.queue? q = some x) (h : src.domain ≠ x.domain ∨ src.port = .p1) :
    s.queueRead src q off = 0 := by
  have hc : (src.port != .p1 && src.domain == x.domain) = false := by
    rcases h with h | h <;> simp [h]
  simp [State.queueRead, hq, Option.filter, hc]

section
variable {page off : Nat} {x : Domain} (size : Nat) (hx : s.domain? page = some x)
include hx

/-- A mailbox page reads to its domain and to the manager, without the dirty-log registers to its domain (R322). -/
theorem State.mailboxRead_own (hp : page ≠ 0) (h1 : src.port ≠ .p1)
    (hd : src.domain = 0 ∨ src.domain = page ∧ (off < 0x820 ∨ 0x830 ≤ off)) : s.mailboxRead src page off size = s.pageWord x off size := by
  have hreader : (page != 0 && src.port != .p1 && (src.domain == page || src.domain == 0)) = true := by
    rcases hd with hd | ⟨hd, -⟩ <;> simp [hp, h1, hd]
  have hword : (src.domain != 0 && 0x820 ≤ off && off < 0x830 : Bool) = false := by
    simp only [Bool.and_eq_false_iff, bne_eq_false_iff_eq, decide_eq_false_iff_not]
    omega
  simp [State.mailboxRead, hx, Option.filter, hreader, hword]

/-- The dirty-log registers read zero to a page's own domain (R322). -/
theorem State.mailboxRead_dirtyLog (hd : src.domain ≠ 0) (hl : 0x820 ≤ off) (hu : off < 0x830) : s.mailboxRead src page off size = 0 := by
  simp only [State.mailboxRead, hx, Option.filter]
  split
  · rfl
  · simp [hd, hl, hu]

/-- Domain 0's page is reserved, and P1 and other domains read zero (R463, R474). -/
theorem State.mailboxRead_foreign (h : page = 0 ∨ src.port = .p1 ∨ (src.domain ≠ page ∧ src.domain ≠ 0)) :
    s.mailboxRead src page off size = 0 := by
  have hreader : (page != 0 && src.port != .p1 && (src.domain == page || src.domain == 0)) = false := by
    rcases h with h | h | h <;> simp [h]
  simp [State.mailboxRead, hx, Option.filter, hreader]

end

end

/-- Settles O55: each clause is one of the lemmas above, on the write that REGISTER_WRITE makes in its turn or on the read that a window or a page answers. -/
theorem registerRule : Obligations.RegisterRule := by
  unfold Obligations.RegisterRule
  refine ⟨fun src c s => ⟨fun h hf => ?counter, fun h hf => ?counterHeld, fun h hm => ?counterRefused⟩, fun src s h hf a size v ha => ?held,
    fun src s h hf => ⟨fun a size v r ha hr => ?setup, fun v => ?clear⟩, fun src s h a v r hi ha hr => exec_registerWrite_debug h hi ha hr v,
    fun src q v s x _ hp hh hn hq hr => ?queueWrite, fun src page v s x hpg hp ho hh h1 hr hx => ?pageWrite,
    fun src s a ha => ?windowRead, fun src s q off size x ho hq => ?queueRead, fun src s page off size x hpg ho hx => ?pageRead⟩
  case counter =>
    rw [exec_rcCounterRead_window c h, State.inTurn_of_free hf, State.readCounter_window c h]
    exact ⟨_, rfl, State.clearCounter_same _ c, rfl, fun d hd => State.clearCounter_other _ hd⟩
  case counterHeld => rw [exec_rcCounterRead_window c h, State.inTurn_of_held hf]
  case counterRefused => exact exec_rcCounterRead_refused c h hm
  case held => rw [exec_registerWrite_window h ha, State.inTurn_of_held hf]
  case setup =>
    exact ⟨exec_registerWrite_ignored h hf ha hr v, exec_registerWrite_takes h hf ha hr v, exec_registerWrite_service h hf ha hr v⟩
  case clear =>
    exact ⟨exec_registerWrite_command h hf (by decide) rfl rfl v, exec_registerWrite_command h hf (by decide) rfl rfl v,
      exec_registerWrite_command h hf (by decide) rfl rfl v⟩
  case queueWrite =>
    intro w
    have hw : exec w s = .next (s.queueAccess src q (clearQueueBits src 0x108 4 v)).flow :=
      exec_registerWrite_queuePage (by decide) rfl hp hh hn
    refine ⟨fun h1 hd => ⟨_, hw, ?_⟩, fun hno => ⟨_, hw, ?_⟩⟩
    · rw [State.flow_still, clearQueueBits_own v hq hr h1 hd]
    · rw [State.flow_still, clearQueueBits_foreign _ _ v hq hno]
  case pageWrite =>
    intro is
    have hw {off : Nat} {f : Domain → Domain} (hoff : off < 4096)
        (hf : (s.pageRegister src page off 4 v).still = (s.setDomain page f).still) : is off f :=
      ⟨_, exec_registerWrite_mailboxPage hpg hoff ho hh, by rw [State.flow_still, hf]⟩
    refine ⟨fun hd => ⟨hw (by decide) ?_, hw (by decide) ?_⟩, fun hd => hw (by decide) ?_, fun hd => hw (by decide) ?_⟩
    · rw [State.pageRegister_head v hr hx hp h1 hd]
    · exact State.pageRegister_m2tErr v hr hx hp h1 hd
    · exact State.pageRegister_t2mErr v hr hx hp h1 hd
    · rw [State.pageRegister_head_foreign 4 v hr hd]
      exact (s.setDomain_still page id fun _ => rfl).symm
  case windowRead =>
    refine ⟨fun h r hr => ?_, fun h h4 hn hb => ?_, fun h => ⟨?_, ?_, ?_⟩, s.latchStatus_tick 0, fun h hs => State.readAccess_refused h ha hs⟩
    · rw [State.readAccess_window h ha, State.windowRead_setup hr, State.setupRead_eq, regSpec_addr hr]
    · rw [State.readAccess_window h ha, State.windowRead_reserved h4 hn hb]
    · rw [State.readAccess_window h (by decide), State.windowRead_tick]
    · rw [State.readAccess_window h (by decide), State.windowRead_resetCause]
    · rw [State.readAccess_window h (by decide), State.windowRead_hit]
  case queueRead =>
    intro read
    have hread {o : Nat} (h : o < 4096) : read o = s.queueRead src q o := State.readAccess_queuePage size h
    refine ⟨fun hd h1 => ⟨?_, ?_, fun h100 h108 => ?_⟩, fun hno => ?_⟩
    · rw [hread (by decide), State.queueRead_own _ hq hd h1, if_pos rfl]
    · rw [hread (by decide), State.queueRead_own _ hq hd h1, if_neg (by decide), if_pos rfl]
    · rw [hread ho, State.queueRead_own _ hq hd h1, if_neg h100, if_neg h108]
    · rw [hread ho, State.queueRead_foreign _ hq hno]
  case pageRead =>
    intro read
    have hread : read off = s.mailboxRead src page off size := State.readAccess_mailboxPage size hpg ho
    refine ⟨fun hp h1 hd => ?_, fun hp hd hl hu => ?_, fun hno => ?_⟩
    · rw [hread, State.mailboxRead_own size hx hp h1 hd]
    · rw [hread, State.mailboxRead_dirtyLog size hx (hd ▸ hp) hl hu]
    · rw [hread, State.mailboxRead_foreign size hx hno]

end Sys2Proof.Machine
end

section
/-! PROOF. Write responses (R19, R146, R335, R342, R447): what a response that fails its check sends again, what a good one ends, and the statement WriteResponseRule. -/

namespace Sys2Proof.Machine

theorem exec_writeResponse (port tag : Nat) (checkFails : Bool) (s : State) :
    exec (.writeResponse port tag checkFails) s = execWriteResponse port tag checkFails s := rfl

/-- A transaction is found by its own port and tag. -/
theorem State.txn?_key {s : State} {port tag : Nat} {t : Txn} (h : s.txn? port tag = some t) : t.port = port ∧ t.tag = some tag := by
  simpa using List.find?_some h

section
variable {s : State} {port tag : Nat} {t : Txn} (h : s.txn? port tag = some t) (hw : t.op = .write)
include h hw

/-- A write that was cut ends, a port test's fails, and any other goes out again: no snoop supersedes a write (R237, R447). -/
theorem State.sendAgain_write : s.sendAgain t = if t.dead then ((s.endTxn port tag).logTxn t).deadDone t
    else if t.cls = .maintenance then s.failTxn t else s.reissue port tag false t.kept := by
  obtain ⟨hp, ht⟩ := State.txn?_key h
  simp [State.sendAgain, State.superseded?, State.endLogged, ht, hp, hw]

theorem exec_writeResponse_fails : exec (.writeResponse port tag true) s = .next ((s.sendAgain t).countPort port).flow := by
  simp [exec_writeResponse, execWriteResponse, onSome, done, h, hw, Option.filter]

theorem exec_writeResponse_good (hp : t.purpose.plainWrite = true) :
    exec (.writeResponse port tag false) s = .next (((s.endTxn port tag).logTxn t).writeDone t).flow := by
  simp [exec_writeResponse, execWriteResponse, onSome, done, h, hw, hp, Option.filter, State.writeOk]

end

section
variable {t : Txn} (s : State) {q : Nat} {c : BitVec 17}

/-- The response of a cut write of a job settles the job (R19, R415). -/
theorem State.deadDone_job (h : (∃ i o, t.purpose = .output q c i o) ∨ (∃ o, t.purpose = .zero q c o) ∨ t.purpose = .result q c) :
    s.deadDone t = s.settle q c := by
  rcases h with ⟨i, o, h⟩ | ⟨o, h⟩ | h <;> simp [State.deadDone, h]

theorem State.writeDone_dead (hd : t.dead = true) : s.writeDone t = s.deadDone t := by
  simp [State.writeDone, hd]

variable (hd : t.dead = false)
include hd

theorem State.writeDone_output {i off : Nat} (h : t.purpose = .output q c i off) :
    s.writeDone t = s.outputAcked q c (some (off, t.len)) := by
  simp [State.writeDone, hd, h]

theorem State.writeDone_zero {o : Nat} (h : t.purpose = .zero q c o) : s.writeDone t = s.settle q c := by
  simp [State.writeDone, hd, h]

theorem State.writeDone_result (h : t.purpose = .result q c) (hq : q ≠ 0) : s.writeDone t = s.settle q c := by
  simp [State.writeDone, hd, h, hq]

/-- An admin command counts the bytes that it has written (R342). -/
theorem State.writeDone_adminResult (h : t.purpose = .result 0 c) :
    s.writeDone t = (s.setJob 0 c fun j => { j with bytesDone := j.bytesDone + t.len }).settle 0 c := by
  simp [State.writeDone, hd, h]

theorem State.writeDone_marker {d : Nat} (h : t.purpose = .marker d) : s.writeDone t = s.setDomain d fun x =>
    if x.mig.marker == .issued then { x with mig := { x.mig with marker := .confirmed } } else x := by
  simp [State.writeDone, hd, h]

/-- Dirty records, timestamp records and writes of a port test have nothing more to do. -/
theorem State.writeDone_idle (h : (∃ d, t.purpose = .dirty d) ∨ (∃ k, t.purpose = .stamp k) ∨ ∃ p k, t.purpose = .portTest p k) :
    s.writeDone t = s := by
  rcases h with ⟨d, h⟩ | ⟨k, h⟩ | ⟨p, k, h⟩ <;> simp [State.writeDone, hd, h]

end

theorem Purpose.plainWrite_idle {p : Purpose} (h : (∃ d, p = .dirty d) ∨ (∃ k, p = .stamp k) ∨ ∃ n k, p = .portTest n k) :
    p.plainWrite = true := by
  rcases h with ⟨d, rfl⟩ | ⟨k, rfl⟩ | ⟨n, k, rfl⟩ <;> rfl

/-- Settles O14: a failed check is what sendAgain makes of a write, a good response what writeDone makes of its purpose. -/
theorem writeResponseRule : Obligations.WriteResponseRule := by
  unfold Obligations.WriteResponseRule
  intro port tag s t h hw r
  refine ⟨fun hd => ?live, fun hd => ?cut⟩
  case live =>
    have hfails := exec_writeResponse_fails h hw
    rw [State.sendAgain_write h hw, hd] at hfails
    have hgood {v : State} (hp : t.purpose.plainWrite = true) (hv : r.writeDone t = v) :
        exec (.writeResponse port tag false) s = .next v.flow := hv ▸ exec_writeResponse_good h hw hp
    refine ⟨fun hc => ?_, fun hc => ?_, fun q c i off hp => ?_, fun q c o hp => ?_, fun q c hp hq => ?_, fun c hp => ?_, fun d hp => ?_,
      fun hp => ?_⟩
    · simpa [hc] using hfails
    · simpa [hc] using hfails
    · exact hgood (by rw [hp]; rfl) (r.writeDone_output hd hp)
    · exact hgood (by rw [hp]; rfl) (r.writeDone_zero hd hp)
    · exact hgood (by rw [hp]; rfl) (r.writeDone_result hd hp hq)
    · exact hgood (by rw [hp]; rfl) (r.writeDone_adminResult hd hp)
    · exact hgood (by rw [hp]; rfl) (r.writeDone_marker hd hp)
    · exact hgood (Purpose.plainWrite_idle hp) (r.writeDone_idle hd hp)
  case cut =>
    refine ⟨?_, fun hp => ?_, fun q c hp => r.deadDone_job hp⟩
    · rw [exec_writeResponse_fails h hw, State.sendAgain_write h hw, if_pos hd]
    · rw [exec_writeResponse_good h hw hp, State.writeDone_dead _ hd]

end Sys2Proof.Machine
end

section
/-! PROOF. The end of a job (R19, R21, R139, R149): what it makes of the issues, the transactions, the queues and the delivered slices, and the statement EndOfJob. -/

namespace Sys2Proof.Machine

/-! ## Requests to the ports -/

section
variable (s : State) (op : RurenOp) (cls : TClass) (d a n : Nat) (data : Bytes) (mk : Nat → Purpose)

@[simp] theorem State.issueAt_thyme (pos : Nat) : (s.issueAt pos op cls d a n data mk).thyme = s.thyme := by
  unfold State.issueAt
  exact foldl_keeps State.thyme _ (by intros; rfl) _ _

@[simp] theorem State.issue_thyme : (s.issue op cls d a n data mk).thyme = s.thyme := s.issueAt_thyme ..

/-- What a transfer queues has the transfer's operation. -/
theorem State.issueAt_txns (pos : Nat) : ∀ t ∈ (s.issueAt pos op cls d a n data mk).txns, t ∈ s.txns ∨ t.op = op := by
  unfold State.issueAt
  generalize split4k (splitFuel n) a n = pieces
  induction pieces generalizing s with
  | nil => exact fun t ht => .inl ht
  | cons p pieces ih =>
    intro t ht
    rcases ih _ t ht with h | h
    · rcases List.mem_append.1 h with h | h
      · exact .inl h
      · exact .inr (by rw [List.mem_singleton.1 h])
    · exact .inr h

theorem State.issue_txns : ∀ t ∈ (s.issue op cls d a n data mk).txns, t ∈ s.txns ∨ t.op = op :=
  s.issueAt_txns op cls d a n data mk 0

end

/-! ## Delivered slices -/

/-- The slices that the job of a queue and a count has delivered; none where there is no job. -/
def State.deliveredOf (s : State) (q : Nat) (c : BitVec 17) : Option (List Nat) := (s.job? q c).map (·.deliveredIdx)

theorem State.deliveredOf_of_jobs {s t : State} (h : t.fennel.jobs = s.fennel.jobs) (q : Nat) (c : BitVec 17) :
    t.deliveredOf q c = s.deliveredOf q c := by
  rw [State.deliveredOf, State.job?, h, State.deliveredOf, State.job?]

/-- A change of a job that keeps its name and its delivered slices leaves those of every job. -/
theorem State.setJob_deliveredOf (s : State) (q q' : Nat) (c c' : BitVec 17) (f : Job → Job)
    (h : ∀ j, (f j).queue = j.queue ∧ (f j).count = j.count ∧ (f j).deliveredIdx = j.deliveredIdx) :
    (s.setJob q c f).deliveredOf q' c' = s.deliveredOf q' c' := by
  rw [State.deliveredOf, State.job?_setJob _ _ _ _ _ _ fun j => ⟨(h j).1, (h j).2.1⟩, Option.map_map, State.deliveredOf]
  congr 1
  funext j
  simp only [Function.comp]
  split
  · exact (h j).2.2
  · rfl

/-! ## Settling -/

theorem State.clearLog_thyme (s : State) (j : Job) : (s.clearLog j).thyme = s.thyme := by
  unfold State.clearLog
  split <;> rfl

theorem State.clearLog_txns (s : State) (j : Job) : (s.clearLog j).txns = s.txns := by
  unfold State.clearLog
  split <;> rfl

/-- What the issue of completions leaves of a state: THYME, the queues, the slices delivered, and every transaction but completion writes. -/
structure State.SettlesTo (s t : State) : Prop where
  thyme : t.thyme = s.thyme
  queues : t.fennel.queues = s.fennel.queues
  delivered : ∀ q c, t.deliveredOf q c = s.deliveredOf q c
  txns : ∀ x ∈ t.txns, x ∈ s.txns ∨ x.op = .write

theorem State.SettlesTo.refl (s : State) : s.SettlesTo s := ⟨rfl, rfl, fun _ _ => rfl, fun _ hx => .inl hx⟩

theorem State.SettlesTo.trans {s t u : State} (h : s.SettlesTo t) (k : t.SettlesTo u) : s.SettlesTo u where
  thyme := k.thyme.trans h.thyme
  queues := k.queues.trans h.queues
  delivered q c := (k.delivered q c).trans (h.delivered q c)
  txns x hx := (k.txns x hx).elim (h.txns x) .inr

theorem State.settlesTo_setJob (s : State) (q : Nat) (c : BitVec 17) (f : Job → Job)
    (h : ∀ j, (f j).queue = j.queue ∧ (f j).count = j.count ∧ (f j).deliveredIdx = j.deliveredIdx) : s.SettlesTo (s.setJob q c f) :=
  ⟨rfl, rfl, fun _ _ => s.setJob_deliveredOf _ _ _ _ _ h, fun _ hx => .inl hx⟩

theorem State.settlesTo_issueWrite (s : State) (cls : TClass) (d a n : Nat) (data : Bytes) (mk : Nat → Purpose) :
    s.SettlesTo (s.issue .write cls d a n data mk) where
  thyme := s.issue_thyme ..
  queues := by rw [State.issue_fennel]
  delivered := State.deliveredOf_of_jobs (congrArg Fennel.jobs (s.issue_fennel ..))
  txns := s.issue_txns .write cls d a n data mk

theorem State.settlesTo_dropCtxs (s : State) (q : Nat) (c : BitVec 17) : s.SettlesTo (s.dropCtxs q c) :=
  ⟨rfl, rfl, fun _ _ => rfl, fun _ hx => .inl hx⟩

theorem State.settlesTo_clearLog (s : State) (j : Job) : s.SettlesTo (s.clearLog j) where
  thyme := s.clearLog_thyme j
  queues := by rw [State.clearLog_fennel]
  delivered := State.deliveredOf_of_jobs (congrArg Fennel.jobs (s.clearLog_fennel j))
  txns x hx := .inl (s.clearLog_txns j ▸ hx)

theorem State.settlesTo_issueFrom (q fuel : Nat) (c : BitVec 17) (s : State) : s.SettlesTo (State.issueFrom q fuel c s) := by
  induction fuel generalizing c s with
  | zero => exact .refl s
  | succ n ih =>
    unfold State.issueFrom
    split
    · split
      · exact ih _ _
      · split
        · refine .trans ?_ (ih _ _)
          refine .trans ?_ (State.settlesTo_dropCtxs _ _ _)
          exact (State.settlesTo_issueWrite ..).trans (State.settlesTo_setJob _ _ _ _ fun _ => ⟨rfl, rfl, rfl⟩)
        · exact .refl s
    · exact .refl s

theorem State.settlesTo_issueCompletions (s : State) (q : Nat) : s.SettlesTo (s.issueCompletions q) := by
  unfold State.issueCompletions
  split
  · exact .refl s
  · exact State.settlesTo_issueFrom ..

theorem State.settlesTo_settle (s : State) (q : Nat) (c : BitVec 17) : s.SettlesTo (s.settle q c) := by
  unfold State.settle
  split
  · exact .refl s
  · split
    · refine .trans ?_ (State.settlesTo_issueCompletions _ _)
      exact (s.settlesTo_clearLog _).trans (State.settlesTo_setJob _ _ _ _ fun _ => ⟨rfl, rfl, rfl⟩)
    · exact .refl s

/-! ## The end of a job -/

/-- The end of an open job j before it settles: its reads and issues are gone, it has its status, and its chain is broken when it failed (R21, R139, R149). -/
def State.stopJob (s : State) (q : Nat) (c : BitVec 17) (st : Status) (j : Job) (zeroTo : Nat) : State :=
  let u := (s.killTxns fun t => t.op == .read && t.purpose.job? == some (q, c)).dropIssues q c
  let u := if st == .ok then u else u.dropOuts q c
  let left (x : Slice) : Bool := x.state == .writing || (st == .ok && x.state == .delivered)
  let u := u.setJob q c fun j => { j with
    status := some st, phase := .writing, hasRecord := false, slices := j.slices.filter left, zeros := j.zeroPieces zeroTo }
  if st != .ok && q != 0 && eChain j.entry then u.setQueue q fun x => { x with chainBroken := true } else u

section
variable (s : State) (q : Nat) (c : BitVec 17) (st : Status) (j : Job) (z : Nat)

theorem State.stopJob_issues : (s.stopJob q c st j z).thyme.issues = s.thyme.issues.filter fun i => !(i.queue == q && i.count == c) := by
  unfold State.stopJob
  dsimp only
  split <;> split <;> rfl

theorem State.stopJob_txns : (s.stopJob q c st j z).txns = (s.killTxns fun t => t.op == .read && t.purpose.job? == some (q, c)).txns := by
  unfold State.stopJob
  dsimp only
  split <;> split <;> rfl

theorem State.stopJob_deliveredOf (q' : Nat) (c' : BitVec 17) : (s.stopJob q c st j z).deliveredOf q' c' = s.deliveredOf q' c' := by
  have hset {u : State} (f : Job → Job) (hu : u.fennel.jobs = s.fennel.jobs)
      (hf : ∀ k, (f k).queue = k.queue ∧ (f k).count = k.count ∧ (f k).deliveredIdx = k.deliveredIdx) :
      (u.setJob q c f).deliveredOf q' c' = s.deliveredOf q' c' :=
    (u.setJob_deliveredOf _ _ _ _ _ hf).trans (State.deliveredOf_of_jobs hu q' c')
  unfold State.stopJob
  dsimp only
  split <;> exact hset _ (by split <;> rfl) fun _ => ⟨rfl, rfl, rfl⟩

/-- The end of a link of a chain that fails marks its queue's chain broken (R139). -/
theorem State.stopJob_queues (h : st ≠ .ok) (hq : q ≠ 0) (he : eChain j.entry = true) :
    (s.stopJob q c st j z).fennel.queues = (s.setQueue q fun x => { x with chainBroken := true }).fennel.queues := by
  simp [State.stopJob, h, hq, he]
  rfl

end

section
variable {s : State} {q : Nat} {c : BitVec 17} {j : Job}

theorem State.endJobZ_open (h : s.job? q c = some j) (hs : j.status = none) (st : Status) (z : Nat) :
    s.endJobZ q c st z = (s.stopJob q c st j z).settle q c := by
  rw [State.endJobZ, h, Option.filter, hs]
  rfl

theorem State.endJobZ_closed (h : ∀ k, s.job? q c = some k → k.status ≠ none) (st : Status) (z : Nat) : s.endJobZ q c st z = s := by
  unfold State.endJobZ
  split
  · rfl
  · rename_i k hk
    obtain ⟨hk, hs⟩ := Option.filter_eq_some_iff.1 hk
    exact absurd (Option.isNone_iff_eq_none.1 hs) (h k hk)

/-- The end of a job is that of endJobZ, with nothing or the whole destination to zero. -/
theorem State.endJob_eq (s : State) (q : Nat) (c : BitVec 17) (st : Status) : ∃ z, s.endJob q c st = s.endJobZ q c st z := by
  unfold State.endJob
  split
  · rename_i h
    exact ⟨0, (State.endJobZ_closed (by simp [h]) st 0).symm⟩
  · exact ⟨_, rfl⟩

/-- An open job ends by stopping, and then settles as far as it can. -/
theorem State.endJob_open (h : s.job? q c = some j) (hs : j.status = none) (st : Status) :
    ∃ z, (s.stopJob q c st j z).SettlesTo (s.endJob q c st) := by
  obtain ⟨z, hz⟩ := s.endJob_eq q c st
  exact ⟨z, hz ▸ State.endJobZ_open h hs st z ▸ State.settlesTo_settle ..⟩

/-- The end of a job leaves the state as it is, or stops the job and lets it settle. -/
theorem State.endJob_cases (s : State) (q : Nat) (c : BitVec 17) (st : Status) :
    s.endJob q c st = s ∨ ∃ j z, (s.stopJob q c st j z).SettlesTo (s.endJob q c st) := by
  by_cases h : ∃ j, s.job? q c = some j ∧ j.status = none
  · obtain ⟨j, hj, hs⟩ := h
    exact .inr ⟨j, State.endJob_open hj hs st⟩
  · obtain ⟨z, hz⟩ := s.endJob_eq q c st
    exact .inl (hz.trans (State.endJobZ_closed (fun k hk hs => h ⟨k, hk, hs⟩) st z))

end

/-- The end of a job adds no issue. -/
theorem State.endJob_issues (s : State) (q : Nat) (c : BitVec 17) (st : Status) : (s.endJob q c st).thyme.issues ⊆ s.thyme.issues := by
  rcases s.endJob_cases q c st with h | ⟨j, z, h⟩
  · rw [h]
    exact List.Subset.refl _
  · rw [h.thyme, State.stopJob_issues]
    exact fun i hi => (List.mem_filter.1 hi).1

/-- The end of a job leaves the slices that it and every other job have delivered. -/
@[simp] theorem State.endJob_deliveredOf (s : State) (q q' : Nat) (c c' : BitVec 17) (st : Status) :
    (s.endJob q c st).deliveredOf q' c' = s.deliveredOf q' c' := by
  rcases s.endJob_cases q c st with h | ⟨j, z, h⟩
  · rw [h]
  · rw [h.delivered, State.stopJob_deliveredOf]

/-- A transaction that is killed and stays is dead. -/
theorem State.killTxns_dead {s : State} {p : Txn → Bool} {t : Txn} (ht : t ∈ (s.killTxns p).txns) (h : p t = true) : t.dead = true := by
  obtain ⟨u, -, rfl⟩ := List.mem_map.1 ht
  by_cases hu : p u = true
  · simp [hu]
  · simp [hu] at h

/-- Settles O13: an open job stops, which ends its issues, kills its reads and breaks its chain, and what settling does after that undoes none of it; every status is by endJob_statusOf. -/
theorem endOfJob : Obligations.EndOfJob := by
  unfold Obligations.EndOfJob
  intro s q c st j hj u
  refine ⟨?status, fun hs => ?stopped, fun q' c' hne => ?others⟩
  case status =>
    rw [State.endedWith_iff, State.endJob_statusOf, if_pos ⟨rfl, rfl⟩, State.statusOf, hj]
    cases hs : j.status <;> simp [hs]
  case stopped =>
    obtain ⟨z, hz⟩ : ∃ z, (s.stopJob q c st j z).SettlesTo u := State.endJob_open hj hs st
    refine ⟨fun i hi => ?_, fun t ht hop hjob => ?_, fun hst hq he x hx => ?_⟩
    · rw [hz.thyme, State.stopJob_issues] at hi
      rintro ⟨hiq, hic⟩
      have hkeep := (List.mem_filter.1 hi).2
      simp [hiq, hic] at hkeep
    · rcases hz.txns t ht with h | h
      · rw [State.stopJob_txns] at h
        exact State.killTxns_dead h (by simp [hop, hjob])
      · simp [hop] at h
    · have hqueue : u.queue? q = (s.setQueue q fun x => { x with chainBroken := true }).queue? q := by
        rw [State.queue?, hz.queues, State.stopJob_queues s q c st j z hst hq he, State.queue?]
      rw [hqueue, State.queue?_setQueue, hx] <;> simp [State.queue?_num s hx]
  case others =>
    have hother : ¬(q' = q ∧ c' = c) := fun h => hne (Prod.ext h.1 h.2)
    have := State.endJob_statusOf s q q' c c' st
    rwa [if_neg hother] at this

end Sys2Proof.Machine
end

section
/-! SUPPORT. The slices of a job: one that fails and is retried (R69, R183, R184), and one whose result is released (R153, R158, R160, R225). -/

namespace Sys2Proof.Machine

/-! ## One slice of a job -/

/-- A job with one slice changed. -/
def Job.withSlice (j : Job) (k : Nat) (f : Slice → Slice) : Job :=
  { j with slices := j.slices.map fun x => if x.index == k then f x else x }

theorem Job.slice?_withSlice {j : Job} {k : Nat} {x : Slice} {f : Slice → Slice} (h : j.slice? k = some x) (hf : ∀ x, (f x).index = x.index) :
    (j.withSlice k f).slice? k = some (f x) := by
  have hx : x.index = k := by simpa using List.find?_some h
  have hfind : j.slices.find? (·.index == k) = some x := h
  rw [Job.slice?, Job.withSlice, find?_map_select _ _ f (fun y => by rw [hf]), hfind]
  simp [hx]

section
variable (s : State) (q : Nat) (c : BitVec 17) (k : Nat) (f : Slice → Slice)

@[simp] theorem State.setSlice_thyme : (s.setSlice q c k f).thyme = s.thyme := rfl

@[simp] theorem State.dropSlice_thyme : (s.dropSlice q c k).thyme = s.thyme := rfl

@[simp] theorem State.setSlice_still : (s.setSlice q c k f).still = s.still := rfl

@[simp] theorem State.setSlice_deliveredOf (q' : Nat) (c' : BitVec 17) : (s.setSlice q c k f).deliveredOf q' c' = s.deliveredOf q' c' :=
  s.setJob_deliveredOf _ _ _ _ _ fun _ => ⟨rfl, rfl, rfl⟩

@[simp] theorem State.dropSlice_deliveredOf (q' : Nat) (c' : BitVec 17) : (s.dropSlice q c k).deliveredOf q' c' = s.deliveredOf q' c' :=
  s.setJob_deliveredOf _ _ _ _ _ fun _ => ⟨rfl, rfl, rfl⟩

end

/-- A change of a job is found under its name. -/
theorem State.job?_setJob_same {s : State} {q : Nat} {c : BitVec 17} {j : Job} (h : s.job? q c = some j) (f : Job → Job)
    (hf : ∀ j, (f j).queue = j.queue ∧ (f j).count = j.count) : (s.setJob q c f).job? q c = some (f j) := by
  obtain ⟨hq, hc⟩ := State.job?_num s h
  rw [State.job?_setJob _ _ _ _ _ _ hf, h]
  simp [hq, hc]

theorem State.job?_setSlice {s : State} {q : Nat} {c : BitVec 17} {j : Job} (h : s.job? q c = some j) (k : Nat) (f : Slice → Slice) :
    (s.setSlice q c k f).job? q c = some (j.withSlice k f) :=
  State.job?_setJob_same h _ fun _ => ⟨rfl, rfl⟩

/-! ## Reading a slice's payload again -/

section
variable (s : State) (j : Job) (k : Nat)

@[simp] theorem State.readSource_thyme (r : Nat × Nat) : (s.readSource j k r).thyme = s.thyme :=
  foldl_keeps State.thyme _ (by intros; exact State.issueAt_thyme ..) _ _

@[simp] theorem State.readAgain_thyme : (s.readAgain j k).thyme = s.thyme := by
  unfold State.readAgain
  split
  · refine (foldl_keeps State.thyme _ (by intros; exact State.issueAt_thyme ..) _ _).trans ?_
    split
    · exact s.readSource_thyme ..
    · rfl
  · exact s.readSource_thyme ..

@[simp] theorem State.readAgain_still : (s.readAgain j k).still = s.still := by
  unfold State.readAgain
  split
  · refine (foldl_keeps State.still _ (by intros; exact State.issueAt_still ..) _ _).trans ?_
    split
    · exact s.readSource_still ..
    · rfl
  · exact s.readSource_still ..

variable (q : Nat) (c : BitVec 17)

@[simp] theorem State.restage_thyme : (s.restage q c k).thyme = s.thyme := by
  unfold State.restage
  split
  · rfl
  · split <;> simp

@[simp] theorem State.restage_still : (s.restage q c k).still = s.still := by
  unfold State.restage
  split
  · rfl
  · split <;> simp

end

/-! ## A slice that fails -/

/-- The slice of an issue is staged again, with n failures more, for a retry in the next tick (R69, R70). -/
def State.markRetry (s : State) (i : Issue) (n : Nat) (votes : List (Nat × BitVec 64)) : State :=
  (s.setSlice i.queue i.count i.slice fun x =>
    { x with state := .staged, fails := x.fails + n, retry := true, eligible := s.thyme.tick + 1, pos := i.pos, votes := votes }).setJob
      i.queue i.count fun j => { j with retried := true }

theorem State.sliceFails_eq (s : State) (i : Issue) (n : Nat) (flit : Bool) (votes : List (Nat × BitVec 64)) :
    s.sliceFails i n flit votes =
      if (((s.markRetry i n votes).job? i.queue i.count).bind (·.slice? i.slice)).any (·.fails ≥ 3) then
        (s.markRetry i n votes).endJob i.queue i.count .flitCheckFail
      else if flit || ((s.job? i.queue i.count).bind (·.slice? i.slice)).any (·.retry) then
        (s.markRetry i n votes).restage i.queue i.count i.slice
      else s.markRetry i n votes := rfl

section
variable (s : State) (i : Issue) (n : Nat) (flit : Bool) (votes : List (Nat × BitVec 64))

theorem State.sliceFails_issues : (s.sliceFails i n flit votes).thyme.issues ⊆ s.thyme.issues := by
  rw [State.sliceFails_eq]
  split
  · exact State.endJob_issues ..
  · split
    · rw [State.restage_thyme]
      exact List.Subset.refl _
    · exact List.Subset.refl _

@[simp] theorem State.sliceFails_still : (s.sliceFails i n flit votes).still = s.still := by
  rw [State.sliceFails_eq]
  split
  · exact State.endJob_still ..
  · split
    · exact State.restage_still ..
    · rfl

end

section
variable {s : State} {i : Issue} {j : Job} {x : Slice} (hj : s.job? i.queue i.count = some j) (hx : j.slice? i.slice = some x)
include hj hx

/-- What the retry's mark makes of the job and of its slice. -/
theorem State.markRetry_job (n : Nat) (votes : List (Nat × BitVec 64)) :
    ∃ j' x', (s.markRetry i n votes).job? i.queue i.count = some j' ∧ j'.retried = true ∧ j'.status = j.status ∧
      j'.slice? i.slice = some x' ∧ x'.state = .staged ∧ x'.retry = true ∧ x'.fails = x.fails + n ∧ x'.eligible = s.thyme.tick + 1 := by
  refine ⟨_, _, State.job?_setJob_same (State.job?_setSlice hj _ _) _ ?_, rfl, rfl, Job.slice?_withSlice hx ?_, rfl, rfl, rfl, rfl⟩
  · exact fun _ => ⟨rfl, rfl⟩
  · exact fun _ => rfl

/-- Up to its third failure, a slice that ran from sound payload is retried as it stands in its buffer (R69, R184). -/
theorem State.sliceFails_retry (hn : x.fails < 2) (hr : x.retry = false) :
    ∃ j' x', (s.sliceFails i 1 false []).job? i.queue i.count = some j' ∧ j'.retried = true ∧ j'.slice? i.slice = some x' ∧
      x'.state = .staged ∧ x'.retry = true ∧ x'.fails = x.fails + 1 ∧ x'.eligible = s.thyme.tick + 1 := by
  obtain ⟨j', x', hj', hret, -, hx', hst, hretry, hfails, hel⟩ := State.markRetry_job hj hx 1 []
  have hmark : s.sliceFails i 1 false [] = s.markRetry i 1 [] := by
    rw [State.sliceFails_eq, hj', hj, Option.bind_some, Option.bind_some, hx', hx]
    simp [hfails, hr]
    omega
  exact ⟨j', x', hmark ▸ hj', hret, hx', hst, hretry, hfails, hel⟩

/-- The third failure of a slice ends its job (R183). -/
theorem State.sliceFails_third (hn : 2 ≤ x.fails) (hs : j.status = none) (flit : Bool) :
    (s.sliceFails i 1 flit []).endedWith i.queue i.count .flitCheckFail := by
  obtain ⟨j', x', hj', -, hstatus, hx', -, -, hfails, -⟩ := State.markRetry_job hj hx 1 []
  have hend : s.sliceFails i 1 flit [] = (s.markRetry i 1 []).endJob i.queue i.count .flitCheckFail := by
    rw [State.sliceFails_eq, hj', Option.bind_some, hx']
    simp [hfails]
    omega
  rw [hend, State.endedWith_iff, State.endJob_statusOf, if_pos ⟨rfl, rfl⟩, State.statusOf, hj']
  simp [hstatus, hs]

end

/-! ## A slice that delivers -/

section
variable (s : State) (j : Job) (q : Nat) (c : BitVec 17) (k : Nat)

theorem State.afterPass_issues : (s.afterPass q c k).thyme.issues ⊆ s.thyme.issues := by
  unfold State.afterPass
  split
  · exact List.Subset.refl _
  · split
    · dsimp only
      split
      · exact List.Subset.refl _
      · exact State.endJob_issues ..
    · exact List.Subset.refl _

@[simp] theorem State.afterPass_deliveredOf (q' : Nat) (c' : BitVec 17) : (s.afterPass q c k).deliveredOf q' c' = s.deliveredOf q' c' := by
  unfold State.afterPass
  split
  · rfl
  · split
    · dsimp only
      split
      · exact s.setJob_deliveredOf _ _ _ _ _ fun _ => ⟨rfl, rfl, rfl⟩
      · exact State.endJob_deliveredOf ..
    · rfl

@[simp] theorem State.toDill_thyme (out : Bytes) : (s.toDill j k out).thyme = s.thyme := by
  unfold State.toDill
  split
  · split <;> rfl
  · rfl

@[simp] theorem State.toDill_deliveredOf (out : Bytes) (q' : Nat) (c' : BitVec 17) :
    (s.toDill j k out).deliveredOf q' c' = s.deliveredOf q' c' := by
  unfold State.toDill
  split
  · split
    · exact State.setSlice_deliveredOf ..
    · rfl
  · rfl

end

/-- The job of a queue and a count is there, and has delivered slice k. -/
def State.hasDelivered (s : State) (q : Nat) (c : BitVec 17) (k : Nat) : Prop := ∃ j, s.job? q c = some j ∧ k ∈ j.deliveredIdx

theorem State.hasDelivered_iff {s : State} {q : Nat} {c : BitVec 17} {k : Nat} :
    s.hasDelivered q c k ↔ ∃ d, s.deliveredOf q c = some d ∧ k ∈ d := by
  constructor
  · rintro ⟨j, hj, hk⟩
    exact ⟨j.deliveredIdx, Option.map_eq_some_iff.2 ⟨j, hj, rfl⟩, hk⟩
  · rintro ⟨d, hd, hk⟩
    obtain ⟨j, hj, rfl⟩ := Option.map_eq_some_iff.1 hd
    exact ⟨j, hj, hk⟩

/-- A job that is there counts the slice as delivered. -/
theorem State.countDelivered_hasDelivered {s : State} {i : Issue} (h : (s.deliveredOf i.queue i.count).isSome = true) :
    (s.countDelivered i).hasDelivered i.queue i.count i.slice := by
  obtain ⟨j, hj⟩ := Option.isSome_iff_exists.1 (Option.isSome_map.symm.trans h)
  refine ⟨_, State.job?_setJob_same hj _ fun _ => ⟨rfl, rfl⟩, ?_⟩
  dsimp only
  split
  · rename_i hin
    simpa using hin
  · simp

/-! ## Releases -/

/-- One stream of slice k of a pass on DILL takes the slice's bytes, and the last slice gives its digest or MAC (R225, R230). -/
def State.dillStream (s : State) (j : Job) (p : Pass) (k : Nat) (buf : Bytes) (older : Bool) (key : Bytes) : State :=
  let d := (s.dillRun j older key).absorb j.dillSel buf
  let u := s.setCtx j.queue j.count older fun x => { x with
    state := d.state, outer := d.outer, carry := d.carry, absorbed := d.absorbed, next := k + 1 }
  if k + 1 == p.count then
    u.setJob j.queue j.count fun y =>
      if older then { y with madeOld := d.finish j.dillSel (eMac j.entry) j.dillKeyed }
      else { y with made := d.finish j.dillSel (eMac j.entry) j.dillKeyed }
  else u

section
variable (s : State) (j : Job) (buf : Bytes) (q : Nat) (c : BitVec 17)

theorem State.dillStream_thyme (p : Pass) (k : Nat) (older : Bool) (key : Bytes) : (s.dillStream j p k buf older key).thyme = s.thyme := by
  unfold State.dillStream
  dsimp only
  split <;> rfl

theorem State.dillStream_deliveredOf (p : Pass) (k : Nat) (older : Bool) (key : Bytes) :
    (s.dillStream j p k buf older key).deliveredOf q c = s.deliveredOf q c := by
  unfold State.dillStream
  dsimp only
  split
  · exact State.setJob_deliveredOf _ _ _ _ _ _ fun _ => by cases older <;> exact ⟨rfl, rfl, rfl⟩
  · rfl

/-- A DILL slice delivers to the stream of its key, and to that of the older member when there is one; one outside every pass delivers nothing. -/
theorem State.dillDeliver_cases (keys : List Bytes) (k : Nat) :
    s.dillDeliver j keys k buf = s ∨
    (∃ p n, s.dillDeliver j keys k buf = s.dillStream j p n buf false (nth keys 0 [])) ∨
    ∃ p n, s.dillDeliver j keys k buf = (s.dillStream j p n buf false (nth keys 0 [])).dillStream j p n buf true (nth keys 1 []) := by
  rw [State.dillDeliver]
  rcases passAt j.passes 0 k with _ | ⟨p, n, b⟩
  · exact .inl rfl
  · cases (nth keys 1 []).isEmpty with
    | true => exact .inr (.inl ⟨p, n, rfl⟩)
    | false => exact .inr (.inr ⟨p, n, rfl⟩)

@[simp] theorem State.dillDeliver_thyme (keys : List Bytes) (k : Nat) : (s.dillDeliver j keys k buf).thyme = s.thyme := by
  rcases s.dillDeliver_cases j buf keys k with h | ⟨p, n, h⟩ | ⟨p, n, h⟩ <;> simp [h, State.dillStream_thyme]

@[simp] theorem State.dillDeliver_deliveredOf (keys : List Bytes) (k : Nat) :
    (s.dillDeliver j keys k buf).deliveredOf q c = s.deliveredOf q c := by
  rcases s.dillDeliver_cases j buf keys k with h | ⟨p, n, h⟩ | ⟨p, n, h⟩ <;> simp [h, State.dillStream_deliveredOf]

end

/-- What the release of a slice's result makes of a state: it adds no issue, and the slice has delivered (R158, R160). -/
structure State.Releases (s t : State) (i : Issue) : Prop where
  issues : t.thyme.issues ⊆ s.thyme.issues
  delivered : t.hasDelivered i.queue i.count i.slice

/-- Once the slice is counted, what follows may drop its buffer and judge the pass. -/
theorem State.releases_of_counted {s u t : State} {i : Issue} (hu : u.thyme.issues = s.thyme.issues)
    (hd : (u.deliveredOf i.queue i.count).isSome = true) (hi : t.thyme.issues ⊆ (u.countDelivered i).thyme.issues)
    (ht : t.deliveredOf i.queue i.count = (u.countDelivered i).deliveredOf i.queue i.count) : s.Releases t i where
  issues := hu ▸ hi
  delivered := State.hasDelivered_iff.2 (ht ▸ State.hasDelivered_iff.1 (State.countDelivered_hasDelivered hd))

theorem State.deliveredOf_of_job {s : State} {q : Nat} {c : BitVec 17} {j : Job} (h : s.job? q c = some j) :
    s.deliveredOf q c = some j.deliveredIdx := by
  rw [State.deliveredOf, h, Option.map_some]

/-- A CHIVE slice's share of its job's record is in place, and the slice is marked as delivered (R160, R183). -/
def State.chiveShare (s : State) (i : Issue) (j : Job) (x : Slice) : State :=
  let r := ({ j with jrec := x.inputs.getD j.jrec } : Job).runChive i.keys i.slice x.buf
  let u := s.setJob j.queue j.count fun y => { y with
    jrec := if x.inputs.isSome then y.jrec else r.jrec, made := r.made, madeOld := r.madeOld }
  u.setSlice j.queue j.count i.slice fun y => { y with
    state := .delivered, inputs := some (y.inputs.getD j.jrec), out := [], fault := none }

theorem State.chiveShare_deliveredOf (s : State) (i : Issue) (j : Job) (x : Slice) (q : Nat) (c : BitVec 17) :
    (s.chiveShare i j x).deliveredOf q c = s.deliveredOf q c := by
  rw [State.chiveShare, State.setSlice_deliveredOf]
  exact s.setJob_deliveredOf _ _ _ _ _ fun _ => ⟨rfl, rfl, rfl⟩

/-- A CHIVE slice is counted, and its output goes to the staging buffer, to the lane's output buffer, or nowhere (R153, R178, R181). -/
theorem State.releaseChive_cases (s : State) (i : Issue) (j : Job) (x : Slice) :
    let u := (s.chiveShare i j x).countDelivered i
    (∃ f, s.releaseChive i j x = u.setSlice j.queue j.count i.slice f) ∨
    ∃ out, let v := u.toDill j i.slice out
      (∃ outs, s.releaseChive i j x = { v with thyme := { v.thyme with outs := outs } }) ∨
      s.releaseChive i j x = (v.dropSlice j.queue j.count i.slice).afterPass j.queue j.count i.slice := by
  rw [State.releaseChive]
  dsimp only
  split
  · exact .inl ⟨_, rfl⟩
  · split
    · exact .inr ⟨_, .inl ⟨_, rfl⟩⟩
    · exact .inr ⟨_, .inr rfl⟩

section
variable {s : State} {i : Issue} {j : Job} (x : Slice) (hj : s.job? i.queue i.count = some j)
include hj

theorem State.releaseDill_releases : s.Releases (s.releaseDill i j x) i := by
  refine State.releases_of_counted (u := s.dillDeliver j i.keys i.slice x.buf) (by simp) ?_ ?_ ?_
  · rw [State.dillDeliver_deliveredOf, State.deliveredOf_of_job hj, Option.isSome_some]
  · exact State.afterPass_issues ..
  · simp [State.releaseDill]

theorem State.releaseChive_releases : s.Releases (s.releaseChive i j x) i := by
  refine State.releases_of_counted (u := s.chiveShare i j x) rfl ?_ ?_ ?_
  · rw [State.chiveShare_deliveredOf, State.deliveredOf_of_job hj, Option.isSome_some]
  · rcases s.releaseChive_cases i j x with ⟨f, h⟩ | ⟨out, ⟨outs, h⟩ | h⟩ <;> rw [h]
    · exact List.Subset.refl _
    · rw [State.toDill_thyme]
      exact List.Subset.refl _
    · refine List.Subset.trans (State.afterPass_issues ..) ?_
      rw [State.dropSlice_thyme, State.toDill_thyme]
      exact List.Subset.refl _
  · rcases s.releaseChive_cases i j x with ⟨f, h⟩ | ⟨out, ⟨outs, h⟩ | h⟩ <;> rw [h]
    · exact State.setSlice_deliveredOf ..
    · exact State.toDill_deliveredOf ..
    · rw [State.afterPass_deliveredOf, State.dropSlice_deliveredOf, State.toDill_deliveredOf]

theorem State.release_releases (hx : j.slice? i.slice = some x) : s.Releases (s.release i) i := by
  rw [State.release, hj]
  dsimp only
  rw [hx]
  dsimp only
  split
  · exact State.releaseDill_releases x hj
  · exact State.releaseChive_releases x hj

end

theorem State.release_issues (s : State) (i : Issue) : (s.release i).thyme.issues ⊆ s.thyme.issues := by
  cases hj : s.job? i.queue i.count with
  | none => simp [State.release, hj]
  | some j =>
    cases hx : j.slice? i.slice with
    | none => simp [State.release, hj, hx]
    | some x => exact (State.release_releases x hj hx).issues

end Sys2Proof.Machine
end

section
/-! PROOF. Slice results (R21, R56, R182, R183, R383, R385, R389): what a verdict does to a slice, to its issues and to its lane, and the statement SliceResultJudged. -/

namespace Sys2Proof.Machine

/-! ## Verdicts -/

section
variable (s : State) (i : Issue) (sig : BitVec 64)

/-- Marking the lanes of a list of votes for suspension moves nothing of THYME. -/
theorem State.suspendAll_thyme (u : LaneKind) (votes : List (Nat × BitVec 64)) :
    (votes.foldl (fun s v => s.toSuspend u v.1 false) s).thyme = s.thyme :=
  foldl_keeps State.thyme (fun s (v : Nat × BitVec 64) => s.toSuspend u v.1 false) (fun _ _ => rfl) _ _

theorem State.referee_issues (votes : List (Nat × BitVec 64)) : (s.referee i sig votes).thyme.issues ⊆ s.thyme.issues := by
  unfold State.referee
  split
  · exact List.Subset.trans (State.release_issues ..) (by rw [State.suspendAll_thyme]; exact List.Subset.refl _)
  · exact List.Subset.trans (State.sliceFails_issues ..) (by rw [State.suspendAll_thyme]; exact List.Subset.refl _)

theorem State.passes_issues : (s.passes i sig).thyme.issues ⊆ s.thyme.issues := by
  unfold State.passes
  split
  · exact State.referee_issues ..
  · split
    · exact List.Subset.refl _
    · exact State.release_issues ..

end

section
variable {s : State} {i : Issue} {j : Job} {x : Slice} (hj : s.job? i.queue i.count = some j) (hx : j.slice? i.slice = some x)
  (hv : x.votes = []) (sig : BitVec 64)
include hj hx

section
include hv

/-- A pass of a slice without votes is released, unless it is the first of a verified domain that ran alone (R56). -/
theorem State.passes_of_noVotes : s.passes i sig =
    if i.partner.isNone && (s.planOf i.domain).any (·.verified) then s.awaitSecond i sig else s.release i := by
  rw [State.passes, hj, Option.bind_some, hx, Option.map_some, hv]

theorem State.passes_delivers (h : i.partner ≠ none ∨ ¬(s.planOf i.domain).any (·.verified) = true) :
    (s.passes i sig).hasDelivered i.queue i.count i.slice := by
  rw [State.passes_of_noVotes hj hx hv, if_neg]
  · exact (State.release_releases x hj hx).delivered
  · simp only [Bool.and_eq_true, Option.isNone_iff_eq_none]
    exact fun ⟨hp, hver⟩ => h.elim (· hp) (· hver)

end

/-- A pass that awaits its second keeps its signature, and delivers nothing (R56). -/
theorem State.awaitSecond_job : ∃ j' x', (s.awaitSecond i sig).job? i.queue i.count = some j' ∧ j'.deliveredIdx = j.deliveredIdx ∧
    j'.slice? i.slice = some x' ∧ x'.state = .staged ∧ x'.retry = true ∧ x'.votes = [(i.lane, sig)] ∧ x'.eligible = s.thyme.tick + 1 :=
  ⟨_, _, State.job?_setSlice hj _ _, rfl, Job.slice?_withSlice hx fun _ => rfl, rfl, rfl, rfl, rfl⟩

end

/-! ## One issue or two -/

section
variable (s : State) (i : Issue) (sig : BitVec 64)

/-- No issue of the slice is left, but tests of its lane (R182). -/
theorem State.endIssues_ended {x : Issue} (h : x ∈ (s.endIssues i).thyme.issues) :
    ¬(x.queue = i.queue ∧ x.count = i.count ∧ x.slice = i.slice ∧ x.gen = i.gen ∧ x.role ≠ .test) := by
  rintro ⟨hq, hc, hs, hg, hr⟩
  have := (List.mem_filter.1 h).2
  simp [hq, hc, hs, hg, hr] at this

theorem State.resolveOne_pass : s.resolveOne i .pass sig = (s.endIssues i).passes i sig := rfl

/-- A failure marks the lane, and the slice fails once; from a flit check its payload is read again (R183, R184, R389). -/
theorem State.resolveOne_fails {v : Verdict} (h : v ≠ .pass) :
    s.resolveOne i v sig = ((s.endIssues i).toSuspend i.unit i.lane true).sliceFails i 1 (v == .failFlit) [] := by
  cases v with
  | pass => exact absurd rfl h
  | fail => rfl
  | failFlit => rfl

theorem State.resolveOne_issues (v : Verdict) : (s.resolveOne i v sig).thyme.issues ⊆ (s.endIssues i).thyme.issues := by
  by_cases h : v = .pass
  · subst h
    exact State.passes_issues ..
  · rw [State.resolveOne_fails s i sig h]
    exact State.sliceFails_issues ..

variable (b : Issue) (sb : BitVec 64)

/-- Two passes with one signature are one (R385). -/
theorem State.resolveTwo_agree : s.resolveTwo i b .pass .pass sig sig = (s.endIssues i).passes i sig := by
  simp [State.resolveTwo]

theorem State.resolveTwo_issues (v vb : Verdict) : (s.resolveTwo i b v vb sig sb).thyme.issues ⊆ (s.endIssues i).thyme.issues := by
  have hmark (w : State) (p : Bool) (u : LaneKind) (l : Nat) : (if p then w else w.toSuspend u l true).thyme = w.thyme := by
    cases p <;> rfl
  unfold State.resolveTwo
  dsimp only
  generalize hu : (if vb == .pass then _ else _ : State) = u
  have hthyme : u.thyme = (s.endIssues i).thyme := by rw [← hu, hmark, hmark]
  rw [← hthyme]
  split
  · split
    · exact State.passes_issues ..
    · exact List.Subset.trans (State.sliceFails_issues ..) (by rw [State.suspendAll_thyme]; exact List.Subset.refl _)
  · exact State.sliceFails_issues ..
  · exact State.sliceFails_issues ..
  · exact State.sliceFails_issues ..

end

/-! ## What a verdict makes of a slice -/

section
variable {s : State} {i : Issue} {sig : BitVec 64}

/-- A failure marks the lane for suspension (R389). -/
theorem State.resolveOne_lane {v : Verdict} (hv : v ≠ .pass) :
    (s.resolveOne i v sig).sorrel.failedNow = s.sorrel.failedNow ++ [(i.unit, i.lane, true)] := by
  have hstill : (s.resolveOne i v sig).still = ((s.endIssues i).toSuspend i.unit i.lane true).still := by
    rw [State.resolveOne_fails s i sig hv, State.sliceFails_still]
  exact congrArg (fun t : State => t.sorrel.failedNow) hstill

variable {j : Job} {x : Slice} (hj : s.job? i.queue i.count = some j) (hx : j.slice? i.slice = some x)
include hj hx

theorem State.resolveOne_delivers (hv : x.votes = []) (h : ¬(s.planOf i.domain).any (·.verified) = true) :
    (s.resolveOne i .pass sig).hasDelivered i.queue i.count i.slice :=
  State.passes_delivers (s := s.endIssues i) hj hx hv sig (.inr h)

/-- Two passes that agree deliver the slice (R385). -/
theorem State.resolveTwo_delivers (hv : x.votes = []) (hp : i.partner ≠ none) (b : Issue) :
    (s.resolveTwo i b .pass .pass sig sig).hasDelivered i.queue i.count i.slice :=
  s.resolveTwo_agree i sig b ▸ State.passes_delivers (s := s.endIssues i) hj hx hv sig (.inl hp)

/-- A verified slice that ran alone keeps its signature for a second run (R56). -/
theorem State.resolveOne_awaits (hv : x.votes = []) (hp : i.partner = none) (h : (s.planOf i.domain).any (·.verified) = true) :
    ∃ j' x', (s.resolveOne i .pass sig).job? i.queue i.count = some j' ∧ j'.deliveredIdx = j.deliveredIdx ∧
      j'.slice? i.slice = some x' ∧ x'.state = .staged ∧ x'.retry = true ∧ x'.votes = [(i.lane, sig)] ∧ x'.eligible = s.thyme.tick + 1 := by
  have halone : (i.partner.isNone && ((s.endIssues i).planOf i.domain).any (·.verified)) = true :=
    Bool.and_eq_true_iff.2 ⟨by rw [hp]; rfl, h⟩
  rw [State.resolveOne_pass, State.passes_of_noVotes (s := s.endIssues i) hj hx hv, if_pos halone]
  exact State.awaitSecond_job (s := s.endIssues i) hj hx sig

theorem State.resolveOne_retries (hn : x.fails < 2) (hr : x.retry = false) :
    ∃ j' x', (s.resolveOne i .fail sig).job? i.queue i.count = some j' ∧ j'.retried = true ∧ j'.slice? i.slice = some x' ∧
      x'.state = .staged ∧ x'.retry = true ∧ x'.fails = x.fails + 1 ∧ x'.eligible = s.thyme.tick + 1 :=
  State.sliceFails_retry (s := (s.endIssues i).toSuspend i.unit i.lane true) hj hx hn hr

theorem State.resolveOne_endsJob {v : Verdict} (hv : v ≠ .pass) (hn : 2 ≤ x.fails) (hs : j.status = none) :
    (s.resolveOne i v sig).endedWith i.queue i.count .flitCheckFail :=
  State.resolveOne_fails s i sig hv ▸ State.sliceFails_third (s := (s.endIssues i).toSuspend i.unit i.lane true) hj hx hn hs _

end

/-! ## The command -/

section
variable (s : State) (v : Option Verdict) (i : Issue)

@[simp] theorem State.traceIssue_fennel : (s.traceIssue v i).fennel = s.fennel := by
  unfold State.traceIssue
  split <;> rfl

@[simp] theorem State.traceIssue_thyme : (s.traceIssue v i).thyme = s.thyme := by
  unfold State.traceIssue
  split <;> rfl

@[simp] theorem State.traceIssue_sorrel : (s.traceIssue v i).sorrel = s.sorrel := by
  unfold State.traceIssue
  split <;> rfl

end

theorem exec_sliceResult (u : LaneKind) (l : Nat) (g : BitVec 12) (v : Verdict) (sig : BitVec 64) (s : State) :
    exec (.sliceResult u l g v sig) s = execSliceResult u l g v sig s := rfl

section
variable {u : LaneKind} {l : Nat} {g : BitVec 12} {s : State} {i : Issue} (v : Verdict) (sig : BitVec 64)
  (hi : s.thyme.issues.find? (fun i => i.unit == u && i.lane == l && i.gen == g && i.delivered.isNone) = some i)
include hi

/-- The issue that a result is for has the result's lane and generation. -/
theorem issue_key : i.unit = u ∧ i.lane = l ∧ i.gen = g := by
  have := List.find?_some hi
  simp only [Bool.and_eq_true, beq_iff_eq] at this
  obtain ⟨⟨⟨hu, hl⟩, hg⟩, -⟩ := this
  exact ⟨hu, hl, hg⟩

theorem exec_sliceResult_test (hr : i.role = .test) : exec (.sliceResult u l g v sig) s = .next
    (({ s with thyme := { s.thyme with issues := s.thyme.issues.filter (· != i) } } : State).testResult u l (v == .pass)) := by
  simp [exec_sliceResult, execSliceResult, onSome, done, hi, hr]

variable (hr : i.role ≠ .test)
include hr

theorem exec_sliceResult_alone (hp : i.partner = none) :
    exec (.sliceResult u l g v sig) s = .next ((s.traceIssue (some v) i).resolveOne i v sig).flow := by
  simp [exec_sliceResult, execSliceResult, onSome, done, hi, hr, hp]

section
variable {p : Nat} (hp : i.partner = some p)
include hp

theorem exec_sliceResult_partnerGone (hb : s.thyme.issues.find? (fun x => x.unit == u && x.lane == p && x.gen == g && x.slice == i.slice
      && x.queue == i.queue && x.count == i.count) = none) :
    exec (.sliceResult u l g v sig) s = .next ((s.traceIssue (some v) i).resolveOne i v sig).flow := by
  simp [exec_sliceResult, execSliceResult, onSome, done, hi, hr, hp, hb]

variable {b : Issue} (hb : s.thyme.issues.find? (fun x => x.unit == u && x.lane == p && x.gen == g && x.slice == i.slice
  && x.queue == i.queue && x.count == i.count) = some b)
include hb

theorem exec_sliceResult_first (hd : b.delivered = none) : exec (.sliceResult u l g v sig) s =
    .next { s.traceIssue (some v) i with thyme := { (s.traceIssue (some v) i).thyme with
      issues := s.thyme.issues.map fun x => if x == i then { x with delivered := some (v, sig) } else x } } := by
  simp [exec_sliceResult, execSliceResult, onSome, done, hi, hr, hp, hb, hd]

theorem exec_sliceResult_second {vb : Verdict} {sb : BitVec 64} (hd : b.delivered = some (vb, sb)) :
    exec (.sliceResult u l g v sig) s = .next (if i.role = .shadow then (s.traceIssue (some v) i).resolveTwo b i vb v sb sig
      else (s.traceIssue (some v) i).resolveTwo i b v vb sig sb).flow := by
  simp [exec_sliceResult, execSliceResult, onSome, done, hi, hr, hp, hb, hd]

end

end

theorem exec_sliceResult_stale {u : LaneKind} {l : Nat} {g : BitVec 12} (v : Verdict) (sig : BitVec 64) {s : State}
    (h : ∀ i ∈ s.thyme.issues, ¬(i.unit = u ∧ i.lane = l ∧ i.gen = g ∧ i.delivered = none)) : exec (.sliceResult u l g v sig) s = .next s := by
  have hnone : s.thyme.issues.find? (fun i => i.unit == u && i.lane == l && i.gen == g && i.delivered.isNone) = none := by
    refine List.find?_eq_none.2 fun i hi hmatch => h i hi ?_
    simpa [and_assoc] using hmatch
  simp [exec_sliceResult, execSliceResult, onSome, done, hnone]

/-- The partner's issue is one of the same slice and tick. -/
theorem partner_key {is : List Issue} {u : LaneKind} {p : Nat} {g : BitVec 12} {i b : Issue}
    (h : is.find? (fun x => x.unit == u && x.lane == p && x.gen == g && x.slice == i.slice && x.queue == i.queue && x.count == i.count) = some b) :
    b.queue = i.queue ∧ b.count = i.count ∧ b.slice = i.slice ∧ b.gen = g := by
  have := List.find?_some h
  simp only [Bool.and_eq_true, beq_iff_eq] at this
  obtain ⟨⟨⟨⟨-, hg⟩, hs⟩, hq⟩, hc⟩ := this
  exact ⟨hq, hc, hs, hg⟩

/-- Settles O6: each form of the command is one of the lemmas above, with what resolveOne or resolveTwo makes of the slice; the trace of the verdict moves neither jobs nor THYME. -/
theorem sliceResultJudged : Obligations.SliceResultJudged := by
  unfold Obligations.SliceResultJudged
  intro u l g v sig s
  refine ⟨exec_sliceResult_stale v sig, fun i hi => ?_⟩
  obtain ⟨hunit, hlane, hgen⟩ := issue_key hi
  intro mine delivers
  refine ⟨exec_sliceResult_test v sig hi, ?_⟩
  intro r verified
  have hjob : r.job? i.queue i.count = s.job? i.queue i.count := State.job?_of_fennel (s.traceIssue_fennel (some v) i) _ _
  have hthyme : r.thyme = s.thyme := s.traceIssue_thyme (some v) i
  have htick : r.thyme.tick = s.thyme.tick := congrArg Thyme.tick hthyme
  have hplan : r.planOf i.domain = s.planOf i.domain := congrArg (fun t : Thyme => t.compiled.lookup i.domain) hthyme
  have hlanes : r.sorrel.failedNow = s.sorrel.failedNow :=
    congrArg Sorrel.failedNow (s.traceIssue_sorrel (some v) i)
  refine ⟨fun hr hp => ?alone, fun hr p hp hb => exec_sliceResult_partnerGone v sig hi hr hp hb,
    fun hr p b hp hb => ⟨exec_sliceResult_first v sig hi hr hp hb, fun vb sb hd => ?second⟩⟩
  case alone =>
    intro w
    refine ⟨exec_sliceResult_alone v sig hi hr hp, fun x hx => State.endIssues_ended _ _ (State.resolveOne_issues _ _ _ _ hx),
      fun hv => ?lane, fun hv hnot j x hj hx hvotes => ?delivered, fun hv hver j x hj hx hvotes => ?awaits,
      fun hv j x hj hx hn hretry => ?retry, fun hv j x hj hx hn hs => ?third⟩
    case lane =>
      rw [← hlanes, ← hunit, ← hlane]
      exact State.resolveOne_lane hv
    case delivered =>
      subst hv
      exact State.resolveOne_delivers (hjob.trans hj) hx hvotes (hplan ▸ hnot)
    case awaits =>
      subst hv
      rw [← htick]
      exact State.resolveOne_awaits (hjob.trans hj) hx hvotes hp (hplan ▸ hver)
    case retry =>
      subst hv
      rw [← htick]
      exact State.resolveOne_retries (hjob.trans hj) hx hn hretry
    case third => exact State.resolveOne_endsJob (hjob.trans hj) hx hv hn hs
  case second =>
    intro w
    obtain ⟨hq, hc, hs, hg⟩ := partner_key hb
    have hsame {x : Issue} : mine x ↔ x.queue = b.queue ∧ x.count = b.count ∧ x.slice = b.slice ∧ x.gen = b.gen ∧ x.role ≠ .test := by
      rw [hq, hc, hs, hg, ← hgen]
    refine ⟨exec_sliceResult_second v sig hi hr hp hb hd, ?_⟩
    by_cases hrole : i.role = .shadow
    · have hw : w = r.resolveTwo b i vb v sb sig := if_pos hrole
      rw [hw]
      refine ⟨fun x hx => mt hsame.1 (State.endIssues_ended _ _ (State.resolveTwo_issues _ _ _ _ _ _ _ hx)),
        fun hv hvb hsb hpb j x hj hx hvotes => ?_⟩
      subst hv hvb hsb
      have hdel := State.resolveTwo_delivers (s := r) (i := b) (sig := sb) (by rw [hq, hc, hjob, hj]) (by rw [hs, hx]) hvotes hpb i
      rwa [hq, hc, hs] at hdel
    · have hw : w = r.resolveTwo i b v vb sig sb := if_neg hrole
      rw [hw]
      refine ⟨fun x hx => State.endIssues_ended _ _ (State.resolveTwo_issues _ _ _ _ _ _ _ hx), fun hv hvb hsb _ j x hj hx hvotes => ?_⟩
      subst hv hvb hsb
      exact State.resolveTwo_delivers (hjob.trans hj) hx hvotes (by simp [hp]) b

end Sys2Proof.Machine
end

section
/-! PROOF. Q1's control jobs, fences and no-ops (R130, R289, R299 to R301): the statement ControlJobs. -/

namespace Sys2Proof.Machine

/-- A command that finds what it needs answers with its effect on it. -/
theorem onSome_of_eq {α : Type} {o : Option α} {x : α} (h : o = some x) (s : State) (f : α → State) : onSome o s f = .next (f x) := by
  rw [h, onSome, done]

section
variable {c : BitVec 17} {s : State} {j : Job}

theorem exec_adjust (h : s.controlJob c 0x01 = some j) :
    exec (.adjust c) s = .next (if s.sage.modeSoon = .fw then
      s.controlDone c (.adjust (fieldInt j.image 8 8) (BitVec.ofNat 32 (fieldLe j.image 16 4)))
    else (s.endJob 1 c .unsupported).flow) := by
  refine (onSome_of_eq h s _).trans ?_
  simp only [beq_iff_eq, State.controlEnds]

theorem exec_step (h : s.controlJob c 0x02 = some j) :
    exec (.step c) s = .next (match (stepTarget j.image).time s.sage.now with
      | none => (s.endJob 1 c .malformed).flow
      | some v =>
        let p : PendingStep := { target := stepTarget j.image, eStep := some (BitVec.ofNat 32 (fieldLe j.image 20 4)) }
        if endTime ≤ v then (s.endJob 1 c .malformed).flow
        else ((s.setSage fun g => { g with pendingStep := some p }).endJob 1 c .ok).flow) :=
  (onSome_of_eq h s _).trans rfl

/-- A KEY_ENTRY of kind 0 clears its entry (R299). -/
theorem exec_keyEntry_clears (h : s.controlJob c 0x05 = some j) (hk : timeKeyOf j.image = none) :
    exec (.keyEntry c) s = .next (s.controlDone c (.keyEntry (byteAt j.image 4).toNat none)) := by
  refine (onSome_of_eq h s _).trans ?_
  simp only [hk]

section
variable {k : TimeKey}

/-- A KEY_ENTRY whose key_id another entry carries in a common direction is refused (R300). -/
theorem exec_keyEntry_clash (h : s.controlJob c 0x05 = some j) (hk : timeKeyOf j.image = some k) (hc : s.sage.keyClash k = true) :
    exec (.keyEntry c) s = .next (s.endJob 1 c .malformed).flow := by
  refine (onSome_of_eq h s _).trans ?_
  simp only [hk, hc, if_true, State.controlEnds]

/-- A KEY_ENTRY follows what the look-up of its keys answers (R194, R301). -/
theorem exec_keyEntry_looks (h : s.controlJob c 0x05 = some j) (hk : timeKeyOf j.image = some k) (hc : s.sage.keyClash k = false)
    {u : State} {r : KeyStep} (hl : s.lookKeys j k.handles = (u, r)) :
    exec (.keyEntry c) s = .next (if r = .wait then u.flow
      else if r = .ok ∧ (k.handles.all fun h => (u.recOf j.domain h).any k.suits) = true then
        u.controlDone c (.keyEntry (byteAt j.image 4).toNat (some k))
      else (u.endJob 1 c .keyDenied).flow) := by
  refine (onSome_of_eq h s _).trans ?_
  simp only [hk, hc, hl]
  cases r with
  | wait => rfl
  | fail st => rfl
  | ok => simp [State.controlEnds]

end
end

/-- A 0x7F entry at its command phase is in its turn, as a fence or as a no-op (R130). -/
theorem State.plainJob_of {q : Nat} {c : BitVec 17} {s : State} {j : Job} (hq : q ≠ 0) (h : s.job? q c = some j)
    (ho : eOp j.entry = 0x7F) (hp : j.phase = .command) : s.plainJob q c (bit (eSub j.entry) 0) = some j := by
  simp [State.plainJob, h, hq, ho, hp, Option.filter]

/-- Settles O32: each command's meaning on the job that controlJob or plainJob finds; a key entry by the answer of lookKeys. -/
theorem controlJobs : Obligations.ControlJobs := by
  unfold Obligations.ControlJobs
  refine ⟨fun c s j => exec_adjust, fun c s j => exec_step, fun c s j h => ?sample, fun c s j h => ?mode, fun c s j h => ?utc,
    fun c s j h => ⟨exec_keyEntry_clears h, fun k hk => ⟨exec_keyEntry_clash h hk, fun hc u r => exec_keyEntry_looks h hk hc⟩⟩,
    fun q c s j hq h ho hp => ?plain, fun c s x => rfl⟩
  case sample => exact (onSome_of_eq h s _).trans rfl
  case mode => exact onSome_of_eq h s _
  case utc => exact onSome_of_eq h s _
  case plain =>
    have turn := State.plainJob_of hq h ho hp
    exact ⟨fun hb => onSome_of_eq (hb ▸ turn) s _, fun hb => onSome_of_eq (hb ▸ turn) s _⟩

end Sys2Proof.Machine
end

section
/-! PROOF. The authentication pipeline from start to handover, and the IV rule of R302 (R302 to R308, R469): the statement PipelineRule. -/

namespace Sys2Proof.Machine

/-! ## What a write and the end of a job leave alone -/

section
variable (s : State)

@[simp] theorem State.issueAt_outbox (pos : Nat) (op : RurenOp) (cls : TClass) (d a n : Nat) (data : Bytes) (mk : Nat → Purpose) :
    (s.issueAt pos op cls d a n data mk).outbox = s.outbox := by
  unfold State.issueAt
  exact foldl_keeps State.outbox _ (by intros; rfl) _ _

@[simp] theorem State.writeDst_outbox (j : Job) (cls : TClass) (off : Nat) (data : Bytes) (mk : Nat → Purpose) :
    (s.writeDst j cls off data mk).outbox = s.outbox := by
  unfold State.writeDst State.writeDstAt
  exact foldl_keeps State.outbox _ (fun _ _ => State.issueAt_outbox ..) _ _

@[simp] theorem State.writeDst_still (j : Job) (cls : TClass) (off : Nat) (data : Bytes) (mk : Nat → Purpose) :
    (s.writeDst j cls off data mk).still = s.still := by
  unfold State.writeDst State.writeDstAt
  exact foldl_keeps State.still _ (fun _ _ => State.issueAt_still ..) _ _

@[simp] theorem State.clearLog_outbox (j : Job) : (s.clearLog j).outbox = s.outbox := by
  unfold State.clearLog
  split <;> rfl

end

theorem State.issueFrom_outbox (q fuel : Nat) (c : BitVec 17) (s : State) : (State.issueFrom q fuel c s).outbox = s.outbox := by
  induction fuel generalizing c s with
  | zero => rfl
  | succ n ih =>
    unfold State.issueFrom
    split
    · split
      · exact ih _ _
      · split
        · exact (ih _ _).trans (State.issueAt_outbox ..)
        · rfl
    · rfl

@[simp] theorem State.issueCompletions_outbox (s : State) (q : Nat) : (s.issueCompletions q).outbox = s.outbox := by
  unfold State.issueCompletions
  split
  · rfl
  · exact State.issueFrom_outbox ..

@[simp] theorem State.settle_outbox (s : State) (q : Nat) (c : BitVec 17) : (s.settle q c).outbox = s.outbox := by
  unfold State.settle
  split
  · rfl
  · split <;> simp

theorem State.stopJob_outbox (s : State) (q : Nat) (c : BitVec 17) (st : Status) (j : Job) (z : Nat) :
    (s.stopJob q c st j z).outbox = s.outbox := by
  unfold State.stopJob
  dsimp only
  split <;> split <;> rfl

/-- The end of a job sends nothing to a partner port. -/
@[simp] theorem State.endJob_outbox (s : State) (q : Nat) (c : BitVec 17) (st : Status) : (s.endJob q c st).outbox = s.outbox := by
  obtain ⟨z, hz⟩ := s.endJob_eq q c st
  rw [hz]
  by_cases h : ∃ j, s.job? q c = some j ∧ j.status = none
  · obtain ⟨j, hj, hs⟩ := h
    rw [State.endJobZ_open hj hs, State.settle_outbox, State.stopJob_outbox]
  · rw [State.endJobZ_closed fun j hj hs => h ⟨j, hj, hs⟩]

section
variable {s : State} {q : Nat} {c : BitVec 17}

/-- An open job that is ended has the status it is ended with. -/
theorem State.endJobZ_ends (h : s.statusOf q c = some none) (st : Status) (z : Nat) : (s.endJobZ q c st z).endedWith q c st := by
  rw [State.endedWith_iff, State.endJobZ_statusOf, if_pos ⟨rfl, rfl⟩, h]
  rfl

theorem State.endJob_ends (h : s.statusOf q c = some none) (st : Status) : (s.endJob q c st).endedWith q c st := by
  obtain ⟨z, hz⟩ := s.endJob_eq q c st
  exact hz ▸ State.endJobZ_ends h st z

end

/-- Work in progress moves nothing of SAGE. -/
theorem State.sage_of_still {s t : State} (h : t.still = s.still) : t.sage = s.sage := by
  have hsage : t.still.sage = s.still.sage := congrArg State.sage h
  exact hsage

/-! ## T0 -/

/-- A message that fails at T0 enters the pipeline in this tick with its status (R303). -/
theorem State.startFailed_enters (s : State) (j : Job) (st : Status) :
    ∃ m ∈ (s.startFailed j st).sage.pipe, m.count = j.count ∧ m.start = s.thyme.tick ∧ m.result = some (st, []) := by
  rw [State.startFailed, State.startMessage, State.sage_of_still (State.flow_still _)]
  exact ⟨_, List.mem_append_right _ (List.mem_singleton_self _), rfl, rfl, rfl⟩

/-- A message whose form and entry pass follows what the look-up of its keys answers (R194, R197). -/
theorem exec_pipelineStart_looks {c : BitVec 17} {s u : State} {j : Job} {n : PipeNeeds} {r : KeyStep} (h : s.startable c = some j)
    (hn : s.pipeNeeds j = .ok n) : s.lookKeys j n.handles = (u, r) → exec (.pipelineStart c) s = .next (match r with
      | .wait => u.flow
      | .fail _ => u.startFailed j .keyDenied
      | .ok => if j.charged || u.usesKnown j.domain n.handles then u.startChecked j n else u.flow) := by
  intro hl
  refine (onSome_of_eq h s _).trans ?_
  cases r <;> simp only [hn, hl]

theorem exec_pipelineStart_refused {c : BitVec 17} {s : State} {j : Job} {st : Status} (h : s.startable c = some j)
    (hn : s.pipeNeeds j = .error st) : exec (.pipelineStart c) s = .next (s.startFailed j st) := by
  refine (onSome_of_eq h s _).trans ?_
  simp only [hn]

/-! ## T4 -/

/-- The destination of a 0x04 or a 0x05 cannot hold what the message gives (R116, R135, notes/assumptions/106). -/
def Job.misfits (j : Job) (st : Status) (out : Bytes) : Prop :=
  (eSub j.entry = 0x04 ∨ eSub j.entry = 0x05) ∧ (st = .ok ∨ out ≠ []) ∧ j.dstFits out.length = false

section
variable {s : State} {j : Job} {m : PipeMsg} {st : Status} {out : Bytes} {refused : Bool}

/-- finishMessage judges the destination by Job.misfits. -/
theorem Job.misfits_iff : j.misfits st out ↔
    ((eSub j.entry == 0x04 || eSub j.entry == 0x05) && (st == .ok || !out.isEmpty) && !j.dstFits out.length) = true := by
  simp [Job.misfits, and_assoc]

theorem State.finishMessage_misfit (h : j.misfits st out) : s.finishMessage j m st out refused = s.endJobZ 1 j.count .malformed 0 := by
  unfold State.finishMessage
  exact if_pos (Job.misfits_iff.1 h)

theorem State.finishMessage_failed (h : ¬j.misfits st out) (hs : st ≠ .ok) :
    s.finishMessage j m st out refused = s.endJobZ 1 j.count st (if eSub j.entry == 0x04 then out.length else 0) := by
  unfold State.finishMessage
  rw [if_neg (mt Job.misfits_iff.2 h), if_pos (by simp [hs])]

/-- A refused frame has put its header and its first data word on the link (R469). -/
theorem State.finishMessage_refused (h : ¬j.misfits .ok out) (he : isEgress (eSub j.entry) = true) :
    s.finishMessage j m .ok out true =
      (s.emit (.handoverRefused (j.timeByte 0 % 16) (m.launch.getD 0) (out.take 32))).endJob 1 j.count .resourceBusy := by
  unfold State.finishMessage
  rw [if_neg (mt Job.misfits_iff.2 h), if_neg (by simp), if_pos (by simp [he])]

/-- The write of a message that is done, with the launch time that its completion names (R304). -/
def State.writeMessage (s : State) (j : Job) (m : PipeMsg) (out : Bytes) : State :=
  (s.setJob 1 j.count fun j => { j with time := m.launch, wroteOutput := !out.isEmpty }).writeDst j (s.payloadClass j.domain) 0 out
    fun o => .output 1 j.count 0 o

theorem State.finishMessage_done (h : ¬j.misfits .ok out) (hr : isEgress (eSub j.entry) = true → refused = false) :
    s.finishMessage j m .ok out refused =
      ((if isEgress (eSub j.entry) then s.emit (.handover (j.timeByte 0 % 16) (m.launch.getD 0) out) else s).writeMessage j m out).endJob
        1 j.count .ok := by
  unfold State.finishMessage
  rw [if_neg (mt Job.misfits_iff.2 h), if_neg (by simp), if_neg (by simpa using hr)]
  rfl

theorem State.writeMessage_still : (s.writeMessage j m out).still = s.still := by
  simp [State.writeMessage]

theorem State.writeMessage_outbox : (s.writeMessage j m out).outbox = s.outbox := by
  simp [State.writeMessage]

theorem State.writeMessage_statusOf (q : Nat) (c : BitVec 17) : (s.writeMessage j m out).statusOf q c = s.statusOf q c :=
  (State.statusOf_of_fennel (State.writeDst_fennel ..) q c).trans (s.setJob_statusOf _ _ _ _ _ fun _ => ⟨rfl, rfl, rfl⟩)

/-- The end of a message that ran moves jobs, transfers and the outbox only. -/
theorem State.finishMessage_still : (s.finishMessage j m st out refused).still = s.still := by
  unfold State.finishMessage
  dsimp only
  split
  · exact State.endJobZ_still ..
  · split
    · exact State.endJobZ_still ..
    · split
      · rw [State.endJob_still, State.emit_still]
      · rw [State.endJob_still, State.writeDst_still, State.setJob_still]
        split
        · exact State.emit_still ..
        · rfl

/-- A message that is handed over is sent at its launch time, and its job ends OK (R304). -/
theorem State.finishMessage_done_ends (hj : s.statusOf 1 j.count = some none) (h : ¬j.misfits .ok out)
    (hr : isEgress (eSub j.entry) = true → refused = false) : (s.finishMessage j m .ok out refused).endedWith 1 j.count .ok ∧
      (isEgress (eSub j.entry) = true →
        Output.handover (j.timeByte 0 % 16) (m.launch.getD 0) out ∈ (s.finishMessage j m .ok out refused).outbox) := by
  rw [State.finishMessage_done h hr]
  refine ⟨State.endJob_ends ?_ .ok, fun he => ?_⟩
  · rw [State.writeMessage_statusOf, ← hj]
    split
    · exact State.statusOf_of_fennel rfl _ _
    · rfl
  · rw [State.endJob_outbox, State.writeMessage_outbox, if_pos he]
    exact List.mem_append_right _ (List.mem_singleton_self _)

/-- The link refuses a frame after its header and first data word, and the job ends RESOURCE_BUSY (R469). -/
theorem State.finishMessage_refused_ends (hj : s.statusOf 1 j.count = some none) (h : ¬j.misfits .ok out)
    (he : isEgress (eSub j.entry) = true) : (s.finishMessage j m .ok out true).endedWith 1 j.count .resourceBusy ∧
      Output.handoverRefused (j.timeByte 0 % 16) (m.launch.getD 0) (out.take 32) ∈ (s.finishMessage j m .ok out true).outbox := by
  rw [State.finishMessage_refused h he]
  refine ⟨State.endJob_ends ?_ _, ?_⟩
  · exact (State.statusOf_of_fennel rfl _ _).trans hj
  · rw [State.endJob_outbox]
    exact List.mem_append_right _ (List.mem_singleton_self _)

end

/-- T4 of message m of job j, before the block's own progress: an abandoned message is ABORTED, and a verdict that fails sends the job back (R304, R308). -/
def State.handedOver (s : State) (j : Job) (m : PipeMsg) (st : Status) (out : Bytes) (refused ok : Bool) : State :=
  let s := s.leavePipe j.count
  if m.abandoned then s.endJob 1 j.count .aborted
  else if !ok then s.setJob 1 j.count fun j => { j with phase := .command, retried := true }
  else s.finishMessage j m st out refused

theorem exec_pipelineHandover {c : BitVec 17} {s : State} {m : PipeMsg} {j : Job} {st : Status} {out : Bytes} (refused ok : Bool)
    (hm : s.sage.pipe.find? (·.count == c) = some m) (ht : m.start + 4 ≤ s.thyme.tick) (hj : s.job? 1 c = some j)
    (hr : m.result = some (st, out)) :
    exec (.pipelineHandover c refused ok) s = .next (s.handedOver j m st out refused ok).flow := by
  have found : (((s.sage.pipe.find? (·.count == c)).filter fun m => m.start + 4 ≤ s.thyme.tick).bind fun m =>
      (s.job? 1 c).bind fun j => m.result.map fun r => (m, j, r)) = some (m, j, st, out) := by
    simp [hm, ht, hj, hr, Option.filter]
  refine (onSome_of_eq found s _).trans ?_
  simp only [State.handedOver, (State.job?_num s hj).2, apply_ite State.flow]

/-- A message that has been handed over has left the pipeline. -/
theorem State.handedOver_leaves (s : State) (j : Job) (m : PipeMsg) (st : Status) (out : Bytes) (refused ok : Bool) :
    ∀ x ∈ (s.handedOver j m st out refused ok).sage.pipe, x.count ≠ j.count := by
  have hstill : (s.handedOver j m st out refused ok).still = (s.leavePipe j.count).still := by
    unfold State.handedOver
    dsimp only
    split
    · exact State.endJob_still ..
    · split
      · exact State.setJob_still ..
      · exact State.finishMessage_still
  intro x hx
  rw [State.sage_of_still hstill] at hx
  simpa using (List.mem_filter.1 hx).2

/-- A verdict that fails sends the job back to its turn, to run again (R308). -/
theorem State.job?_sentBack {s : State} {q : Nat} {c : BitVec 17} {j : Job} (h : s.job? q c = some j) :
    (s.setJob q c fun j => { j with phase := .command, retried := true }).job? q c = some { j with phase := .command, retried := true } :=
  State.job?_setJob_same h _ fun _ => ⟨rfl, rfl⟩

/-! ## The IV rule of R302 -/

section
variable {k : TimeKey} {b : Bytes}

theorem gmacNext_exhausted (h : 65535 ≤ k.generations) : gmacNext k b = .error .keyExhausted := if_pos h

/-- A message's sequence number that is not the last of its type plus one is refused. -/
theorem gmacNext_skips (h : k.generations < 65535) {v : BitVec 16} (hv : k.lastSeq.lookup (bits (byteAt b 0).toNat 3 0) = some v)
    (hn : BitVec.ofNat 16 (beNat (sub b 30 2)) ≠ v + 1) : gmacNext k b = .error .keyDenied := by
  rw [gmacNext, if_neg (Nat.not_le.2 h)]
  simpa [hv] using hn

/-- The first message of a type, and each that follows the last one, is counted. -/
theorem gmacNext_follows (h : k.generations < 65535)
    (hn : ∀ v, k.lastSeq.lookup (bits (byteAt b 0).toNat 3 0) = some v → BitVec.ofNat 16 (beNat (sub b 30 2)) = v + 1) :
    gmacNext k b = .ok { k with
      lastSeq := assocSet k.lastSeq (bits (byteAt b 0).toNat 3 0) (BitVec.ofNat 16 (beNat (sub b 30 2)))
      generations := k.generations + 1 } := by
  rw [gmacNext, if_neg (Nat.not_le.2 h)]
  cases hl : k.lastSeq.lookup (bits (byteAt b 0).toNat 3 0) with
  | none => rfl
  | some v => simp [hn v hl]

end

/-- Settles O33: T0 by the needs of the message and the look-up of its keys; T4 by the branches of handedOver and finishMessage; the IV rule by the last sequence number of the message's type. -/
theorem pipelineRule : Obligations.PipelineRule := by
  unfold Obligations.PipelineRule
  refine ⟨fun c s j h => ⟨fun st hn => ⟨exec_pipelineStart_refused h hn, s.startFailed_enters j st⟩,
    fun n u r hn hl => exec_pipelineStart_looks h hn hl⟩, ?handover, ?ivRule⟩
  case handover =>
    intro c refused ok s m j st out hm ht hj hs hr misfit
    obtain rfl : j.count = c := (State.job?_num s hj).2
    have hopen : (s.leavePipe j.count).statusOf 1 j.count = some none :=
      (State.statusOf_of_fennel (s := s) rfl _ _).trans (by rw [State.statusOf, hj, Option.map_some, hs])
    refine ⟨s.handedOver j m st out refused ok, exec_pipelineHandover refused ok hm ht hj hr, s.handedOver_leaves j m st out refused ok,
      ?_, ?_, ?_⟩
    · intro ha
      rw [State.handedOver, if_pos ha]
      exact State.endJob_ends hopen _
    · intro ha hok
      rw [State.handedOver, if_neg (by simp [ha]), if_pos (by simp [hok])]
      exact ⟨_, State.job?_sentBack hj, rfl, rfl, hs⟩
    · have hran (ha : m.abandoned = false) (hok : ok = true) :
          s.handedOver j m st out refused ok = (s.leavePipe j.count).finishMessage j m st out refused := by
        rw [State.handedOver, if_neg (by simp [ha]), if_neg (by simp [hok])]
      refine ⟨fun ha hok hmis => ?_, fun ha hok hmis hst => ?_, fun ha hok hmis hst he href => ?_, fun ha hok hmis hst href => ?_⟩
      · rw [hran ha hok, State.finishMessage_misfit hmis]
        exact State.endJobZ_ends hopen _ _
      · rw [hran ha hok, State.finishMessage_failed hmis hst]
        exact State.endJobZ_ends hopen _ _
      · subst hst href
        rw [hran ha hok]
        exact State.finishMessage_refused_ends hopen hmis he
      · subst hst
        rw [hran ha hok]
        exact State.finishMessage_done_ends hopen hmis href
  case ivRule => exact fun k b => ⟨gmacNext_exhausted, fun hg ⟨_, hv, hn⟩ => gmacNext_skips hg hv hn, gmacNext_follows⟩

end Sys2Proof.Machine
end

section
/-! PROOF. The ends of the symmetric jobs, and what the slices make over a message of one slice (R126, R149, R163, R164, R178, R205, R207, R227 to R229). Every clause of the statement SymmetricEnds is proved here as a theorem of its own, but the one of KEY_WRAP: it gives each job of the name its own made bytes as bytesDone, and the model those of the job that ends. The two agree where one job has the name (exec_wrapEnd), and differ in a state with two of them, which refutes the statement. -/

namespace Sys2Proof.Machine

/-! ## Lengths of the byte strings of the ciphers -/

@[simp] theorem leBytes_length (n v : Nat) : (leBytes n v).length = n := by
  induction n generalizing v with
  | zero => rfl
  | succ n ih => rw [leBytes, List.length_cons, ih]

@[simp] theorem cmacDbl_length (b : Bytes) : (cmacDbl b).length = 16 := by
  simp [cmacDbl, bitsBlock, beBytes]

@[simp] theorem xorB_length (a b : Bytes) : (xorB a b).length = min a.length b.length := List.length_zipWith

@[simp] theorem padTo_length (n : Nat) (b : Bytes) : (padTo n b).length = n := by
  rw [padTo, List.length_take, List.length_append, zeros, List.length_replicate]
  omega

/-! ## The end of each operation -/

section
variable {q : Nat} {c : BitVec 17} {s : State} {j : Job}

/-- A job whose slices have all delivered is at the end of its operation. -/
theorem State.atEnd_of (h : s.job? q c = some j) (hp : j.phase = .slices) (hd : j.allDelivered = true) {op : Nat} (ho : eOp j.entry = op)
    {f : Nat → Bool} (hf : f (eSub j.entry) = true) : s.atEnd q c op f = some j := by
  simp [State.atEnd, h, hp, hd, ho, hf, Option.filter]

theorem State.finishPlain_good (h : ∀ x ∈ j.slices, x.fault = none) : s.finishPlain j = (s.endJob j.queue j.count .ok).flow := by
  rw [State.finishPlain, if_neg]
  simpa using h

/-- A data unit that has failed its check ends its job at its own write-back, not here (R178). -/
theorem State.finishPlain_faulty (h : ∃ x ∈ j.slices, x.fault ≠ none) : s.finishPlain j = s := by
  rw [State.finishPlain, if_pos]
  simpa [Option.isSome_iff_ne_none] using h

/-- The comparison of an operation on one engine, under the two-key rule of the first key (Table 6.7). -/
theorem Job.verdict_of_single (h : eOp j.entry ≠ 0x50) :
    j.verdict = twoKey (j.memberLives false false && j.made.take (macLen j.entry) == j.tagIn)
      ((j.olderKey false).isSome && (j.memberLives false true && j.madeOld.take (macLen j.entry) == j.tagIn)) := by
  unfold Job.verdict
  rw [beq_false_of_ne h]
  rfl

/-- Two changes of a job that agree on every job of its name are one. -/
theorem State.setJob_congr {f g : Job → Job} (h : ∀ k ∈ s.fennel.jobs, k.queue = q → k.count = c → f k = g k) :
    s.setJob q c f = s.setJob q c g := by
  have hjobs : (s.fennel.jobs.map fun k => if k.queue == q && k.count == c then f k else k) =
      s.fennel.jobs.map fun k => if k.queue == q && k.count == c then g k else k := by
    refine List.map_congr_left fun k hk => ?_
    split
    · next hname =>
      obtain ⟨hq, hc⟩ := Bool.and_eq_true_iff.1 hname
      exact h k hk (eq_of_beq hq) (eq_of_beq hc)
    · rfl
  rw [State.setJob, hjobs, State.setJob]

section
variable (h : s.job? q c = some j) (hp : j.phase = .slices) (hd : j.allDelivered = true)
include h hp hd

/-- The ciphers without a tag. -/
theorem exec_plainEnd : ∀ p ∈ [(0x18, Instr.aesXtsEncrypt), (0x19, .aesXtsDecrypt), (0x1C, .aesCbcEncrypt), (0x1D, .aesCbcDecrypt),
      (0x1E, .aesCtr)], eOp j.entry = p.1 →
    ((∀ x ∈ j.slices, x.fault = none) → exec (p.2 q c) s = .next (s.endJob q c .ok).flow) ∧
      ((∃ x ∈ j.slices, x.fault ≠ none) → exec (p.2 q c) s = .next s) := by
  obtain ⟨rfl, rfl⟩ := State.job?_num s h
  intro p hmem ho
  have hexec : exec (p.2 j.queue j.count) s = .next (s.finishPlain j) := by
    simp only [List.mem_cons, List.not_mem_nil, or_false] at hmem
    rcases hmem with rfl | rfl | rfl | rfl | rfl <;> exact onSome_of_eq (State.atEnd_of h hp hd ho rfl) s s.finishPlain
  rw [hexec]
  exact ⟨fun hgood => by rw [State.finishPlain_good hgood], fun hbad => by rw [State.finishPlain_faulty hbad]⟩

/-- The operations that make a tag or MAC. -/
theorem exec_tagEnd : ∀ p ∈ [(0x10, true, Instr.aesGcmEncrypt), (0x12, !bit (eSub j.entry) 0, .gmacGenerate), (0x14, true, .aesCcmEncrypt),
      (0x20, true, .aesSivEncrypt), (0x22, !bit (eSub j.entry) 0, .aesCmacGenerate), (0x30, true, .chacha20Poly1305Encrypt),
      (0x41, true, .hmacGenerate), (0x50, !bit (eSub j.entry) 7, .encryptThenMac)],
    eOp j.entry = p.1 → p.2.1 = true →
    exec (p.2.2 q c) s = .next (((s.placeTag j (j.made.take (macLen j.entry))).placeIv j).endJob q c .ok).flow := by
  obtain ⟨rfl, rfl⟩ := State.job?_num s h
  intro p hmem ho hform
  simp only [List.mem_cons, List.not_mem_nil, or_false] at hmem
  rcases hmem with rfl | rfl | rfl | rfl | rfl | rfl | rfl | rfl <;>
    exact onSome_of_eq (State.atEnd_of h hp hd ho hform) s s.finishTag

/-- The verifies without a ciphertext: the two-key rule over what was made (R205, R229). -/
theorem exec_verifyEnd : ∀ p ∈ [(0x12, bit (eSub j.entry) 0, Instr.gmacVerify), (0x22, bit (eSub j.entry) 0, .aesCmacVerify),
      (0x42, true, .hmacVerify)],
    eOp j.entry = p.1 → p.2.1 = true →
    let newer := j.memberLives false false && j.made.take (macLen j.entry) == j.tagIn
    let older := (j.olderKey false).isSome && j.memberLives false true && j.madeOld.take (macLen j.entry) == j.tagIn
    exec (p.2.2 q c) s = .next ((s.setJob q c fun j => { j with pairBoth := newer && older, pairOld := !newer && older }).endJob q c
      (if newer || older then .ok else .authFail)).flow := by
  obtain ⟨rfl, rfl⟩ := State.job?_num s h
  intro p hmem ho hform
  have hexec : eOp j.entry ≠ 0x50 ∧ exec (p.2.2 j.queue j.count) s = .next (s.finishVerify j) := by
    simp only [List.mem_cons, List.not_mem_nil, or_false] at hmem
    rcases hmem with rfl | rfl | rfl <;>
      exact ⟨by simp [ho], onSome_of_eq (State.atEnd_of h hp hd ho hform) s s.finishVerify⟩
  rw [hexec.2, State.finishVerify, Job.verdict_of_single hexec.1]
  simp only [twoKey, Bool.and_assoc]

theorem exec_hashEnd (ho : eOp j.entry = 0x40) :
    exec (.hash q c) s = .next ((s.writeDst j .metadata 0 j.made fun _ => .result q c).endJob q c .ok).flow := by
  obtain ⟨rfl, rfl⟩ := State.job?_num s h
  exact onSome_of_eq (State.atEnd_of h hp hd ho (f := anySub) rfl) s s.finishHash

/-- A wrap whose name no other job has: its bytesDone is the length of the wrapped key (R207). -/
theorem exec_wrapEnd (ho : eOp j.entry = 0x24) (hone : ∀ k ∈ s.fennel.jobs, k.queue = q → k.count = c → k = j) :
    let u := s.setJob q c fun j => { j with bytesDone := j.made.length }
    exec (.keyWrap q c) s = .next ((u.writeDst j (u.payloadClass j.domain) 0 j.made fun _ => .result q c).endJob q c .ok).flow := by
  obtain ⟨rfl, rfl⟩ := State.job?_num s h
  intro u
  have hu : (s.setJob j.queue j.count fun k => { k with bytesDone := j.made.length }) = u :=
    State.setJob_congr fun k hk hq hc => by rw [hone k hk hq hc]
  refine (onSome_of_eq (State.atEnd_of h hp hd ho (f := anySub) rfl) s s.finishWrap).trans ?_
  rw [State.finishWrap, hu]

end
end

/-! ## A message of one slice -/

section
variable {j : Job} {key m : Bytes} {st : Stream}

/-- The keystream from the start of the stream is that of the whole algorithm. -/
theorem streamAt_zero (key : Bytes) (ctr : Nat → Bytes) (n : Nat) : streamAt key ctr 0 n = aesStream key ctr n := by
  simp [streamAt, aesStream]

theorem Job.crypt_gcm (h : eOp j.entry = 0x10 ∨ eOp j.entry = 0x11) : j.crypt key 0 m = gcmCrypt key j.ivField m := by
  rcases h with h | h <;> simp [Job.crypt, Job.counter, h, gcmCrypt, streamAt_zero]

theorem Job.crypt_ccm (h : eOp j.entry = 0x14 ∨ eOp j.entry = 0x15) : j.crypt key 0 m = ccmCrypt key j.ccmNonce m := by
  rcases h with h | h <;> simp [Job.crypt, Job.counter, h, ccmCrypt, streamAt_zero]

theorem Job.crypt_chacha (h : eOp j.entry = 0x30 ∨ eOp j.entry = 0x31) : j.crypt key 0 m = chachaCrypt key (j.ivField.take 12) m := by
  rcases h with h | h <;> simp [Job.crypt, h, chachaCrypt]

theorem Job.crypt_ctr (h : eOp j.entry = 0x1E) : j.crypt key 0 m = aesCtrCrypt key j.ivField m := by
  simp [Job.crypt, Job.counter, h, aesCtrCrypt, streamAt_zero]

/-- The tag covers no associated data when the entry has none, or its operation takes none. -/
theorem authLen_eq_zero {e : Bytes} (h : eOp e ≠ 0x12) (ha : hasAad (eOp e) = true → eAad e = 0) : authLen e = 0 := by
  unfold authLen
  rw [if_neg (by simpa using h)]
  split
  · next hop => exact ha hop
  · rfl

/-- Without associated data, the one slice of a counter-mode cipher puts its whole message through the keystream. -/
theorem Job.streamStep_crypt (hop : eOp j.entry ∈ [0x10, 0x11, 0x14, 0x15, 0x1E, 0x30, 0x31])
    (ha : hasAad (eOp j.entry) = true → eAad j.entry = 0) : (j.streamStep key st 0 m.length m true).2.1 = j.crypt key 0 m := by
  replace ha : authLen j.entry = 0 := authLen_eq_zero (fun h => by simp [h] at hop) ha
  simp only [List.mem_cons, List.not_mem_nil, or_false] at hop
  rcases hop with h | h | h | h | h | h | h <;> simp [Job.streamStep, h, ha]

/-- A CBC stream that starts with whole blocks carries none of them. -/
theorem Job.streamStep_cbc (h : eOp j.entry = 0x1C) (hm : m.length % 16 = 0) :
    (j.streamStep key st 0 m.length m true).2.1 = cbcEnc key j.ivField m := by
  have ha : authLen j.entry = 0 := authLen_eq_zero (by simp [h]) (by simp [h, hasAad])
  have hn : m.length / 16 * 16 = m.length := Nat.div_mul_cancel (Nat.dvd_of_mod_eq_zero hm)
  simp [Job.streamStep, h, ha, Job.cbcChain, cbcEnc, hn]

/-- Whole blocks that a stream without a carried block takes are chained, all of them. -/
theorem cbcAbsorb_chain (hp : st.part = []) (hm : m.length % 16 = 0) :
    (cbcAbsorb key st m).chain = (chunks 16 m).foldl (fun c x => aesEnc key (xorB x c)) st.chain := by
  have hn : m.length / 16 * 16 = m.length := Nat.div_mul_cancel (Nat.dvd_of_mod_eq_zero hm)
  simp [cbcAbsorb, hp, hn]

/-- A CMAC over a message of one slice is the CMAC of SP 800-38B: its last block is filled to 16 bytes, and nothing is carried (R164). -/
theorem cmacLast_start : cmacLast key { st with chain := zeros 16, part := [] } m = cmac key m := by
  have hcut : m.length / 16 * 16 = m.length - m.length % 16 := by omega
  have hempty : (!m.isEmpty) = (m.length != 0) := by cases m <;> rfl
  unfold cmacLast cmac cbcMac
  simp only [List.nil_append, hempty, hcut]
  refine cbcAbsorb_chain rfl ?_
  cases hw : m.length % 16 == 0 && m.length != 0 with
  | true =>
    simp only [Bool.and_eq_true, beq_iff_eq, bne_iff_ne] at hw
    simp only [if_true, List.length_append, List.length_take, List.length_drop, xorB_length, cmacDbl_length]
    omega
  | false =>
    simp only [Bool.false_eq_true, if_false, List.length_append, List.length_take, xorB_length, padTo_length, cmacDbl_length]
    omega

theorem Job.streamStep_cmac (h : eOp j.entry = 0x22) : (j.streamStep key st 0 m.length m true).2.2 = cmac key m := by
  have ha : authLen j.entry = 0 := authLen_eq_zero (by simp [h]) (by simp [h, hasAad])
  simp [Job.streamStep, h, ha, cmacLast_start]

/-- What the slices make over a message of one slice is what the whole algorithm gives (R163, R164). -/
theorem Job.streamStep_whole :
    let out := (j.streamStep key st 0 m.length m true).2.1
    ((eOp j.entry = 0x10 ∨ eOp j.entry = 0x11) → eAad j.entry = 0 → out = gcmCrypt key j.ivField m) ∧
    ((eOp j.entry = 0x14 ∨ eOp j.entry = 0x15) → eAad j.entry = 0 → out = ccmCrypt key j.ccmNonce m) ∧
    ((eOp j.entry = 0x30 ∨ eOp j.entry = 0x31) → eAad j.entry = 0 → out = chachaCrypt key (j.ivField.take 12) m) ∧
    (eOp j.entry = 0x1E → out = aesCtrCrypt key j.ivField m) ∧
    (eOp j.entry = 0x1C → m.length % 16 = 0 → out = cbcEnc key j.ivField m) ∧
    (eOp j.entry = 0x22 → (j.streamStep key st 0 m.length m true).2.2 = cmac key m) := by
  refine ⟨fun h ha => ?gcm, fun h ha => ?ccm, fun h ha => ?chacha, fun h => ?ctr, Job.streamStep_cbc, Job.streamStep_cmac⟩
  case gcm => exact (Job.streamStep_crypt (by rcases h with h | h <;> simp [h]) fun _ => ha).trans (Job.crypt_gcm h)
  case ccm => exact (Job.streamStep_crypt (by rcases h with h | h <;> simp [h]) fun _ => ha).trans (Job.crypt_ccm h)
  case chacha => exact (Job.streamStep_crypt (by rcases h with h | h <;> simp [h]) fun _ => ha).trans (Job.crypt_chacha h)
  case ctr => exact (Job.streamStep_crypt (by simp [h]) (by simp [h, hasAad])).trans (Job.crypt_ctr h)

end

/-! ## Two jobs of one name -/

/-- A KEY_WRAP at its end, of queue 5 and count 0, whose slices have made the given bytes. -/
def wrapAtEnd (made : Bytes) : Job :=
  { newJob (newQueue 5 0 .a 4 0x3000 []) 0 (padTo 64 [0, 0, 0, 0, 0x24]) false 0 with phase := .slices, made := made }

/-- Two wraps of the same name at their ends, with one byte made and with none. -/
def twoWraps : State := { State.reset with fennel := { Fennel.reset with jobs := [wrapAtEnd [1], wrapAtEnd []] } }

/-- The bytesDone of every job in the state that a command answers. -/
def Ans.bytesDone (a : Ans) : List Nat :=
  match a with
  | .next t => t.fennel.jobs.map (·.bytesDone)
  | _ => []

/-- KEY_WRAP gives both jobs the length of what the first one made. -/
theorem exec_twoWraps : Ans.bytesDone (exec (.keyWrap 5 0) twoWraps) = [1, 1] := by decide +kernel

/-- Refutes O29: in KEY_WRAP's clause the changed job's own name hides the job that ends, so that the statement gives the second of twoWraps the bytesDone 0, and the command gives it 1. -/
theorem not_symmetricEnds : ¬Obligations.SymmetricEnds := by
  unfold Obligations.SymmetricEnds
  intro h
  obtain ⟨-, -, -, -, hwrap⟩ := h.1 5 0 twoWraps (wrapAtEnd [1]) (by decide +kernel) (by decide +kernel) (by decide +kernel)
  have hsaid := congrArg Ans.bytesDone (hwrap (by decide +kernel))
  rw [exec_twoWraps] at hsaid
  exact absurd hsaid (by decide +kernel)

end Sys2Proof.Machine
end

section
/-! PROOF. The ends of the authenticated decrypts and of an unwrap (R169, R170, R173, R205, R208): the outcome of the comparison and what it makes of the output buffer that waits, the three ends of an unwrap, and the statement AuthenticatedEnds. -/

namespace Sys2Proof.Machine

/-! ## What the end of a job leaves of the keys and of the two-key rule's flags -/

/-- The name of a job, and the flags that the two-key rule has set in it. -/
def Job.pairFlags (j : Job) : (Nat × BitVec 17) × Bool × Bool := ((j.queue, j.count), j.pairBoth, j.pairOld)

/-- The key slots, and the pair flags of every job: what the end of a job leaves after an unwrap has written both. -/
def State.keysAndFlags (s : State) : Bay × List ((Nat × BitVec 17) × Bool × Bool) := (s.bay, s.fennel.jobs.map Job.pairFlags)

section
variable {s t : State}

theorem State.slot?_of_keysAndFlags (h : t.keysAndFlags = s.keysAndFlags) (d k : Nat) : t.slot? d k = s.slot? d k := by
  have hbay : t.bay = s.bay := congrArg Prod.fst h
  rw [State.slot?, hbay, State.slot?]

/-- The search for a job by its name is one in the list of names and flags. -/
theorem State.job?_pairFlags (s : State) (q : Nat) (c : BitVec 17) :
    (s.job? q c).map Job.pairFlags = s.keysAndFlags.2.find? fun x => x.1.1 == q && x.1.2 == c := by
  rw [State.keysAndFlags, List.find?_map]
  rfl

theorem State.job?_pairFlags_of_keysAndFlags (h : t.keysAndFlags = s.keysAndFlags) (q : Nat) (c : BitVec 17) :
    (t.job? q c).map Job.pairFlags = (s.job? q c).map Job.pairFlags := by
  rw [State.job?_pairFlags, h, State.job?_pairFlags]

end

section
variable (s : State)

theorem State.setJob_keysAndFlags (q : Nat) (c : BitVec 17) (f : Job → Job) (h : ∀ j, (f j).pairFlags = j.pairFlags) :
    (s.setJob q c f).keysAndFlags = s.keysAndFlags :=
  congrArg (Prod.mk s.bay) (map_map_keeps Job.pairFlags _ (fun j => by split <;> simp [h]) s.fennel.jobs)

@[simp] theorem State.issue_keysAndFlags (op : RurenOp) (cls : TClass) (d a n : Nat) (data : Bytes) (mk : Nat → Purpose) :
    (s.issue op cls d a n data mk).keysAndFlags = s.keysAndFlags := by
  unfold State.issue State.issueAt
  exact foldl_keeps State.keysAndFlags _ (by intros; rfl) _ _

@[simp] theorem State.clearLog_keysAndFlags (j : Job) : (s.clearLog j).keysAndFlags = s.keysAndFlags := by
  unfold State.clearLog
  split <;> rfl

@[simp] theorem State.setQueue_keysAndFlags (q : Nat) (f : Queue → Queue) : (s.setQueue q f).keysAndFlags = s.keysAndFlags := rfl

@[simp] theorem State.dropCtxs_keysAndFlags (q : Nat) (c : BitVec 17) : (s.dropCtxs q c).keysAndFlags = s.keysAndFlags := rfl

theorem State.issueFrom_keysAndFlags (q fuel : Nat) (c : BitVec 17) : (State.issueFrom q fuel c s).keysAndFlags = s.keysAndFlags := by
  induction fuel generalizing c s with
  | zero => rfl
  | succ n ih =>
    unfold State.issueFrom
    split
    · split
      · exact ih _ _
      · split
        · dsimp only
          rw [ih, State.dropCtxs_keysAndFlags, State.setJob_keysAndFlags, State.issue_keysAndFlags]
          exact fun _ => rfl
        · rfl
    · rfl

@[simp] theorem State.issueCompletions_keysAndFlags (q : Nat) : (s.issueCompletions q).keysAndFlags = s.keysAndFlags := by
  unfold State.issueCompletions
  split
  · rfl
  · exact State.issueFrom_keysAndFlags ..

@[simp] theorem State.settle_keysAndFlags (q : Nat) (c : BitVec 17) : (s.settle q c).keysAndFlags = s.keysAndFlags := by
  unfold State.settle
  split
  · rfl
  · split
    · rw [State.issueCompletions_keysAndFlags, State.setJob_keysAndFlags, State.clearLog_keysAndFlags]
      exact fun _ => rfl
    · rfl

theorem State.stopJob_keysAndFlags (q : Nat) (c : BitVec 17) (st : Status) (j : Job) (z : Nat) :
    (s.stopJob q c st j z).keysAndFlags = s.keysAndFlags := by
  have hset {u : State} (f : Job → Job) (hu : u.keysAndFlags = s.keysAndFlags) (hf : ∀ k, (f k).pairFlags = k.pairFlags) :
      (u.setJob q c f).keysAndFlags = s.keysAndFlags := (u.setJob_keysAndFlags q c f hf).trans hu
  unfold State.stopJob
  dsimp only
  split
  · rw [State.setQueue_keysAndFlags]
    exact hset _ (by split <;> rfl) fun _ => rfl
  · exact hset _ (by split <;> rfl) fun _ => rfl

/-- The end of a job leaves every key slot and every job's pair flags. -/
@[simp] theorem State.endJob_keysAndFlags (q : Nat) (c : BitVec 17) (st : Status) : (s.endJob q c st).keysAndFlags = s.keysAndFlags := by
  obtain ⟨z, hz⟩ := s.endJob_eq q c st
  rw [hz]
  by_cases h : ∃ j, s.job? q c = some j ∧ j.status = none
  · obtain ⟨j, hj, hs⟩ := h
    rw [State.endJobZ_open hj hs, State.settle_keysAndFlags, State.stopJob_keysAndFlags]
  · rw [State.endJobZ_closed fun j hj hs => h ⟨j, hj, hs⟩]

/-- A job that ends OK drops no output buffer. -/
theorem State.endJob_ok_outs (q : Nat) (c : BitVec 17) : (s.endJob q c .ok).thyme.outs = s.thyme.outs := by
  rcases s.endJob_cases q c .ok with h | ⟨j, z, h⟩
  · rw [h]
  · rw [h.thyme]
    rfl

end

/-! ## The end of an authenticated decrypt -/

/-- An output buffer once the comparison of its job has been judged (R169). -/
def LaneOut.judged (q : Nat) (c : BitVec 17) (ok : Bool) (x : LaneOut) : LaneOut :=
  if x.queue = q ∧ x.count = c ∧ x.held = true then
    { x with held := false, zeroed := !ok, data := if ok then x.data else Machine.zeros x.data.length }
  else x

section
variable {q : Nat} {c : BitVec 17} {s : State} {j : Job}

theorem State.judgeOut_eq (s : State) (j : Job) (ok : Bool) :
    s.judgeOut j ok = { s with thyme := { s.thyme with outs := s.thyme.outs.map (LaneOut.judged j.queue j.count ok) } } := by
  have hmap : (fun x : LaneOut => if x.queue == j.queue && x.count == j.count && x.held then
      { x with held := false, zeroed := !ok, data := if ok then x.data else Machine.zeros x.data.length } else x) =
      LaneOut.judged j.queue j.count ok := by
    funext x
    simp only [LaneOut.judged, Bool.and_eq_true, beq_iff_eq, and_assoc]
  rw [State.judgeOut, hmap]

/-- The two-key rule of a comparison, or the selection of a pair that stands before its second pass (R173, Table 6.7). -/
theorem Job.outcome_eq (j : Job) :
    let second := eOp j.entry == 0x50
    let newer := j.memberLives second false && j.made.take (macLen j.entry) == j.tagIn
    let older := (j.olderKey second).isSome && j.memberLives second true && j.madeOld.take (macLen j.entry) == j.tagIn
    j.outcome = { ok := j.selects || newer || older, both := if j.selects then j.pairBoth else newer && older,
                  old := if j.selects then j.pairOld else !newer && older } := by
  unfold Job.outcome
  cases j.selects with
  | true => simp
  | false => simp [Job.verdict, twoKey, Bool.and_assoc]

theorem State.finishDecrypt_good (h : j.outcome.ok = true) :
    s.finishDecrypt j = (((s.judgeOut j true).setJob j.queue j.count fun k =>
      { k with pairBoth := j.outcome.both, pairOld := j.outcome.old }).endJob j.queue j.count .ok).flow := by
  simp only [State.finishDecrypt, h, if_true]

/-- A comparison that fails has zeros written over what lies before the buffer that waits, whose own write-back carries zeros (R169, R170). -/
theorem State.finishDecrypt_bad_held (h : j.outcome.ok = false) {x : LaneOut} (hx : s.heldOut j = some x) :
    s.finishDecrypt j = ((s.judgeOut j false).endJobZ j.queue j.count .authFail (j.outSpan x.slice).1).flow := by
  simp only [State.finishDecrypt, h, hx, Bool.false_eq_true, if_false]

/-- A comparison that fails where no buffer waits has zeros written over the whole destination. -/
theorem State.finishDecrypt_bad_written (h : j.outcome.ok = false) (hx : s.heldOut j = none) :
    s.finishDecrypt j = ((s.judgeOut j false).endJobZ j.queue j.count .authFail (eLen j.entry)).flow := by
  simp only [State.finishDecrypt, h, hx, Bool.false_eq_true, if_false]

theorem State.heldOut_eq_none (h : ∀ x ∈ s.thyme.outs, ¬(x.queue = j.queue ∧ x.count = j.count ∧ x.held = true)) : s.heldOut j = none := by
  refine List.find?_eq_none.2 fun x hx hsel => h x hx ?_
  simpa [and_assoc] using hsel

theorem State.statusOf_open (h : s.job? q c = some j) (hs : j.status = none) : s.statusOf q c = some none := by
  rw [State.statusOf, h, Option.map_some, hs]

/-- Each authenticated decrypt at its end is judged by its outcome. -/
theorem exec_decryptEnd (h : s.job? q c = some j) (hp : j.phase = .slices) (hd : j.allDelivered = true) :
    ∀ p ∈ [(0x11, true, Instr.aesGcmDecrypt), (0x15, true, .aesCcmDecrypt), (0x21, true, .aesSivDecrypt),
      (0x31, true, .chacha20Poly1305Decrypt), (0x50, bit (eSub j.entry) 7, .verifyThenDecrypt)],
    eOp j.entry = p.1 → p.2.1 = true → exec (p.2.2 q c) s = .next (s.finishDecrypt j) := by
  intro p hmem ho hform
  simp only [List.mem_cons, List.not_mem_nil, or_false] at hmem
  rcases hmem with rfl | rfl | rfl | rfl | rfl <;> exact onSome_of_eq (State.atEnd_of h hp hd ho hform) s s.finishDecrypt

end

/-! ## The end of an unwrap -/

section
variable {q : Nat} {c : BitVec 17} {s : State} {j : Job} {m : Bytes} {k : Nat}

/-- A job with the flags of the two-key rule's outcome (Table 6.7). -/
def Job.marked (v : Chosen) (j : Job) : Job := { j with pairBoth := v.both, pairOld := v.old }

/-- A key that the target takes waits beside its slot, and the rule's flags stand in the job (R208, Table 6.7). -/
def State.takeUnwrapped (s : State) (j : Job) (k : Nat) (m : Bytes) : State :=
  (s.setJob j.queue j.count (Job.marked j.unwrapped.2)).readyKey j.domain k m

theorem State.finishUnwrap_taken (hm : j.unwrapped.1 = some m) (hk : j.mainKey true = some k) (ht : s.targetOpen j.domain k = true)
    (hf : (s.recOf j.domain k).any (fun r => unwrapFits r m) = true) :
    s.finishUnwrap j = ((s.takeUnwrapped j k m).endJob j.queue j.count .ok).flow := by
  simp only [State.finishUnwrap, hm, hk, ht, hf, Bool.not_true, Bool.or_false, Bool.false_eq_true, if_false]
  rfl

/-- A target that is gone, or whose record does not permit the length, denies the key (R208). -/
theorem State.finishUnwrap_denied (hm : j.unwrapped.1 = some m) (hk : j.mainKey true = some k)
    (h : s.targetOpen j.domain k = false ∨ (s.recOf j.domain k).any (fun r => unwrapFits r m) = false) :
    s.finishUnwrap j = (s.endJob j.queue j.count .keyDenied).flow := by
  have hdeny : (!s.targetOpen j.domain k || !(s.recOf j.domain k).any fun r => unwrapFits r m) = true := by
    rcases h with h | h <;> simp [h]
  simp only [State.finishUnwrap, hm, hk, hdeny, if_true]

theorem State.finishUnwrap_failed (h : j.unwrapped.1 = none ∨ j.mainKey true = none) :
    s.finishUnwrap j = (s.endJob j.queue j.count .authFail).flow := by
  unfold State.finishUnwrap
  split
  · next hm hk => simp [hm, hk] at h
  · rfl

theorem State.takeUnwrapped_statusOf (s : State) (j : Job) (k : Nat) (m : Bytes) :
    (s.takeUnwrapped j k m).statusOf q c = s.statusOf q c :=
  s.setJob_statusOf _ _ _ _ (Job.marked j.unwrapped.2) fun _ => ⟨rfl, rfl, rfl⟩

theorem State.readyKey_slot? (s : State) (d k : Nat) (m : Bytes) :
    (s.readyKey d k m).slot? d k = (s.slot? d k).map fun x => { x with newKey := some m } := by
  refine (s.slot?_setSlot d d k k _ ?names).trans ?_
  case names => exact fun _ => ⟨rfl, rfl⟩
  refine Option.map_congr fun x hx => ?_
  have hname := List.find?_some hx
  exact if_pos hname

theorem State.takeUnwrapped_slot? (h : s.targetOpen j.domain k = true) :
    ∃ x, (s.takeUnwrapped j k m).slot? j.domain k = some x ∧ x.newKey = some m := by
  obtain ⟨x, hx, -⟩ := (Option.any_eq_true _ _).1 h
  rw [State.takeUnwrapped, State.readyKey_slot?, State.slot?, State.setJob_bay, ← State.slot?, hx]
  exact ⟨_, rfl, rfl⟩

/-- The flags of the job that ends are those of its own unwrap. -/
theorem State.takeUnwrapped_pairFlags (h : s.job? j.queue j.count = some j) :
    ((s.takeUnwrapped j k m).job? j.queue j.count).map Job.pairFlags =
      some ((j.queue, j.count), j.unwrapped.2.both, j.unwrapped.2.old) := by
  have hset := s.job?_setJob j.queue j.queue j.count j.count (Job.marked j.unwrapped.2) fun _ => ⟨rfl, rfl⟩
  rw [h] at hset
  refine (congrArg (Option.map Job.pairFlags) hset).trans ?_
  simp [Job.pairFlags, Job.marked]

end

/-- Settles O30: a decrypt by the outcome of its comparison and by the buffer that waits for it; an unwrap by its three ends, of which the one that takes the key leaves slot and flags to what endJob keeps. -/
theorem authenticatedEnds : Obligations.AuthenticatedEnds := by
  unfold Obligations.AuthenticatedEnds
  intro q c s j h hp hd hs
  obtain ⟨rfl, rfl⟩ := State.job?_num s h
  have hopen : s.statusOf j.queue j.count = some none := State.statusOf_open h hs
  refine ⟨?decrypt, ?unwrap⟩
  case decrypt =>
    intro p hmem ho hform second newer older good both old judged t
    have hout : j.outcome = { ok := good, both := both, old := old } := by
      rw [Job.outcome_eq, ho]
    have hok : j.outcome.ok = good := congrArg Chosen.ok hout
    have ht : s.judgeOut j good = t := s.judgeOut_eq j good
    have htopen : t.statusOf j.queue j.count = some none := hopen
    rw [exec_decryptEnd h hp hd p hmem ho hform]
    refine ⟨fun hgood => ?_, fun hbad => ⟨fun x hx => ?_, fun hnone => ?_⟩⟩
    · rw [hgood] at ht
      refine ⟨?_, State.endJob_ends ?_ .ok, State.endJob_ok_outs ..⟩
      · rw [State.finishDecrypt_good (hok.trans hgood), ht, hout]
      · rwa [State.setJob_statusOf]
        exact fun _ => ⟨rfl, rfl, rfl⟩
    · rw [hbad] at ht
      exact ⟨by rw [State.finishDecrypt_bad_held (hok.trans hbad) hx, ht], State.endJobZ_ends htopen ..⟩
    · rw [hbad] at ht
      exact ⟨by rw [State.finishDecrypt_bad_written (hok.trans hbad) (State.heldOut_eq_none hnone), ht],
        State.endJobZ_ends htopen ..⟩
  case unwrap =>
    intro ho newer older
    have hopened : j.unwrapped = (newer.or older, twoKey newer.isSome older.isSome) := rfl
    have hexec : exec (.keyUnwrap j.queue j.count) s = .next (s.finishUnwrap j) :=
      onSome_of_eq (State.atEnd_of h hp hd ho (f := anySub) rfl) s s.finishUnwrap
    rw [hexec]
    refine ⟨fun m k hm hk => ⟨fun ht hf => ?_, fun hdeny => ?_⟩, fun hfail => ?_⟩
    · have hkept := (s.takeUnwrapped j k m).endJob_keysAndFlags j.queue j.count .ok
      refine ⟨(s.takeUnwrapped j k m).endJob j.queue j.count .ok, by rw [State.finishUnwrap_taken hm hk ht hf],
        State.endJob_ends ((s.takeUnwrapped_statusOf j k m).trans hopen) .ok, ?_, fun j' hj' => ?_⟩
      · rw [State.slot?_of_keysAndFlags hkept]
        exact State.takeUnwrapped_slot? ht
      · have hflags := (State.job?_pairFlags_of_keysAndFlags hkept j.queue j.count).trans (State.takeUnwrapped_pairFlags h)
        rw [hj'] at hflags
        simp only [Option.map_some, Job.pairFlags, Option.some.injEq, Prod.mk.injEq] at hflags
        obtain ⟨-, hboth, hold⟩ := hflags
        exact ⟨hboth, hold.trans (by rw [hopened, twoKey, Option.not_isSome])⟩
    · rw [State.finishUnwrap_denied hm hk hdeny]
    · rw [State.finishUnwrap_failed hfail]

end Sys2Proof.Machine
end

section
/-! PROOF. What keys and their requests do to the rest of the state (R192, R193, R197, R459, R460, R490): raising a request, ending one and raising one again, req_ids, events, and slots. -/

namespace Sys2Proof.Machine

/-! ## Events -/

/-- The state without what an event moves: the event queues, and the outbox. -/
def State.unposted (s : State) : State := { s with parsley := { qs := [] }, outbox := [] }

section
variable (s : State)

@[simp] theorem State.setEvq_unposted (d : Nat) (f : EventQ → EventQ) : (s.setEvq d f).unposted = s.unposted := by
  unfold State.unposted
  rfl

@[simp] theorem State.emit_unposted (o : Output) : (s.emit o).unposted = s.unposted := by
  unfold State.unposted
  rfl

theorem State.postEvent_unposted (d : Nat) (e : Event) : (s.postEvent d e).unposted = s.unposted := by
  unfold State.postEvent State.checkHold State.endRecovery
  dsimp only
  split
  · simp
  · split
    · simp
    · split <;> simp

theorem State.event_unposted (d t p a : Nat) (data : Bytes) : (s.event d t p a data).unposted = s.unposted := s.postEvent_unposted ..

theorem State.eventDM_unposted (d t p a : Nat) (data : Bytes) : (s.eventDM d t p a data).unposted = s.unposted := by
  unfold State.eventDM
  dsimp only
  split
  · rw [State.event_unposted]
  · rw [State.event_unposted, State.event_unposted]

@[simp] theorem State.event_bay (d t p a : Nat) (data : Bytes) : (s.event d t p a data).bay = s.bay :=
  congrArg (·.bay) (s.event_unposted ..)

@[simp] theorem State.eventDM_bay (d t p a : Nat) (data : Bytes) : (s.eventDM d t p a data).bay = s.bay :=
  congrArg (·.bay) (s.eventDM_unposted ..)

@[simp] theorem State.eventDM_admin (d t p a : Nat) (data : Bytes) : (s.eventDM d t p a data).admin = s.admin :=
  congrArg (·.admin) (s.eventDM_unposted ..)

/-! ## Requests -/

/-- An outcome that neither grants nor fails denies. -/
theorem KbOutcome.denies {o : KbOutcome} (hg : o ≠ .granted) (he : o ≠ .error) : o = .refused ∨ o = .unknown := by
  cases o with
  | granted => exact absurd rfl hg
  | error => exact absurd rfl he
  | refused => exact .inl rfl
  | unknown => exact .inr rfl

@[simp] theorem State.kbEnd_mint (n : Nat) : (s.kbEnd n).mint = s.mint := rfl
@[simp] theorem State.kbEnd_slot? (n d h : Nat) : (s.kbEnd n).slot? d h = s.slot? d h := rfl

section
variable (k : KbKind) (d h : Nat) (dest : KbFor) (avoid : Option Nat) (e : Nat)

@[simp] theorem State.kbRaise_bay : (s.kbRaise k d h dest avoid e).bay = s.bay := by
  unfold State.kbRaise
  dsimp only
  split <;> rfl

@[simp] theorem State.kbRaise_mint : (s.kbRaise k d h dest avoid e).mint = s.mint := by
  unfold State.kbRaise
  dsimp only
  split <;> rfl

@[simp] theorem State.kbRaise_lovage : (s.kbRaise k d h dest avoid e).lovage = s.lovage := by
  unfold State.kbRaise
  dsimp only
  split <;> rfl

/-- The request that kbRaise raises: the next in the order of raising, without a frame. -/
def State.raised : KbReq :=
  { serial := s.keyBus.serial, reqId := 0, frame := none, lane := s.pickLane avoid, kind := k, domain := d, handle := h,
    dest := dest, tick := s.thyme.tick, errors := e }

/-- On an open bus a request joins those that wait or are outstanding (R192, R397). -/
theorem State.kbRaise_open (hc : s.kbClosed = false) : (s.kbRaise k d h dest avoid e).keyBus =
    { s.keyBus with reqs := s.keyBus.reqs ++ [s.raised k d h dest avoid e], serial := s.keyBus.serial + 1 } := by
  simp [State.kbRaise, hc, State.raised]

end

@[simp] theorem State.kbAgain_mint (r : KbReq) (e : Nat) : (s.kbAgain r e).mint = s.mint := by
  unfold State.kbAgain
  split <;> simp

/-- Out of Alarm and on an open bus, a request raised again gives its place to one at the end, which waits for a frame of its own (R460). -/
theorem State.kbAgain_reqs (r : KbReq) (e : Nat) (ha : s.inAlarm = false) (hc : s.kbClosed = false) :
    (s.kbAgain r e).keyBus.reqs = (s.keyBus.reqs.filter fun x => !(x.serial == r.serial)) ++
      [(s.kbEnd r.serial).raised r.kind r.domain r.handle r.dest (some r.lane) e] := by
  rw [State.kbAgain, ha, if_neg Bool.false_ne_true]
  exact congrArg KeyBus.reqs (State.kbRaise_open (s.kbEnd r.serial) _ _ _ _ _ _ hc)

end

/-- A free req_id is one that no request sent carries (R459, R490). -/
theorem KeyBus.freeId_free {k : KeyBus} {i : BitVec 16} (h : k.freeId = some i) {x : KbReq} (hx : x ∈ k.reqs)
    (hf : x.frame.isSome = true) : x.reqId ≠ i := by
  unfold KeyBus.freeId at h
  dsimp only at h
  split at h
  · obtain ⟨n, -, hn⟩ := List.exists_of_findSome?_eq_some h
    split at hn
    · cases hn
    · next hused =>
      injection hn with hn
      rintro rfl
      refine hused ?_
      rw [hn, List.contains_iff_mem]
      exact List.mem_map_of_mem (List.mem_filter.2 ⟨hx, hf⟩)
  · cases h

/-! ## Slots -/

section
variable {s : State} {d h : Nat} {x : KeySlot}

/-- A change of a slot that keeps its name is found in it. -/
theorem State.slot?_setSlot_self (hx : s.slot? d h = some x) {f : KeySlot → KeySlot}
    (hf : ∀ y, (f y).domain = y.domain ∧ (f y).handle = y.handle) : (s.setSlot d h f).slot? d h = some (f x) := by
  have hname := List.find?_some hx
  rw [State.slot?_setSlot _ _ _ _ _ _ hf, hx, Option.map_some, if_pos hname]

theorem State.slot?_of_bay {s t : State} (h : t.bay = s.bay) (d k : Nat) : t.slot? d k = s.slot? d k := by
  rw [State.slot?, h, State.slot?]

/-- Asking for a block changes of a slot only that its request is on its way (R197). -/
theorem State.askUses_slot? (hx : s.slot? d h = some x) : ∃ b, (s.askUses d h).slot? d h = some { x with useAsked := b } := by
  unfold State.askUses
  rw [hx]
  dsimp only
  split
  · refine ⟨true, (State.slot?_of_bay (State.kbRaise_bay ..) _ _).trans ?_⟩
    exact State.slot?_setSlot_self hx fun _ => ⟨rfl, rfl⟩
  · exact ⟨x.useAsked, hx⟩

/-- A slot with a record taken into it (R199, R201). -/
def KeySlot.filled (r : KeyRec) (pin : Bool) (x : KeySlot) : KeySlot :=
  { x with loading := false, record := some r, material := if r.typ == 0 then some (r.material.take r.klen) else none, pinned := pin }

/-- A slot that is filled is loading no longer and has its record (R199). -/
theorem State.fillSlot_slot? (hx : s.slot? d h = some x) (r : KeyRec) :
    ∃ y, (s.fillSlot d h r).slot? d h = some y ∧ y.loading = false ∧ y.record = some r := by
  have hset (pin : Bool) : (s.setSlot d h (KeySlot.filled r pin)).slot? d h = some (x.filled r pin) :=
    State.slot?_setSlot_self hx fun _ => ⟨rfl, rfl⟩
  unfold State.fillSlot
  dsimp only
  split
  · exact (State.askUses_slot? ((State.slot?_of_bay (State.event_bay ..) d h).trans (hset _))).elim fun _ hy => ⟨_, hy, rfl, rfl⟩
  · exact (State.askUses_slot? (hset _)).elim fun _ hy => ⟨_, hy, rfl, rfl⟩

end

/-- Jobs that look again leave what is still alone. -/
@[simp] theorem State.keyRetry_still (s : State) : s.keyRetry.still = s.still := by
  unfold State.keyRetry
  exact foldl_keeps State.still _ (fun s j => s.keyProgress_still ..) _ _

end Sys2Proof.Machine
end

section
/-! PROOF. Use blocks, revocation and slot switches (R194, R197, R203, R208): the statement KeyUseRule. -/

namespace Sys2Proof.Machine

/-! ## Use blocks (R197, R198) -/

/-- A slot after a grant of g uses at the store's count n: nothing granted exhausts its key, and a grant continues the block or begins a new one. -/
def KeySlot.granted (n g : Nat) (x : KeySlot) : KeySlot :=
  let x := { x with useAsked := false }
  if g = 0 then { x with exhausted := true }
  else if x.useNext < x.useEnd then { x with useEnd := x.useEnd + g }
  else { x with useNext := n, useEnd := n + g }

section
variable (x : KeySlot) (n g : Nat)

theorem KeySlot.granted_name : (x.granted n g).domain = x.domain ∧ (x.granted n g).handle = x.handle := by
  unfold KeySlot.granted
  dsimp only
  split
  · exact ⟨rfl, rfl⟩
  · split <;> exact ⟨rfl, rfl⟩

theorem KeySlot.granted_useAsked : (x.granted n g).useAsked = false := by
  unfold KeySlot.granted
  dsimp only
  split
  · rfl
  · split <;> rfl

theorem KeySlot.granted_none : x.granted n 0 = { x with useAsked := false, exhausted := true } := rfl

theorem KeySlot.granted_useEnd (hg : 0 < g) : (x.granted n g).useEnd = (if x.useNext < x.useEnd then x.useEnd else n) + g := by
  unfold KeySlot.granted
  dsimp only
  rw [if_neg (Nat.ne_of_gt hg)]
  split <;> rfl

end

/-- A warning of use moves no slot (R198). -/
@[simp] theorem State.useWarning_bay (s : State) (d h limit n g : Nat) : (s.useWarning d h limit n g).bay = s.bay := by
  unfold State.useWarning
  dsimp only
  split
  · exact s.eventDM_bay ..
  · rfl

theorem State.slotGrant_bay (s : State) (d h n g : Nat) : (s.slotGrant d h n g).bay = (s.setSlot d h (KeySlot.granted n g)).bay := by
  unfold State.slotGrant
  extract_lets t
  split
  · split
    · rfl
    · exact t.useWarning_bay ..
  · rfl

theorem State.slotGrant_slot? {s : State} {d h : Nat} {x : KeySlot} (hx : s.slot? d h = some x) (n g : Nat) :
    (s.slotGrant d h n g).slot? d h = some (x.granted n g) :=
  (State.slot?_of_bay (s.slotGrant_bay d h n g) d h).trans (State.slot?_setSlot_self hx fun y => y.granted_name n g)

section
variable {id : BitVec 16} {s : State} {r : KbReq} {k : Nat} {o : KbOutcome} {first n : Nat}
  (h : s.kbReq? id = some r) (hk : r.kind = .useReserve k) (hr : s.resetting r.domain = false) (ho : o ≠ .error)
include h hk hr ho

/-- A response to a slot's request is the grant of the outcome, and a refused or unknown one grants nothing (notes/assumptions/82). -/
theorem exec_useReserveResponse_slot (hd : r.dest = .slot) : exec (.useReserveResponse id o first n) s =
    .next ((s.kbEnd r.serial).slotGrant r.domain r.handle first (if o = .granted then n else 0)).flow := by
  refine (onSome_of_eq (x := r) (by simp [h, hk, Option.filter]) s _).trans ?_
  cases o with
  | error => exact absurd rfl ho
  | granted | refused | unknown => simp [hr, hd]

theorem exec_useReserveResponse_job {q : Nat} {c : BitVec 17} (hd : r.dest = .job q c) : exec (.useReserveResponse id o first n) s =
    .next ((s.kbEnd r.serial).jobGrant q c first (if o = .granted then n else 0)).flow := by
  refine (onSome_of_eq (x := r) (by simp [h, hk, Option.filter]) s _).trans ?_
  cases o with
  | error => exact absurd rfl ho
  | granted | refused | unknown => simp [hr, hd]

end

/-! ## Revocation (R203) -/

section
variable {α : Type} (f : α → Change) (l : List α) (s : State)

theorem foldl_addChange_changes : (l.foldl (fun s x => s.addChange (f x)) s).admin.changes = s.admin.changes ++ l.map f := by
  induction l generalizing s with
  | nil => simp
  | cons x l ih => rw [List.foldl_cons, ih, State.addChange_changes, List.map_cons, List.append_assoc, List.singleton_append]

theorem foldl_addChange_bay : (l.foldl (fun s x => s.addChange (f x)) s).bay = s.bay := foldl_keeps State.bay _ (by intros; rfl) l s

theorem foldl_addChange_mint : (l.foldl (fun s x => s.addChange (f x)) s).mint = s.mint := foldl_keeps State.mint _ (by intros; rfl) l s

end

/-- A slot of a revoked handle is marked, and loses the key that waits beside it. -/
def KeySlot.revokedBy (h : Nat) (x : KeySlot) : KeySlot := if x.handle == h then { x with revoked := true, newKey := none } else x

/-- A counter record of a destroyed handle is marked for removal. -/
def CtrRec.destroyedBy (h : Nat) (destroyed : Bool) (r : CtrRec) : CtrRec :=
  if destroyed && r.handle == h then { r with removal := true } else r

/-- The state with a handle revoked, before jobs look again and the copy is acknowledged. -/
def State.revokeHandle (s : State) (h : Nat) (destroyed : Bool) : State :=
  (s.bay.slots.filter fun x => x.handle == h && !x.revoked).foldl (fun s x => s.addChange (.revoked x.domain h))
    (({ s with bay := { s.bay with slots := s.bay.slots.map (KeySlot.revokedBy h) } } : State).setMint
      fun m => { m with records := m.records.map (CtrRec.destroyedBy h destroyed) })

theorem exec_keyRevoke {s : State} (hm : s.mainRuns = true) (h : Nat) (destroyed : Bool) :
    exec (.keyRevoke h destroyed) s = .next ((s.revokeHandle h destroyed).keyRetry.emit (.revokeAck h)).flow :=
  if_pos hm

section
variable (s : State) (h : Nat) (destroyed : Bool)

theorem State.revokeHandle_slots : (s.revokeHandle h destroyed).bay.slots = s.bay.slots.map (KeySlot.revokedBy h) :=
  congrArg Bay.slots (foldl_addChange_bay (fun x : KeySlot => .revoked x.domain h) ..)

theorem State.revokeHandle_records : (s.revokeHandle h destroyed).mint.records = s.mint.records.map (CtrRec.destroyedBy h destroyed) :=
  congrArg Mint.records (foldl_addChange_mint (fun x : KeySlot => .revoked x.domain h) ..)

theorem State.revokeHandle_changes : (s.revokeHandle h destroyed).admin.changes =
    s.admin.changes ++ (s.bay.slots.filter fun x => x.handle == h && !x.revoked).map fun x => .revoked x.domain h :=
  foldl_addChange_changes (fun x : KeySlot => .revoked x.domain h) _ _

end

theorem KeySlot.revokedBy_revoked {h : Nat} {x : KeySlot} (hx : (x.revokedBy h).handle = h) :
    (x.revokedBy h).revoked = true ∧ (x.revokedBy h).newKey = none := by
  unfold KeySlot.revokedBy at hx ⊢
  split
  · exact ⟨rfl, rfl⟩
  · next hne =>
    rw [if_neg hne] at hx
    exact absurd (beq_iff_eq.2 hx) hne

theorem CtrRec.destroyedBy_removal {h : Nat} {r : CtrRec} (hr : (r.destroyedBy h true).handle = h) :
    (r.destroyedBy h true).removal = true := by
  unfold CtrRec.destroyedBy at hr ⊢
  split
  · rfl
  · next hne =>
    rw [if_neg hne] at hr
    exact absurd (by simpa using hr) hne

/-- A sweep leaves a slot unless it is revoked and nothing holds it. -/
theorem State.mem_sweepRevoked (s : State) (x : KeySlot) :
    x ∈ s.sweepRevoked.bay.slots ↔ x ∈ s.bay.slots ∧ (x.revoked = true → s.slotHeld x = true) := by
  unfold State.sweepRevoked
  rw [List.mem_filter, Bool.not_eq_true', Bool.and_eq_false_imp]
  simp

/-- A slot whose revocation is in force denies the key at check 2 of R194. -/
theorem State.checkSlot_revoked {s : State} {d h : Nat} {x : KeySlot} (hx : s.slot? d h = some x) (hrec : x.record.isSome = true)
    (hrev : x.revoked = true) (hc : Change.revoked x.domain x.handle ∉ s.admin.changes) (needs : Bool) :
    s.checkSlot d h needs = (s, .fail .keyDenied) := by
  obtain ⟨r, hr⟩ := Option.isSome_iff_exists.1 hrec
  have hnow : s.revokedNow x = true := by simp [State.revokedNow, hrev, hc]
  simp [State.checkSlot, hx, hr, hnow]

/-! ## Slot switches (R208) -/

/-- A slot with the key m in place of its own; its record takes the key's length (notes/assumptions/82). -/
def KeySlot.switched (m : Bytes) (x : KeySlot) : KeySlot :=
  { x with material := some m, newKey := none, record := x.record.map fun r => { r with klen := m.length } }

theorem exec_unwrapSlotSwitch {s : State} {d h : Nat} {x : KeySlot} {m : Bytes} (hx : s.slot? d h = some x) (hrev : x.revoked = false)
    (hm : x.newKey = some m) (ho : s.heldByOther d h = false) :
    exec (.unwrapSlotSwitch d h) s = .next (s.setSlot d h (KeySlot.switched m)).keyRetry.flow :=
  onSome_of_eq (by simp [hx, hrev, ho, hm]) s _

/-- Settles O24: the grant of a response in the slot or the job that asked, the three marks that a revocation leaves, the sweep, check 2 on a revoked slot, and the switch. -/
theorem keyUseRule : Obligations.KeyUseRule := by
  unfold Obligations.KeyUseRule
  refine ⟨fun id o first n s r k h hk hr ho => ⟨fun hd x hx => ?slotGrant, fun q c hd => ?jobGrant⟩, fun h destroyed s hm => ?revoke,
    State.mem_sweepRevoked, fun d h needs s x hx hrec hrev hc => State.checkSlot_revoked hx hrec hrev hc needs,
    fun d h s x m hx hrev hm ho => ?switch⟩
  case slotGrant =>
    refine ⟨_, exec_useReserveResponse_slot h hk hr ho hd, _,
      State.slotGrant_slot? (s := s.kbEnd r.serial) hx _ _, KeySlot.granted_useAsked .., fun hg => ?_,
      KeySlot.granted_useEnd x first _⟩
    rw [hg, KeySlot.granted_none]
    exact ⟨rfl, rfl⟩
  case jobGrant =>
    rw [exec_useReserveResponse_job h hk hr ho hd, State.jobGrant]
    exact ⟨fun hg => by rw [if_pos hg], fun hg => by rw [if_neg (Nat.ne_of_gt hg)]⟩
  case revoke =>
    refine ⟨_, exec_keyRevoke hm h destroyed, ?_, fun x hx hh => ?_, fun x hx hh hrev => ?_, fun hdest x hx hh => ?_⟩
    · rw [State.revokeHandle_slots, List.length_map]
    · rw [State.revokeHandle_slots] at hx
      obtain ⟨y, -, rfl⟩ := List.mem_map.1 hx
      exact KeySlot.revokedBy_revoked hh
    · rw [State.revokeHandle_changes]
      exact List.mem_append_right _ (List.mem_map_of_mem (List.mem_filter.2 ⟨hx, by simp [hh, hrev]⟩))
    · rw [State.revokeHandle_records, hdest] at hx
      obtain ⟨y, -, rfl⟩ := List.mem_map.1 hx
      exact CtrRec.destroyedBy_removal hh
  case switch =>
    exact ⟨_, exec_unwrapSlotSwitch hx hrev hm ho, _, State.slot?_setSlot_self hx fun _ => ⟨rfl, rfl⟩, rfl, rfl⟩

end Sys2Proof.Machine
end

section
/-! PROOF. The journal (R212, R216, R218, R219, R431, R460): its requests and their answers, the parts of a compaction, the start of the recovery, and the statement JournalRule. -/

namespace Sys2Proof.Machine

/-! ## Answers to the journal's requests -/

section
variable {id : BitVec 16} {s : State} {r : KbReq} (h : s.kbReq? id = some r) (hd : r.dest = .mint)
include h hd

theorem State.jReq?_of {p : KbKind → Bool} (hp : p r.kind = true) : s.jReq? id p = some r := by
  simp [State.jReq?, h, hd, hp, Option.filter]

section
variable {t : JTarget} {off : Nat} {b : Bytes} (hk : r.kind = .jnlWrite t off b)
include hk

theorem exec_jnlWriteResponse_granted : exec (.jnlWriteResponse id .granted) s = .next
    (let u := (s.kbEnd r.serial).setMint fun m => { m with refusing := false }
     if r.isAppend then u.appendReturned.retryDraws else u.recoverySettled).flow :=
  onSome_of_eq (State.jReq?_of h hd (by rw [hk])) s _

theorem exec_jnlWriteResponse_error {o : KbOutcome} (ho : o ≠ .granted) :
    exec (.jnlWriteResponse id o) s = .next (s.jWriteError r).flow :=
  (onSome_of_eq (State.jReq?_of h hd (by rw [hk])) s _).trans (by rw [if_pos (bne_iff_ne.2 ho)])

end

section
variable {t : JTarget} {off n : Nat} (hk : r.kind = .jnlRead t off n) (data : Bytes)
include hk

/-- A read that is answered without bytes is issued again (notes/assumptions/132). -/
theorem exec_jnlReadResponse_empty : exec (.jnlReadResponse id []) s = .next (s.kbAgain r r.errors).flow :=
  onSome_of_eq (State.jReq?_of h hd (by rw [hk])) s _

theorem exec_jnlReadResponse_bytes (hb : data ≠ []) : exec (.jnlReadResponse id data) s = .next
    (if s.mint.recovery = .headers ∨ s.mint.recovery = .reading ∨ s.mint.recovery = .scanning
      then (s.kbEnd r.serial).recoverBytes t off (padTo n data)
      else ((s.kbEnd r.serial).reread t off (padTo n data)).retryDraws).flow := by
  refine (onSome_of_eq (State.jReq?_of h hd (by rw [hk])) s _).trans ?_
  simp [hk, hb]

end

section
variable {t : JTarget} (hk : r.kind = .jnlErase t)
include hk

theorem exec_jnlEraseResponse_granted : exec (.jnlEraseResponse id .granted) s =
    .next (if s.mint.recovery = .erasing then (s.kbEnd r.serial).recoverErased t else s.kbEnd r.serial).flow := by
  refine (onSome_of_eq (State.jReq?_of h hd (by rw [hk])) s _).trans ?_
  simp [hk]

theorem exec_jnlEraseResponse_error {o : KbOutcome} (ho : o ≠ .granted) :
    exec (.jnlEraseResponse id o) s = .next (s.kbAgain r r.errors).flow :=
  (onSome_of_eq (State.jReq?_of h hd (by rw [hk])) s _).trans (by rw [if_pos (bne_iff_ne.2 ho)])

end
end

section
variable (s : State) (r : KbReq)

/-- The third failure of a write in a row makes MINT refuse reservations (R460). -/
theorem State.jWriteError_refusing : (s.jWriteError r).mint.refusing = (s.mint.refusing || decide (2 ≤ r.errors)) := by
  unfold State.jWriteError
  dsimp only
  split
  · next h => simp [show 2 ≤ r.errors by omega]
  · next h => simp [show ¬2 ≤ r.errors by omega]

theorem State.jWriteError_keyBus : (s.jWriteError r).keyBus = (s.kbAgain r (r.errors + 1)).keyBus := by
  unfold State.jWriteError
  dsimp only
  split <;> rfl

end

/-! ## Compaction (R218) -/

section
variable (s : State)

@[simp] theorem State.jWrite_mint (t : JTarget) (off : Nat) (data : Bytes) : (s.jWrite t off data).mint = s.mint := s.kbRaise_mint ..

@[simp] theorem State.writeTable_mint (t : JTarget) (table : Bytes) : (s.writeTable t table).mint = s.mint :=
  foldl_keeps State.mint _ (fun s _ => s.jWrite_mint ..) _ _

/-- Where MINT stands: the part that a compaction has begun last, the active copy and its generation. -/
def Mint.stage (m : Mint) : Option Nat × Bool × BitVec 32 := (m.compaction.map (·.step), m.activeB, m.generation)

/-- An append to the new copy's log moves no part of the compaction. -/
@[simp] theorem State.appendToNew_stage : s.appendToNew.mint.stage = s.mint.stage := by
  unfold State.appendToNew
  split
  · rfl
  · simp [Mint.stage, Function.comp_def]

end

/-- The next part of a compaction begins, or the compaction is over; the copies swap, under the next generation, in the sixth. -/
theorem State.compactNext_stage {s : State} {c : Compaction} (hc : s.mint.compaction = some c) :
    (s.compactNext c).mint.stage = (if c.step < 9 then some (c.step + 1) else none,
      if c.step = 5 then !s.mint.activeB else s.mint.activeB,
      if c.step = 5 then s.mint.generation + 1 else s.mint.generation) := by
  unfold State.compactNext
  dsimp only
  split
  case h_2 hstep =>
    split
    · rw [State.appendToNew_stage]
      simp [Mint.stage, hc, hstep]
    · simp [Mint.stage, hc, hstep]
  case h_10 =>
    simp only [imp_false] at *
    have hlast : 9 ≤ c.step := by omega
    simp [Mint.stage, Nat.not_lt.2 hlast, show c.step ≠ 5 by omega]
  all_goals simp [Mint.stage, *]

theorem exec_compactionStep {s : State} {c : Compaction} (hc : s.mint.compaction = some c) (hb : s.jBusy = false)
    (hread : c.step = 2 → ∀ r ∈ s.mint.records, r.unread = false) (happ : c.step = 5 → ∀ a ∈ s.mint.appends, a.waiting = none) :
    exec .compactionStep s = .next (s.compactNext c).flow := by
  have htable : (c.step != 2 || s.mint.records.all fun r => !r.unread) = true := by
    rw [Bool.or_eq_true]
    by_cases h2 : c.step = 2
    · exact .inr (List.all_eq_true.2 fun r hr => by rw [hread h2 r hr]; rfl)
    · exact .inl (bne_iff_ne.2 h2)
  have hboth : (c.step != 5 || s.mint.appends.all (·.waiting.isNone)) = true := by
    rw [Bool.or_eq_true]
    by_cases h5 : c.step = 5
    · exact .inr (List.all_eq_true.2 fun a ha => by rw [happ h5 a ha]; rfl)
    · exact .inl (bne_iff_ne.2 h5)
  have hpart : s.partReturned c = true := by rw [State.partReturned, hb, htable, hboth]; rfl
  exact onSome_of_eq (by rw [hc, Option.filter, hpart, if_pos rfl]) s _

/-! ## The start of the recovery (R219, R397, R431) -/

section
variable (s : State)

theorem State.jRead_kbClosed (t : JTarget) (off n : Nat) : (s.jRead t off n).kbClosed = s.kbClosed := by
  rw [State.kbClosed, State.jRead, State.kbRaise_lovage, State.kbClosed]

theorem State.jRead_reqs_length (hc : s.kbClosed = false) (t : JTarget) (off n : Nat) :
    (s.jRead t off n).keyBus.reqs.length = s.keyBus.reqs.length + 1 := by
  rw [State.jRead, State.kbRaise_open _ _ _ _ _ _ _ hc, List.length_append, List.length_singleton]

theorem State.recoverStart_open (hj : s.jnlEn = true) (hc : s.kbClosed = false) :
    s.recoverStart.mint.recovery = .headers ∧ s.recoverStart.mint.records = [] ∧
      s.recoverStart.keyBus.reqs.length = s.keyBus.reqs.length + 3 := by
  simp only [State.recoverStart, hj, hc, Bool.not_true, Bool.or_false, Bool.false_eq_true, if_false]
  refine ⟨?_, ?_, ?_⟩
  · simp [State.jRead]
  · simp [State.jRead]
  · rw [State.jRead_reqs_length, State.jRead_reqs_length, State.jRead_reqs_length]
    · rfl
    · exact hc
    · rw [State.jRead_kbClosed]
      exact hc
    · rw [State.jRead_kbClosed, State.jRead_kbClosed]
      exact hc

theorem State.recoverStart_nothing (h : s.jnlEn = false ∨ s.kbClosed = true) : s.recoverStart = s.recoveryDone := by
  rcases h with h | h <;> simp [State.recoverStart, h]

end

/-- Settles O26: each answer by what the model makes of the request it is for; a compaction by the stage that its next part leaves; the recovery by the reads it starts with. -/
theorem journalRule : Obligations.JournalRule := by
  unfold Obligations.JournalRule
  refine ⟨fun id s r t off b h hd hk => ⟨exec_jnlWriteResponse_granted h hd hk, fun o ho => ⟨exec_jnlWriteResponse_error h hd hk ho,
      s.jWriteError_refusing r, fun ha hc => ?again⟩⟩,
    fun s c hc hb hread happ => ⟨exec_compactionStep hc hb hread happ, ?stage⟩,
    fun id data s r t off n h hd hk => ⟨fun hb hrec => ?recovers, fun hb hrec => ?rereads, fun hb => hb ▸ exec_jnlReadResponse_empty h hd hk⟩,
    fun id s r t h hd hk => ⟨exec_jnlEraseResponse_granted h hd hk, fun o => exec_jnlEraseResponse_error h hd hk⟩,
    fun s hm hf h4 h8 hw hi hl => ⟨?starts, s.recoverStart_open, s.recoverStart_nothing⟩⟩
  case again =>
    rw [State.jWriteError_keyBus, State.kbAgain_reqs s r _ ha hc]
    exact ⟨_, List.mem_append_right _ (List.mem_singleton_self _), rfl, rfl, rfl, rfl⟩
  case stage =>
    have hstage := State.compactNext_stage hc
    simp only [Mint.stage, Prod.mk.injEq] at hstage
    obtain ⟨hstep, hcopy, hgen⟩ := hstage
    refine ⟨hstep, fun h5 => ?_, fun h5 => ?_⟩
    · rw [hcopy, hgen, if_pos h5, if_pos h5]
      exact ⟨rfl, rfl⟩
    · rw [hcopy, hgen, if_neg h5, if_neg h5]
      exact ⟨rfl, rfl⟩
  case recovers => rw [exec_jnlReadResponse_bytes h hd hk data hb, if_pos hrec]
  case rereads => rw [exec_jnlReadResponse_bytes h hd hk data hb, if_neg hrec]
  case starts => exact if_pos (by simp [hm, hf, h4, h8, hw, hi, hl])

end Sys2Proof.Machine
end

section
/-! PROOF. Load Key (R353 to R356, R194, R204, R208): the three commands, what a failed or finished load leaves of the posted ones, a load's steps, and the statement LoadKeyRule. -/

namespace Sys2Proof.Machine

/-! ## The commands -/

section
variable {c : BitVec 17} {s : State}

theorem exec_loadKey : ∀ p ∈ [(0, Instr.loadKeyByHandle c, LoadKind.handle), (1, .loadKeyAesKw c, .kw), (2, .loadKeyAesKwp c, .kwp)],
    exec p.2.1 s = s.loadKey c p.1 p.2.2 := by
  intro p hp
  simp only [List.mem_cons, List.not_mem_nil, or_false] at hp
  rcases hp with rfl | rfl | rfl <;> rfl

/-- The state with a load posted under the next number. -/
def State.postLoad (s : State) (l : PostedLoad) : State :=
  { s with admin := { s.admin with loadNumber := s.admin.loadNumber + 1, loads := s.admin.loads ++ [l] } }

/-- The load that an entry of domain x posts. -/
def State.newLoad (s : State) (j : Job) (kind : LoadKind) (x : Domain) : PostedLoad :=
  { load := s.admin.loadNumber + 1, kind := kind, domain := x.num, handle := fieldLe j.entry 32 3, kek := fieldLe j.entry 36 3,
    data := j.buffer, len := eLen j.entry, count := j.count, tag := BitVec.ofNat 16 (eTag j.entry), accepted := s.thyme.tick }

variable {j : Job} (h : s.job? 0 c = some j) (hp : j.phase = .command) (hs : j.status = none) (hr : s.plansRun = true)
  (ho : eOp j.entry = 0x11) (hn : s.admin.loads.length < 64)
include h hp hs hr ho hn

/-- A Load Key whose turn has come does what its target says. -/
theorem State.loadKey_turn {sub : Nat} (hsub : eSub j.entry = sub) : ((s.adminJob c 0x11 (· == sub)).filter
    fun _ => decide (s.admin.loads.length < 64)) = some j := by
  rw [State.adminJob_of (p := fun x => x == sub) h hp hs hr ho (beq_iff_eq.2 hsub), Option.filter, if_pos (decide_eq_true hn)]

variable {i : Instr} {kind : LoadKind} (hi : exec i s = s.loadKey c (eSub j.entry) kind)
include hi

theorem State.loadKey_noTarget (hx : s.domain? j.target = none) : s.adminEnds i c .malformed s := by
  obtain ⟨-, rfl⟩ := State.job?_num s h
  refine ⟨s.adminFail j.count .malformed 24, ?_, State.adminFail_ends h hs _ _⟩
  refine hi.trans ((onSome_of_eq (State.loadKey_turn h hp hs hr ho hn rfl) s _).trans ?_)
  simp only [State.onTarget, hx]

variable {x : Domain} (hx : s.domain? j.target = some x)
include hx

theorem State.loadKey_outside (hw : ¬(inWindow x (fieldLe j.entry 32 3) = true ∧
      (kind = .handle ∨ (s.domain? 0).any (fun m => inWindow m (fieldLe j.entry 36 3)) = true))) :
    s.adminEnds i c .keyDenied s := by
  have hexec := hi.trans (onSome_of_eq (State.loadKey_turn h hp hs hr ho hn rfl) s _)
  simp only [State.onTarget, hx] at hexec
  by_cases hin : inWindow x (fieldLe j.entry 32 3) = true
  · have hkek : (kind != .handle && !(s.domain? 0).any fun m => inWindow m (fieldLe j.entry 36 3)) = true := by
      simpa [hin] using hw
    rw [hin, hkek] at hexec
    exact ⟨_, hexec, State.adminFail_ends h hs _ _⟩
  · rw [Bool.not_eq_true] at hin
    rw [hin] at hexec
    exact ⟨_, hexec, State.adminFail_ends h hs _ _⟩

theorem State.loadKey_inside (hin : inWindow x (fieldLe j.entry 32 3) = true)
    (hk : kind = .handle ∨ (s.domain? 0).any (fun m => inWindow m (fieldLe j.entry 36 3)) = true) :
    s.adminEnds i c .ok (s.postLoad (s.newLoad j kind x)) := by
  obtain ⟨hq, rfl⟩ := State.job?_num s h
  have hkek : (kind != .handle && !(s.domain? 0).any fun m => inWindow m (fieldLe j.entry 36 3)) = false := by
    rcases hk with hk | hk <;> simp [hk]
  have hexec := hi.trans (onSome_of_eq (State.loadKey_turn h hp hs hr ho hn rfl) s _)
  simp only [State.onTarget, hx, hin, hkek, Bool.not_true, Bool.false_eq_true, if_false] at hexec
  have hjob := State.job?_setJob (s.postLoad (s.newLoad j kind x)) 0 0 j.count j.count (fun k => { k with bytesDone := eLen j.entry })
    fun _ => ⟨rfl, rfl⟩
  rw [show (s.postLoad (s.newLoad j kind x)).job? 0 j.count = some j from h, Option.map_some, hq] at hjob
  simp only [beq_self_eq_true, Bool.and_self, if_true] at hjob
  exact ⟨_, hexec, State.adminOk_ends hjob hs _⟩

end

/-! ## Posted loads that are over (R355, R356) -/

section
variable (s : State)

@[simp] theorem State.issue_admin (op : RurenOp) (cls : TClass) (d a n : Nat) (data : Bytes) (mk : Nat → Purpose) :
    (s.issue op cls d a n data mk).admin = s.admin := by
  unfold State.issue State.issueAt
  exact foldl_keeps State.admin _ (by intros; rfl) _ _

theorem State.issueFrom_admin (q fuel : Nat) (c : BitVec 17) : (State.issueFrom q fuel c s).admin = s.admin := by
  induction fuel generalizing c s with
  | zero => rfl
  | succ n ih =>
    unfold State.issueFrom
    split
    · split
      · exact ih _ _
      · split
        · exact (ih _ _).trans (s.issue_admin ..)
        · rfl
    · rfl

theorem State.issueCompletions_admin (q : Nat) : (s.issueCompletions q).admin = s.admin := by
  unfold State.issueCompletions
  split
  · rfl
  · exact State.issueFrom_admin ..

/-- Only a read of the log that has ended OK takes entries from it (R358). -/
theorem State.clearLog_of_not_ok {j : Job} (h : j.status ≠ some .ok) : s.clearLog j = s := by
  simp [State.clearLog, h]

theorem State.settle_admin {q : Nat} {c : BitVec 17} (h : s.statusOf q c ≠ some (some .ok)) : (s.settle q c).admin = s.admin := by
  unfold State.settle
  split
  · rfl
  · next j hj =>
    have hstatus : j.status ≠ some .ok := fun hok => h (by rw [State.statusOf, hj, Option.map_some, hok])
    split
    · rw [State.clearLog_of_not_ok s hstatus, State.issueCompletions_admin]
      rfl
    · rfl

theorem State.stopJob_admin (q : Nat) (c : BitVec 17) (st : Status) (j : Job) (z : Nat) : (s.stopJob q c st j z).admin = s.admin := by
  unfold State.stopJob
  dsimp only
  split <;> split <;> rfl

/-- A job that fails moves no posted load and no entry of the Deferred Error log. -/
theorem State.endJob_admin (q : Nat) (c : BitVec 17) {st : Status} (hst : st ≠ .ok) : (s.endJob q c st).admin = s.admin := by
  obtain ⟨z, hz⟩ := s.endJob_eq q c st
  rw [hz]
  by_cases h : ∃ j, s.job? q c = some j ∧ j.status = none
  · obtain ⟨j, hj, hs⟩ := h
    have hopen := State.endJobZ_open hj hs st z
    have hstatus : (s.stopJob q c st j z).statusOf q c = some (some st) := by
      rw [← State.settle_statusOf _ q q c c, ← hopen, ← State.endedWith_iff]
      exact State.endJobZ_ends (State.statusOf_open hj hs) st z
    rw [hopen, State.settle_admin _ (by simp [hstatus, hst]), State.stopJob_admin]
  · rw [State.endJobZ_closed fun j hj hs => h ⟨j, hj, hs⟩]

/-- The Deferred Error entry of a load that fails (Table 11.9). -/
def PostedLoad.defErr (l : PostedLoad) (st : Status) (tick : Nat) : DefErr :=
  { load := l.load, domain := l.domain, status := st, count := l.count, tag := l.tag, handle := l.handle, kek := l.kek, tick := tick }

theorem State.stopUnits_admin (q : Nat) (c : BitVec 17) : (s.stopUnits q c).admin = s.admin := by
  unfold State.stopUnits
  rfl

theorem State.dropLoadJob_admin (n : BitVec 32) : (s.dropLoadJob n).admin = s.admin := by
  unfold State.dropLoadJob State.abandonJob
  dsimp only
  rw [State.dropJob_admin, State.stopUnits_admin]
  rfl

/-- A load that fails is posted no longer, and its error is logged, or counted as lost in a full log (R356). -/
theorem State.failLoad_admin (l : PostedLoad) (st : Status) : (s.failLoad l st).admin =
    let a := { s.admin with loads := s.admin.loads.filter (·.load != l.load) }
    if a.defLog.length < 256 then { a with defLog := a.defLog ++ [l.defErr st s.thyme.tick] }
    else { a with defLost := a.defLost + 1 } := by
  unfold State.failLoad
  dsimp only
  rw [foldl_keeps State.admin _ (by intro s j; exact s.endJob_admin _ _ (by decide)), State.dropLoadJob_admin, State.eventDM_admin]
  rfl

theorem State.failLoad_load? (l : PostedLoad) (st : Status) : (s.failLoad l st).load? l.load = none := by
  have hloads : (s.failLoad l st).admin.loads = s.admin.loads.filter (·.load != l.load) := by
    rw [State.failLoad_admin]
    dsimp only
    split <;> rfl
  simp [State.load?, hloads, List.find?_eq_none]

theorem State.failLoad_defLog (l : PostedLoad) (st : Status) (hlog : s.admin.defLog.length < 256) :
    l.defErr st s.thyme.tick ∈ (s.failLoad l st).admin.defLog := by
  rw [State.failLoad_admin]
  dsimp only
  rw [if_pos hlog]
  exact List.mem_append_right _ (List.mem_singleton_self _)

theorem State.loadDone_load? (n : BitVec 32) : (s.loadDone n).load? n = none := by
  have hloads : (s.loadDone n).admin.loads = s.admin.loads.filter (·.load != n) :=
    congrArg (·.admin.loads) (State.keyRetry_still _)
  simp [State.load?, hloads, List.find?_eq_none]

end

/-! ## The steps of a posted load (R204, R208, R354) -/

section
variable {s u : State} {l : PostedLoad} {r : SlotCheck}

theorem exec_postedLoadRun (h : s.load? l.load = some l) (hr : s.plansRun = true) (hd : s.resetting l.domain = false)
    (ht : l.accepted < s.thyme.tick) (hc : s.checkSlot l.domain l.handle false = (u, r)) :
    exec (.postedLoadRun l.load) s = .next (u.loadStep l r).flow := by
  refine (onSome_of_eq (x := l) (by simp [h, hr, hd, ht, Option.filter]) s _).trans ?_
  rw [hc]

variable {k : KeyRec}

theorem State.loadStep_handle (hk : l.kind = .handle) (ht : k.typ ≠ 1) : u.loadStep l (.ready k) = u.loadDone l.load := by
  simp [State.loadStep, hk, ht]

theorem State.loadStep_pair (hk : l.kind = .handle) (ht : k.typ = 1) : u.loadStep l (.ready k) = u.loadMembers l k := by
  simp [State.loadStep, hk, ht]

/-- A pair with a member outside the window of its domain fails (R191, R204). -/
theorem State.loadMembers_outside (hin : ((u.domain? l.domain).any fun x => inWindow x k.newer && inWindow x k.older) = false) :
    u.loadMembers l k = u.failLoad l .keyDenied := by
  simp only [State.loadMembers, hin, Bool.not_false, if_true]

theorem State.loadMembers_inside (hin : ((u.domain? l.domain).any fun x => inWindow x k.newer && inWindow x k.older) = true)
    {v : State} {r' : KeyStep} (hc : State.checkKeys l.domain 0
      [{ role := .newer, second := true, handle := k.newer, failed := none },
        { role := .older, second := true, handle := k.older, failed := none }] u .ok = (v, r')) :
    (r' = .wait → u.loadMembers l k = v) ∧ (∀ st, r' = .fail st → u.loadMembers l k = v.failLoad l st) ∧
      (r' = .ok → u.loadMembers l k = v.loadDone l.load) := by
  simp only [State.loadMembers, hin, Bool.not_true, Bool.false_eq_true, if_false, hc]
  refine ⟨?_, ?_, ?_⟩
  · rintro rfl
    rfl
  · rintro st rfl
    rfl
  · rintro rfl
    rfl

variable (hk : l.kind ≠ .handle)
include hk

/-- A wrapped key is taken only by a slot-only record (R208). -/
theorem State.loadStep_otherType (ht : k.typ ≠ 2) : u.loadStep l (.ready k) = u.failLoad l .keyDenied := by
  simp [State.loadStep, hk, ht]

theorem State.loadStep_unpinned (ht : k.typ = 2) (hp : (u.slot? l.domain l.handle).any (·.pinned) = false) :
    u.loadStep l (.ready k) = u.failLoad l .keyCacheFull := by
  simp [State.loadStep, hk, ht, hp]

theorem State.loadStep_wrapped (ht : k.typ = 2) (hp : (u.slot? l.domain l.handle).any (·.pinned) = true) :
    u.loadStep l (.ready k) = u.runWrapped l := by
  simp [State.loadStep, hk, ht, hp]

end

section
variable {u : State} {l : PostedLoad} {w : Job} (hw : u.job? loadQueue (l.load.setWidth 17) = some w)
include hw

theorem State.runWrapped_ended {st : Status} (hs : w.status = some st) : u.runWrapped l = u.failLoad l st := by
  simp only [State.runWrapped, hw, hs]

variable (hs : w.status = none)
include hs

theorem State.runWrapped_running (hd : w.allDelivered = false) : u.runWrapped l = u := by
  simp only [State.runWrapped, hw, hs, hd, Bool.false_eq_true, if_false]

variable (hd : w.allDelivered = true)
include hd

theorem State.runWrapped_unauthentic (hm : w.unwrapped.1 = none) : u.runWrapped l = u.failLoad l .authFail := by
  simp only [State.runWrapped, hw, hs, hd, if_true, State.loadUnwrapped, hm]

variable {m : Bytes} (hm : w.unwrapped.1 = some m)
include hm

theorem State.runWrapped_taken (ht : u.targetOpen l.domain l.handle = true)
    (hf : (u.recOf l.domain l.handle).any (fun r => unwrapFits r m) = true) :
    u.runWrapped l = (u.readyKey l.domain l.handle m).loadDone l.load := by
  simp only [State.runWrapped, hw, hs, hd, if_true, State.loadUnwrapped, hm, ht, hf, Bool.not_true, Bool.or_false, Bool.false_eq_true,
    if_false]

/-- A target that is gone, or whose record does not permit the length, denies the key (R208). -/
theorem State.runWrapped_denied (h : ¬(u.targetOpen l.domain l.handle = true ∧
    (u.recOf l.domain l.handle).any (fun r => unwrapFits r m) = true)) : u.runWrapped l = u.failLoad l .keyDenied := by
  have hdeny : (!u.targetOpen l.domain l.handle || !(u.recOf l.domain l.handle).any fun r => unwrapFits r m) = true := by
    rcases Decidable.not_and_iff_not_or_not.1 h with h | h
    · rw [Bool.not_eq_true] at h
      rw [h, Bool.not_false, Bool.true_or]
    · rw [Bool.not_eq_true] at h
      rw [h, Bool.not_false, Bool.or_true]
  simp only [State.runWrapped, hw, hs, hd, if_true, State.loadUnwrapped, hm, hdeny]

end

/-- Settles O46: a command by its target and its windows; a posted load by the step that the check of its target leaves it at. -/
theorem loadKeyRule : Obligations.LoadKeyRule := by
  unfold Obligations.LoadKeyRule
  refine ⟨fun c s j h hp hs hr ho hn p hmem hsub => ?command, fun s u l r h hr hd ht hc => ?run⟩
  case command =>
    have hi : exec p.2.1 s = s.loadKey c (eSub j.entry) p.2.2 := by rw [exec_loadKey p hmem, hsub]
    refine ⟨State.loadKey_noTarget h hp hs hr ho hn hi, fun x hx => ⟨fun hin => ?_, State.loadKey_outside h hp hs hr ho hn hi hx⟩⟩
    obtain ⟨-, rfl⟩ := State.job?_num s h
    exact State.loadKey_inside h hp hs hr ho hn hi hx hin.1 hin.2
  case run =>
    have hexec := exec_postedLoadRun h hr hd ht hc
    have hrun {v : State} (hv : u.loadStep l r = v) : exec (.postedLoadRun l.load) s = .next v.flow := hv ▸ hexec
    refine ⟨?wait, ?fails, ?ready⟩
    case wait =>
      rintro rfl
      exact hexec
    case fails =>
      rintro st rfl
      exact ⟨hexec, u.failLoad_load? l st, fun hlog => ⟨_, u.failLoad_defLog l st hlog, rfl, rfl, rfl⟩⟩
    case ready =>
      rintro k rfl
      refine ⟨fun hk htyp => ⟨hrun (State.loadStep_handle hk htyp), u.loadDone_load? _⟩, fun hk htyp => ⟨fun hin => ?_, fun hin v r' hck => ?_⟩,
        fun hk htyp => hrun (State.loadStep_otherType hk htyp), fun hk htyp hpin => hrun (State.loadStep_unpinned hk htyp hpin),
        fun hk htyp hpin => ?wrapped⟩
      · exact hrun ((State.loadStep_pair hk htyp).trans (State.loadMembers_outside hin))
      · obtain ⟨hwait, hfail, hok⟩ := State.loadMembers_inside hin hck
        have hpair {w : State} (hw : u.loadMembers l k = w) := hrun ((State.loadStep_pair hk htyp).trans hw)
        exact ⟨fun e => hpair (hwait e), fun st e => hpair (hfail st e), fun e => hpair (hok e)⟩
      case wrapped =>
        have hwrap {v : State} (hv : u.runWrapped l = v) := hrun ((State.loadStep_wrapped hk htyp hpin).trans hv)
        refine ⟨fun _ => hwrap rfl, fun w hw => ⟨fun st hst => hwrap (State.runWrapped_ended hw hst),
          fun hst hdel => hwrap (State.runWrapped_running hw hst hdel), fun hst hdel =>
          ⟨fun hm => hwrap (State.runWrapped_unauthentic hw hst hdel hm), fun m hm =>
          ⟨fun hopen => hwrap (State.runWrapped_taken hw hst hdel hm hopen.1 hopen.2),
          fun hopen => hwrap (State.runWrapped_denied hw hst hdel hm hopen)⟩⟩⟩⟩

end Sys2Proof.Machine
end

section
/-! PROOF. Key loads (R187, R199, R200, R258, R259, R459, R460): each answer to a KEY_LOAD. Every clause of the statement KeyLoadRule is proved here as a theorem of its own, but the one of outcome 3, which holds as long as every request carries a serial number given out before; the statement asks for it of every state, and a state in which an outstanding request carries the next number refutes it. -/

namespace Sys2Proof.Machine

/-! ## The answers -/

theorem State.keyLoad_found {id : BitVec 16} {s : State} {r : KbReq} (h : s.kbReq? id = some r) (hk : r.kind = .keyLoad) :
    (s.kbReq? id).filter (·.kind == .keyLoad) = some r := by
  simp [h, hk, Option.filter]

section
variable {id : BitVec 16} {s : State} {r : KbReq} (h : s.kbReq? id = some r) (hk : r.kind = .keyLoad)
  (hr : s.resetting r.domain = false) (payload : Bytes)
include h hk hr

/-- A record that a slot waits for and may take fills it; MINT takes up its counter, and jobs look again (R187, R199, R213). -/
theorem exec_keyLoadResponse_fills (hd : r.dest = .slot) (hlen : 128 ≤ payload.length) (hok : recordOk (parseRec payload) = true)
    {x : KeySlot} (hx : s.slot? r.domain r.handle = some x) (hl : x.loading = true) : exec (.keyLoadResponse id .granted payload) s =
      .next ((((s.kbEnd r.serial).fillSlot r.domain r.handle (parseRec payload)).mintOnLoad r.domain r.handle).keyRetry).flow := by
  refine (onSome_of_eq (State.keyLoad_found h hk) s _).trans ?_
  simp [hr, hd, State.slotLoaded, hx, hl, hlen, hok]

/-- A refused or unknown handle denies what waits for its slot (R187). -/
theorem exec_keyLoadResponse_denies (hd : r.dest = .slot) {o : KbOutcome} (hg : o ≠ .granted) (he : o ≠ .error) :
    exec (.keyLoadResponse id o payload) s = .next ((s.kbEnd r.serial).denyLoad r.domain r.handle).flow := by
  refine (onSome_of_eq (State.keyLoad_found h hk) s _).trans ?_
  rcases KbOutcome.denies hg he with rfl | rfl <;> simp [hr, hd]

section
variable {q : Nat} {c : BitVec 17} (hd : r.dest = .job q c)
include hd

theorem exec_keyLoadResponse_deniesJob {o : KbOutcome} (hg : o ≠ .granted) (he : o ≠ .error) :
    exec (.keyLoadResponse id o payload) s = .next ((s.kbEnd r.serial).endJob q c .keyDenied).flow := by
  refine (onSome_of_eq (State.keyLoad_found h hk) s _).trans ?_
  rcases KbOutcome.denies hg he with rfl | rfl <;> simp [hr, hd]

theorem exec_keyLoadResponse_job : exec (.keyLoadResponse id .granted payload) s =
    .next ((s.kbEnd r.serial).pkLoaded q c payload).flow := by
  refine (onSome_of_eq (State.keyLoad_found h hk) s _).trans ?_
  simp [hr, hd]

end

theorem exec_keyLoadResponse_error : exec (.keyLoadResponse id .error payload) s = .next (s.kbAgain r r.errors).flow := by
  refine (onSome_of_eq (State.keyLoad_found h hk) s _).trans ?_
  simp [hr]

end

/-- SLOT_WAIT_RETRY: a job that waits for its keys looks again (R200). -/
theorem exec_slotWaitRetry {q : Nat} {c : BitVec 17} {s : State} {j : Job} (h : s.job? q c = some j) (hp : j.phase = .keys) :
    exec (.slotWaitRetry q c) s = .next (s.keyProgress q c).flow :=
  onSome_of_eq (x := j) (by simp [h, hp, Option.filter]) s _

/-! ## Serial numbers -/

/-- Every request carries a serial number that has been given out. -/
def KeyBus.numbered (k : KeyBus) : Prop := ∀ x ∈ k.reqs, x.serial < k.serial

theorem KeyBus.reset_numbered : KeyBus.reset.numbered := by
  intro x hx
  cases hx

section
variable {s : State} (hn : s.keyBus.numbered)
include hn

theorem State.kbEnd_numbered (n : Nat) : (s.kbEnd n).keyBus.numbered := fun x hx => hn x (List.mem_filter.1 hx).1

theorem State.kbRaise_numbered (k : KbKind) (d h : Nat) (dest : KbFor) (avoid : Option Nat) (e : Nat) :
    (s.kbRaise k d h dest avoid e).keyBus.numbered := by
  unfold State.kbRaise
  dsimp only
  split
  · exact hn
  · intro x hx
    rcases List.mem_append.1 hx with hx | hx
    · exact Nat.lt_succ_of_lt (hn x hx)
    · rw [List.mem_singleton.1 hx]
      exact Nat.lt_succ_self _

theorem State.kbAgain_numbered (r : KbReq) (e : Nat) : (s.kbAgain r e).keyBus.numbered := by
  unfold State.kbAgain
  split
  · exact State.kbEnd_numbered hn _
  · exact State.kbRaise_numbered (State.kbEnd_numbered hn _) _ _ _ _ _ _

/-- Where requests are numbered, one that is raised again is gone, and one under a number of its own waits for another frame in its place (R460). -/
theorem exec_keyLoadResponse_raisesAgain {id : BitVec 16} {r : KbReq} (h : s.kbReq? id = some r) (hk : r.kind = .keyLoad)
    (hr : s.resetting r.domain = false) (ha : s.inAlarm = false) (hc : s.kbClosed = false) (payload : Bytes) :
    ∃ u : State, exec (.keyLoadResponse id .error payload) s = .next u.flow ∧
      (∀ x ∈ u.keyBus.reqs, x ∈ s.keyBus.reqs → x.serial ≠ r.serial) ∧
      ∃ r' ∈ u.keyBus.reqs, r'.serial = s.keyBus.serial ∧ r'.frame = none ∧
        r'.kind = r.kind ∧ r'.domain = r.domain ∧ r'.handle = r.handle ∧ r'.dest = r.dest := by
  refine ⟨s.kbAgain r r.errors, exec_keyLoadResponse_error h hk hr payload, ?_⟩
  rw [State.kbAgain_reqs s r _ ha hc]
  refine ⟨fun x hx hold => ?_, _, List.mem_append_right _ (List.mem_singleton_self _), rfl, rfl, rfl, rfl, rfl, rfl⟩
  rcases List.mem_append.1 hx with hx | hx
  · simpa using (List.mem_filter.1 hx).2
  · have hnew := hn x hold
    rw [List.mem_singleton.1 hx] at hnew
    exact absurd hnew (Nat.lt_irrefl _)

end

/-! ## A state that refutes the clause of outcome 3 -/

section
variable (s : State)

theorem State.sendAll_keyBus : s.sendAll.keyBus = s.keyBus := by
  unfold State.sendAll
  split <;> rfl

theorem State.repeats_of_still {s t : State} (h : t.still = s.still) (u : LockUnit) : t.repeats u = s.repeats u := by
  have hsorrel := congrArg State.sorrel h
  exact congrArg (fun x : Sorrel => x.repeating.contains u) hsorrel

/-- While FENNEL and BAY repeat their work (R381) the block's own progress leaves the key bus alone. -/
theorem State.flow_keyBus_of_repeats (hf : s.repeats .fennel = true) (hb : s.repeats .bay = true) : s.flow.keyBus = s.keyBus := by
  have hfennel : s.sweepRevoked.fennelFlow = s.sweepRevoked := by
    rw [State.fennelFlow, State.repeats_of_still s.sweepRevoked_still, hf, if_pos rfl]
  have hkeys : s.sweepRevoked.sendAll.keyFlow = s.sweepRevoked.sendAll := by
    rw [State.keyFlow, State.repeats_of_still ((State.sendAll_still _).trans s.sweepRevoked_still), hb, Bool.true_or, if_pos rfl]
  rw [State.flow, hfennel, hkeys, State.sendAll_keyBus]
  rfl

end

/-- An outstanding KEY_LOAD with serial number 0. -/
def sentLoad : KbReq :=
  { serial := 0, reqId := 0, frame := some 0, lane := 0, kind := .keyLoad, domain := 0, handle := 0, dest := .slot, tick := 0, errors := 0 }

/-- The same KEY_LOAD as it waits when it has been raised again. -/
def waitingLoad : KbReq := { sentLoad with frame := none, lane := 1 }

/-- A key bus that has given out no serial number, and yet carries two requests of number 0; FENNEL and BAY repeat their work. -/
def unnumbered : State :=
  { State.reset with
    keyBus := { KeyBus.reset with reqs := [sentLoad, waitingLoad] }
    sorrel := { State.reset.sorrel with repeating := [.fennel, .bay] } }

/-- Raising the outstanding request again makes the very request that waited beside it. -/
theorem unnumbered_again : (unnumbered.kbAgain sentLoad 0).keyBus.reqs = [waitingLoad] := by decide +kernel

/-- Every state with the same progress as the one that raises the request again has its key bus. -/
theorem keyBus_of_flow_unnumbered {u : State} (h : u.flow = (unnumbered.kbAgain sentLoad 0).flow) :
    u.keyBus = (unnumbered.kbAgain sentLoad 0).keyBus := by
  have hstill : u.still = (unnumbered.kbAgain sentLoad 0).still := by rw [← u.flow_still, h, State.flow_still]
  have hrepeats (x : LockUnit) := State.repeats_of_still hstill x
  have hflow : (unnumbered.kbAgain sentLoad 0).flow.keyBus = (unnumbered.kbAgain sentLoad 0).keyBus :=
    State.flow_keyBus_of_repeats _ rfl rfl
  rw [← u.flow_keyBus_of_repeats (hrepeats .fennel) (hrepeats .bay), h, hflow]

/-- Refutes O23: where the key bus carries its next serial number already, the request that outcome 3 raises again is one that was there before, with the serial number of the request that it replaces. -/
theorem not_keyLoadRule : ¬Obligations.KeyLoadRule := by
  unfold Obligations.KeyLoadRule
  rintro ⟨hload, -, -⟩
  have hsent : unnumbered.kbReq? 0 = some sentLoad := rfl
  obtain ⟨-, -, -, herror⟩ := hload 0 [] unnumbered sentLoad hsent rfl rfl
  obtain ⟨u, hu, hgone, -⟩ := herror (.inl rfl) rfl rfl
  rw [exec_keyLoadResponse_error hsent rfl rfl] at hu
  injection hu with hflow
  have hreqs : u.keyBus.reqs = [waitingLoad] := by rw [keyBus_of_flow_unnumbered hflow.symm, unnumbered_again]
  have hthere : waitingLoad ∈ unnumbered.keyBus.reqs := List.mem_cons_of_mem _ (List.mem_singleton_self _)
  exact hgone waitingLoad (hreqs ▸ List.mem_singleton_self _) hthere rfl

end Sys2Proof.Machine
end

section
/-! PROOF. Faults on the memory ports (R237, R374, R447 to R452, R456, R498): what a transfer that fails, is cut short or fails a check leaves, and the statements FailedTransfers and ChecksReissue. -/

namespace Sys2Proof.Machine

/-- The write-back of transaction t is superseded: a snoop has been answered with the line (R237). -/
def State.isSuperseded (s : State) (t : Txn) : Prop :=
  t.op = .evict ∧ ∃ l, s.line? t.domain (t.iova / 128) = some l ∧ l.state = .passed

section
variable {s : State} {t : Txn}

theorem State.superseded?_of_not (h : ¬s.isSuperseded t) : s.superseded? t = none := by
  unfold State.superseded?
  split
  · rename_i hop
    refine Option.filter_eq_none_iff.2 fun l hl hp => h ⟨beq_iff_eq.1 hop, l, hl, beq_iff_eq.1 hp⟩
  · rfl

theorem State.superseded?_of_passed {l : WbLine} (hop : t.op = .evict) (hl : s.line? t.domain (t.iova / 128) = some l)
    (hp : l.state = .passed) : s.superseded? t = some l := by
  simp [State.superseded?, hop, hl, hp, Option.filter]

/-- No snoop supersedes a read. -/
theorem State.not_isSuperseded_of_read (h : t.op = .read) : ¬s.isSuperseded t := fun ⟨hop, _⟩ => by simp [h] at hop

/-- Only what writes is logged (R332). -/
theorem State.logTxn_read (h : t.op = .read) : s.logTxn t = s := by
  simp [State.logTxn, h]

end

/-! ## Transfers that go out again -/

section
variable {s : State} {t : Txn} {g : Nat} (ht : t.tag = some g)
include ht

theorem State.sendAgain_superseded {l : WbLine} (hop : t.op = .evict) (hl : s.line? t.domain (t.iova / 128) = some l)
    (hp : l.state = .passed) : s.sendAgain t = (s.endLogged t g).freeLine l := by
  simp only [State.sendAgain, ht, State.superseded?_of_passed hop hl hp]

theorem State.truncated_superseded {l : WbLine} (hd : t.dead = false) (hc : t.cls ≠ .maintenance) (hop : t.op = .evict)
    (hl : s.line? t.domain (t.iova / 128) = some l) (hp : l.state = .passed) (got : ReadData) :
    s.truncated t got = (s.endLogged t g).freeLine l := by
  simp [State.truncated, ht, hd, hc, State.superseded?_of_passed hop hl hp]

section
variable (hk : ¬s.isSuperseded t)
include hk

theorem State.sendAgain_dead (hd : t.dead = true) : s.sendAgain t = (s.endLogged t g).deadDone t := by
  simp only [State.sendAgain, ht, State.superseded?_of_not hk, hd, if_true]

theorem State.sendAgain_test (hd : t.dead = false) (hc : t.cls = .maintenance) : s.sendAgain t = s.failTxn t := by
  simp [State.sendAgain, ht, State.superseded?_of_not hk, hd, hc]

theorem State.sendAgain_live (hd : t.dead = false) (hc : t.cls ≠ .maintenance) :
    s.sendAgain t = s.reissue t.port g false t.kept := by
  simp [State.sendAgain, ht, State.superseded?_of_not hk, hd, hc]

/-- A transfer that has been cut short goes out again on a spare port, once (R450 to R452). -/
theorem State.truncated_onward (hs : s.sparePort ≠ none) (hcut : t.cut = false) (hd : t.dead = false) (hc : t.cls ≠ .maintenance)
    (got : ReadData) : s.truncated t got = s.reissue t.port g true got := by
  have hspare : s.sparePort.isNone = false := Option.isNone_eq_false_iff.2 (Option.isSome_iff_ne_none.2 hs)
  simp [State.truncated, ht, hd, hc, State.superseded?_of_not hk, hcut, hspare]

end

/-- With no spare port, or a second time, it fails; one that was cut and one of a port's test fail at once. -/
theorem State.truncated_fails (hn : ¬(s.sparePort ≠ none ∧ t.cut = false ∧ t.dead = false ∧ t.cls ≠ .maintenance))
    (hk : t.dead = true ∨ t.cls = .maintenance ∨ ¬s.isSuperseded t) (got : ReadData) : s.truncated t got = s.failTxn t := by
  by_cases hout : t.dead = true ∨ t.cls = .maintenance
  · simp only [State.truncated, Bool.or_eq_true, beq_iff_eq, if_pos hout]
  · obtain ⟨hd, hc⟩ := not_or.1 hout
    have hd : t.dead = false := Bool.eq_false_iff.2 hd
    have hk : ¬s.isSuperseded t := (hk.resolve_left (by simp [hd])).resolve_left hc
    have hno : (t.cut || s.sparePort.isNone) = true := by
      cases hcut : t.cut with
      | true => rfl
      | false =>
        cases hs : s.sparePort with
        | none => rfl
        | some p => exact absurd ⟨hs ▸ Option.some_ne_none p, hcut, hd, hc⟩ hn
    simp [State.truncated, ht, hd, hc, State.superseded?_of_not hk, hno]

end

/-! ## Transfers that fail -/

section
variable {u : State} {t : Txn} (hd : t.dead = false)
include hd

theorem State.failTransfer_entry {q : Nat} {cs : List (BitVec 17)} {p a : Bool} (h : t.purpose = .entry q cs p a) :
    u.failTransfer t = cs.foldl (fun u c => u.failEntry q c p [] .fabricError) u := by
  simp [State.failTransfer, hd, h, State.failEntries]

theorem State.failTransfer_aux {q : Nat} {c : BitVec 17} (h : t.purpose = .aux q c) : u.failTransfer t = u.endJob q c .fabricError := by
  simp [State.failTransfer, hd, h]

theorem State.failTransfer_payload {q : Nat} {c : BitVec 17} {i o : Nat} (h : t.purpose = .payload q c i o) :
    u.failTransfer t = (u.stopUnits q c).endJob q c .fabricError := by
  simp [State.failTransfer, hd, h]

theorem State.failTransfer_response {o : Nat} (h : t.purpose = .response o) :
    u.failTransfer t = { u with lovage := { u.lovage with respFailed := true } } := by
  simp [State.failTransfer, hd, h]

/-- A failed output write ends an open job with FABRIC_ERROR (Table 15.6). -/
theorem State.failTransfer_output {q : Nat} {c : BitVec 17} {i o : Nat} {j : Job} (h : t.purpose = .output q c i o)
    (hj : u.job? q c = some j) (hs : j.status = none) : (u.failTransfer t).endedWith q c .fabricError := by
  have hend : u.failTransfer t = u.endJob q c .fabricError := by simp [State.failTransfer, hd, h, State.failOutput, hj, hs]
  rw [hend, State.endedWith_iff, State.endJob_statusOf, if_pos ⟨rfl, rfl⟩, State.statusOf, hj]
  simp [hs]

end

/-- One that a reset has cut has nothing to fail. -/
theorem State.failTransfer_dead {u : State} {t : Txn} (hd : t.dead = true) : u.failTransfer t = u.deadDone t := by
  simp [State.failTransfer, hd]

/-! ## The commands -/

section
variable {s : State} {port tag : Nat} {t : Txn} (h : s.txn? port tag = some t)
include h

theorem exec_fabricErrorResponse : exec (.fabricErrorResponse port tag) s = .next (s.failTxn t).flow := by
  change execFabricErrorResponse port tag s = _
  simp [execFabricErrorResponse, onSome, done, h]

theorem exec_readTruncated (hop : t.op = .read) (beats : Nat) (data : ReadData) (byCheck : Bool) :
    exec (.readTruncated port tag beats data byCheck) s = .next (if byCheck then (s.truncated t (t.cutOff beats data)).countPort port
      else s.truncated t (t.cutOff beats data)).flow := by
  change execReadTruncated port tag beats data byCheck s = _
  simp [execReadTruncated, State.read?, onSome, done, h, hop, Option.filter]

theorem exec_writeTruncated (hop : t.op = .write ∨ t.op = .evict) :
    exec (.writeTruncated port tag) s = .next (s.truncated t t.kept).flow := by
  change execWriteTruncated port tag s = _
  simp [execWriteTruncated, onSome, done, h, hop, Option.filter]

theorem exec_checkResponse : exec (.checkResponse port tag) s = .next ((s.sendAgain t).countPort port).flow := by
  change execCheckResponse port tag s = _
  simp [execCheckResponse, onSome, done, h]

/-- A response that fails its check is one with CHECK (R447, R498). -/
theorem exec_writeResponse_check (hop : t.op ≠ .read) : exec (.writeResponse port tag true) s = exec (.checkResponse port tag) s := by
  rw [exec_checkResponse h, exec_writeResponse]
  simp [execWriteResponse, onSome, done, h, hop, Option.filter]

end

/-- What egress does with a write goes by whether it carries a slice's output, a context line, or neither. -/
theorem Purpose.output_or_line_or_other (p : Purpose) : (∃ q c i o, p = .output q c i o) ∨ (∃ q c a b, p = .line q c a b) ∨
    ((∀ q c i o, p ≠ .output q c i o) ∧ ∀ q c a b, p ≠ .line q c a b) := by
  cases p <;> simp

/-- s with one egress failure more on a port (R374). -/
def State.egressFailed (s : State) (port : Nat) : State := s.setPort port fun x => { x with egress := x.egress + 1 }

section
variable {s : State} {port tag : Nat} {t : Txn} (h : s.txn? port tag = some t) (hop : t.op = .write ∨ t.op = .evict)
include h hop

/-- A record, or a job's own write that no slice made, goes out again (R374). -/
theorem exec_egressCheckFail_record (ho : ∀ q c i o, t.purpose ≠ .output q c i o) (hl : ∀ q c a b, t.purpose ≠ .line q c a b) :
    exec (.egressCheckFail port tag) s = .next (((s.egressFailed port).sendAgain t).countPort port).flow := by
  change execEgressCheckFail port tag s = _
  simp only [execEgressCheckFail, h, Option.filter, beq_iff_eq, Bool.or_eq_true, hop, if_true, onSome, done]
  cases hp : t.purpose
  case output q c i o => exact absurd hp (ho q c i o)
  case line q c a b => exact absurd hp (hl q c a b)
  all_goals rfl

/-- A context line goes out poisoned (R448). -/
theorem exec_egressCheckFail_line {q : Nat} {c : BitVec 17} {a : Bool} {b : Nat} (hl : t.purpose = .line q c a b) :
    exec (.egressCheckFail port tag) s =
      .next ((((s.egressFailed port).poisonLine t).sendAgain { t with poison := [true, true] }).countPort port).flow := by
  change execEgressCheckFail port tag s = _
  simp [execEgressCheckFail, h, Option.filter, hop, onSome, done, hl, State.egressFailed]

/-- An output is made again by its slice, unless a reset has cut it (R374). -/
theorem exec_egressCheckFail_output {q : Nat} {c : BitVec 17} {i o : Nat} (ho : t.purpose = .output q c i o) :
    exec (.egressCheckFail port tag) s = .next ((if t.dead then ((s.egressFailed port).endLogged t tag).deadDone t
      else (s.egressFailed port).egressSlice t q c i).countPort port).flow := by
  change execEgressCheckFail port tag s = _
  simp [execEgressCheckFail, h, Option.filter, hop, onSome, done, ho, State.egressFailed]

end

/-! ## Lines that go out poisoned -/

/-- A map that moves nothing which a filter keeps, and keeps what the filter looks at, leaves the filtered list. -/
theorem filter_map_of_kept_fixed {α : Type} (p : α → Bool) (f : α → α) (hp : ∀ x, p (f x) = p x) (hf : ∀ x, p x = true → f x = x)
    (l : List α) : (l.map f).filter p = l.filter p := by
  rw [List.filter_map, show p ∘ f = p from funext hp, List.map_congr_left fun x hx => hf x (List.mem_filter.1 hx).2, List.map_id']

section
variable (s : State) {t : Txn} {g : Nat} (ht : t.tag = some g)
include ht

/-- The end of a transaction leaves nothing of the mark that it was given before. -/
theorem State.poisonLine_endTxn : (s.poisonLine t).endTxn t.port g = s.endTxn t.port g := by
  refine congrArg (fun ts => ({ s with txns := ts } : State)) (filter_map_of_kept_fixed _ _ (fun x => ?_) (fun x hx => if_neg fun he => ?_) _)
  · split <;> rfl
  · simp [beq_iff_eq.1 he, ht] at hx

theorem State.poisonLine_endLogged : (s.poisonLine t).endLogged { t with poison := [true, true] } g = s.endLogged t g :=
  congrArg (State.logTxn · t) (s.poisonLine_endTxn ht)

theorem State.poisonLine_sendAgain_dead (hk : ¬s.isSuperseded t) (hd : t.dead = true) :
    (s.poisonLine t).sendAgain { t with poison := [true, true] } = (s.endLogged t g).deadDone t := by
  rw [← s.poisonLine_endLogged ht]
  exact State.sendAgain_dead ht hk hd

theorem State.poisonLine_sendAgain_superseded {l : WbLine} (hop : t.op = .evict) (hl : s.line? t.domain (t.iova / 128) = some l)
    (hp : l.state = .passed) : (s.poisonLine t).sendAgain { t with poison := [true, true] } = (s.endLogged t g).freeLine l := by
  rw [← s.poisonLine_endLogged ht]
  exact State.sendAgain_superseded (s := s.poisonLine t) (t := { t with poison := [true, true] }) ht hop hl hp

end

/-- Settles O16: the transfer fails by what it carried (failTransfer), and one that is cut short goes out again or fails as truncated says. -/
theorem failedTransfers : Obligations.FailedTransfers := by
  unfold Obligations.FailedTransfers
  intro port tag s t h gone fails put again onward kept
  obtain ⟨rfl, ht⟩ := State.txn?_key h
  have hagain (got : ReadData) : s.reissue t.port tag true got = again got := by
    simp [State.reissue, again, put]
  refine ⟨exec_fabricErrorResponse h, fun hd => ?live, State.failTransfer_dead, fun beats data hop => ?read, fun hop => ?write⟩
  case live =>
    have hread (hop : t.op = .read) : fails = gone.failTransfer t := congrArg (State.failTransfer · t) (State.logTxn_read hop)
    refine ⟨fun q cs p a hop hp => ?_, fun q c hop hp => ?_, fun q c i o hop hp => ?_, fun o hop hp => ?_,
      fun q c i o j hp hj hs => State.failTransfer_output hd hp hj hs⟩
    · rw [hread hop, State.failTransfer_entry hd hp]
    · rw [hread hop, State.failTransfer_aux hd hp]
    · rw [hread hop, State.failTransfer_payload hd hp]
    · rw [hread hop, State.failTransfer_response hd hp]
  case read =>
    have hk : ¬s.isSuperseded t := State.not_isSuperseded_of_read hop
    intro got
    refine ⟨fun ⟨hs, hcut, hd, hc⟩ => ?_, fun hn => ?_⟩
    · have hcutOff : s.truncated t (t.cutOff beats data) = again got := by
        rw [State.truncated_onward ht hk hs hcut hd hc, hagain]
        rfl
      rw [exec_readTruncated h hop, exec_readTruncated h hop, hcutOff]
      exact ⟨rfl, rfl⟩
    · rw [exec_readTruncated h hop, exec_readTruncated h hop, State.truncated_fails ht hn (.inr (.inr hk))]
      exact ⟨rfl, rfl⟩
  case write =>
    rw [exec_writeTruncated h hop]
    refine ⟨fun ⟨hs, hcut, hd, hc⟩ hk => ?_, fun hn hk => ?_, fun l hd hc he hl hp => ?_⟩
    · rw [State.truncated_onward ht hk hs hcut hd hc, hagain]
    · rw [State.truncated_fails ht hn hk]
      rfl
    · rw [State.truncated_superseded ht hd hc he hl hp]
      rfl

/-- Settles O17: a transfer that fails a check is what sendAgain makes of it, and its port is counted. -/
theorem checksReissue : Obligations.ChecksReissue := by
  unfold Obligations.ChecksReissue
  intro port tag s t h e ended kept plain both
  obtain ⟨rfl, ht⟩ := State.txn?_key h
  have hcheck {v : State} (hv : s.sendAgain t = v) : exec (.checkResponse t.port tag) s = .next (v.countPort t.port).flow :=
    hv ▸ exec_checkResponse h
  have hrecord {v : State} (hop : t.op = .write ∨ t.op = .evict) (hp : plain) (hv : e.sendAgain t = v) :
      exec (.egressCheckFail t.port tag) s = .next (v.countPort t.port).flow := hv ▸ exec_egressCheckFail_record h hop hp.1 hp.2
  have hline {v : State} (hop : t.op = .write ∨ t.op = .evict) (hp : ∃ q c a b, t.purpose = .line q c a b)
      (hv : (e.poisonLine t).sendAgain { t with poison := [true, true] } = v) :
      exec (.egressCheckFail t.port tag) s = .next (v.countPort t.port).flow := by
    obtain ⟨q, c, a, b, hp⟩ := hp
    exact hv ▸ exec_egressCheckFail_line h hop hp
  have hout {q c i o} (hop : t.op = .write ∨ t.op = .evict) (hp : t.purpose = .output q c i o) :=
    exec_egressCheckFail_output h hop hp
  refine ⟨fun hd hc hk => ?live, fun hd hc hk => ?test, exec_writeResponse_check h, fun x hx => ?again, fun q c i o hd hop hp => ?output,
    fun hd hk => ?dead, fun l he hl hp => ?superseded⟩
  case live =>
    exact ⟨hcheck (State.sendAgain_live ht hk hd hc), fun hop hp => hrecord hop hp (State.sendAgain_live ht hk hd hc),
      fun hop hp => hline hop hp (State.sendAgain_live ht hk hd hc)⟩
  case test =>
    exact ⟨hcheck (State.sendAgain_test ht hk hd hc), fun hop hp => hrecord hop hp (State.sendAgain_test ht hk hd hc)⟩
  case again =>
    obtain ⟨y, hy, rfl⟩ := List.mem_map.1 hx
    split
    · exact .inr ⟨rfl, rfl, rfl, rfl⟩
    · exact .inl hy
  case output => rw [hout (.inl hop) hp, hd]; rfl
  case dead =>
    refine ⟨hcheck (State.sendAgain_dead ht hk hd), fun hop => ?_⟩
    rcases t.purpose.output_or_line_or_other with ⟨q, c, i, o, hp⟩ | hp | hp
    · rw [hout hop hp, hd]; rfl
    · exact hline hop hp (e.poisonLine_sendAgain_dead ht hk hd)
    · exact hrecord hop hp (State.sendAgain_dead ht hk hd)
  case superseded =>
    refine ⟨hcheck (State.sendAgain_superseded ht he hl hp), fun ho => ?_⟩
    rcases t.purpose.output_or_line_or_other with ⟨q, c, i, o, hq⟩ | hq | hq
    · exact absurd hq (ho q c i o)
    · exact hline (.inr he) hq (e.poisonLine_sendAgain_superseded ht he hl hp)
    · exact hrecord (.inr he) hq (State.sendAgain_superseded ht he hl hp)

end Sys2Proof.Machine
end

section
/-! PROOF. Restores of saved contexts (R236, R375, Table 7.6): the contexts that the end of a job leaves, what becomes of a record that has come back whole, and the statement ContextRestoreRule. -/

namespace Sys2Proof.Machine

/-! ## The contexts that the end of a job leaves -/

section
variable (s : State)

@[simp] theorem State.issue_dill (op : RurenOp) (cls : TClass) (d a n : Nat) (data : Bytes) (mk : Nat → Purpose) :
    (s.issue op cls d a n data mk).dill = s.dill := by
  unfold State.issue State.issueAt
  exact foldl_keeps State.dill _ (by intros; rfl) _ _

theorem State.clearLog_dill (j : Job) : (s.clearLog j).dill = s.dill := by
  unfold State.clearLog
  split <;> rfl

theorem State.stopJob_dill (q : Nat) (c : BitVec 17) (st : Status) (j : Job) (z : Nat) : (s.stopJob q c st j z).dill = s.dill := by
  unfold State.stopJob
  dsimp only
  split <;> split <;> rfl

theorem State.eventDM_dill (d t p a : Nat) (data : Bytes) : (s.eventDM d t p a data).dill = s.dill :=
  congrArg (·.dill) (s.eventDM_unposted ..)

theorem State.eventDM_fennel (d t p a : Nat) (data : Bytes) : (s.eventDM d t p a data).fennel = s.fennel :=
  congrArg (·.fennel) (s.eventDM_unposted ..)

/-- A completion releases the contexts of its job, and takes none (R246). -/
theorem State.issueFrom_ctxs (q fuel : Nat) (c : BitVec 17) : (State.issueFrom q fuel c s).dill.ctxs ⊆ s.dill.ctxs := by
  induction fuel generalizing c s with
  | zero => exact List.Subset.refl _
  | succ n ih =>
    unfold State.issueFrom
    split
    · split
      · exact ih _ _
      · split
        · refine List.Subset.trans (ih _ _) fun x hx => ?_
          have hkept := (List.mem_filter.1 hx).1
          rwa [State.setJob_dill, State.issue_dill] at hkept
        · exact List.Subset.refl _
    · exact List.Subset.refl _

theorem State.issueCompletions_ctxs (q : Nat) : (s.issueCompletions q).dill.ctxs ⊆ s.dill.ctxs := by
  unfold State.issueCompletions
  split
  · exact List.Subset.refl _
  · exact State.issueFrom_ctxs ..

theorem State.settle_ctxs (q : Nat) (c : BitVec 17) : (s.settle q c).dill.ctxs ⊆ s.dill.ctxs := by
  unfold State.settle
  split
  · exact List.Subset.refl _
  · split
    · refine List.Subset.trans (State.issueCompletions_ctxs ..) ?_
      rw [State.setJob_dill, State.clearLog_dill]
      exact List.Subset.refl _
    · exact List.Subset.refl _

/-- The end of a job takes no context. -/
theorem State.endJob_ctxs (q : Nat) (c : BitVec 17) (st : Status) : (s.endJob q c st).dill.ctxs ⊆ s.dill.ctxs := by
  obtain ⟨z, hz⟩ := s.endJob_eq q c st
  rw [hz]
  by_cases h : ∃ j, s.job? q c = some j ∧ j.status = none
  · obtain ⟨j, hj, hs⟩ := h
    rw [State.endJobZ_open hj hs, ← s.stopJob_dill q c st j z]
    exact State.settle_ctxs ..
  · rw [State.endJobZ_closed fun j hj hs => h ⟨j, hj, hs⟩]
    exact List.Subset.refl _

/-- A job that ends when its contexts have been released has none, and keeps a status that it had (R19, R236). -/
theorem State.dropCtxs_endJob {q : Nat} {c : BitVec 17} {j : Job} (hj : s.job? q c = some j) (st : Status) :
    ((s.dropCtxs q c).endJob q c st).endedWith q c (j.status.getD st) ∧
      ∀ y ∈ ((s.dropCtxs q c).endJob q c st).dill.ctxs, ¬(y.queue = q ∧ y.count = c) := by
  refine ⟨?_, fun y hy => ?_⟩
  · have hj' : (s.dropCtxs q c).job? q c = some j := hj
    rw [State.endedWith_iff, State.endJob_statusOf, if_pos ⟨rfl, rfl⟩, State.statusOf, hj']
    cases hs : j.status <;> simp [hs]
  · rintro ⟨hq, hc⟩
    have hkept := (List.mem_filter.1 (State.endJob_ctxs _ _ _ _ hy)).2
    simp [hq, hc] at hkept

end

/-! ## A record that comes back -/

/-- The context is the one of job c of queue q, of the older key or not. -/
def Ctx.isOf (q : Nat) (c : BitVec 17) (older : Bool) (x : Ctx) : Bool := x.queue == q && x.count == c && x.older == older

section
variable {s : State} {q : Nat} {c : BitVec 17} {o : Bool} {x : Ctx} (hx : s.dill.ctxs.find? (Ctx.isOf q c o) = some x)
include hx

/-- A context that an update keeps in its name is found as the update leaves it. -/
theorem State.find_setCtx {f : Ctx → Ctx} (hf : ∀ y, (f y).isOf q c o = y.isOf q c o) :
    (s.setCtx q c o f).dill.ctxs.find? (Ctx.isOf q c o) = some (f x) := by
  have hname : x.isOf q c o = true := List.find?_some hx
  refine (find?_map_select (Ctx.isOf q c o) (Ctx.isOf q c o) f hf _).trans ?_
  rw [hx, Option.map_some, if_pos hname]

theorem State.restoring?_of_place {r n : Nat} (hp : x.place = .restoring r n) : s.restoring? q c o = some (x, r, n) := by
  have hx' : (s.dill.ctxs.find? fun x => x.queue == q && x.count == c && x.older == o) = some x := hx
  rw [State.restoring?, hx', Option.bind_some, hp]

variable {j : Job} {r n : Nat} (hj : s.job? q c = some j) (hp : x.place = .restoring r n)
include hj hp

/-- A record that passes the checks puts its context on the die again. -/
theorem State.restored_accepted (hok : s.restoreOk j x r n x.sealed = true) :
    ∃ y, (s.restored q c o).dill.ctxs.find? (Ctx.isOf q c o) = some y ∧ y.place = .onDie := by
  simp only [State.restored, hj, State.restoring?_of_place hx hp, hok, if_true]
  exact ⟨_, State.find_setCtx hx fun _ => rfl, rfl⟩

/-- A record that does not ends its job with POISONED, without its contexts. -/
theorem State.restored_refused (hbad : s.restoreOk j x r n x.sealed = false) :
    (s.restored q c o).endedWith q c (j.status.getD .poisoned) ∧ ∀ y ∈ (s.restored q c o).dill.ctxs, ¬(y.queue = q ∧ y.count = c) := by
  simp only [State.restored, hj, State.restoring?_of_place hx hp, hbad, Bool.false_eq_true, if_false]
  exact State.dropCtxs_endJob _ ((State.job?_of_fennel (s.eventDM_fennel ..) q c).trans hj) .poisoned

end

/-- The record of a context with the bytes that read t has brought of it (R236). -/
def State.recordWith (s : State) (x : Ctx) (r : Nat) (t : Txn) (data : ReadData) : Bytes :=
  putAt (padTo 640 x.sealed) (t.past (s.recordAddr x.domain r)) (t.got data)

section
variable {s : State} {port tag : Nat} {t : Txn} {q : Nat} {c : BitVec 17} {o : Bool} (h : s.txn? port tag = some t) (hop : t.op = .read)
  (hpur : t.purpose = .restore q c o) (hd : t.dead = false) (data : ReadData)
include h hop hpur hd

theorem exec_contextRestore_poisoned (hpo : t.poisoned data = true) : exec (.contextRestore port tag data) s =
    .next (((s.endTxn port tag).dropCtxs q c).endJob q c .poisoned).flow := by
  change execContextRestore port tag data s = _
  simp [execContextRestore, State.read?, onSome, done, h, hop, hpur, hd, hpo, Option.filter]

theorem exec_contextRestore_whole (hpo : t.poisoned data = false) {x : Ctx} {r n : Nat} (hx : s.dill.ctxs.find? (Ctx.isOf q c o) = some x)
    (hp : x.place = .restoring r n) (hlast : (s.endTxn port tag).reading (fun p => p == .restore q c o) = false) :
    exec (.contextRestore port tag data) s =
      .next (((s.endTxn port tag).setCtx q c o fun z => { z with sealed := s.recordWith x r t data }).restored q c o).flow := by
  have hr : (s.endTxn port tag).restoring? q c o = some (x, r, n) := State.restoring?_of_place (s := s.endTxn port tag) hx hp
  have hlast' (f : Ctx → Ctx) : ((s.endTxn port tag).setCtx q c o f).reading (fun p => p == .restore q c o) = false := hlast
  change execContextRestore port tag data s = _
  simp only [execContextRestore, State.read?, onSome, done, h, hop, hpur, hd, hpo, hr, hlast', Option.filter, beq_self_eq_true, if_true,
    Option.bind_some, Bool.false_eq_true, if_false]
  rfl

end

/-- Settles O21: a poisoned record ends the job, and a whole one passes or fails the checks of R236 as the context that holds it says. -/
theorem contextRestoreRule : Obligations.ContextRestoreRule := by
  unfold Obligations.ContextRestoreRule
  intro port tag data s t q c o j x r n h hop hpur hd hj hx hp hlast rec'
  have hfound : ((s.endTxn port tag).setCtx q c o fun z => { z with sealed := rec' }).dill.ctxs.find? (Ctx.isOf q c o) =
      some { x with sealed := rec' } := State.find_setCtx (s := s.endTxn port tag) hx fun _ => rfl
  cases hpo : t.poisoned data with
  | true =>
    have hends := (s.endTxn port tag).dropCtxs_endJob hj .poisoned
    exact ⟨_, exec_contextRestore_poisoned h hop hpur hd data hpo, fun _ => hends, nofun, nofun⟩
  | false =>
    exact ⟨_, exec_contextRestore_whole h hop hpur hd data hpo hx hp hlast, nofun, fun _ hok => State.restored_accepted hfound hj hp hok,
      fun _ hbad => State.restored_refused hfound hj hp hbad⟩

end Sys2Proof.Machine
end

section
/-! PROOF. The register path (R238 to R244, R464): its writes at the port and in their turn, an OPEN's way to its session, the session's bytes and its ends, and the statement RegisterPathRule. -/

namespace Sys2Proof.Machine

/-! ## At the port -/

/-- The words that carry a session's bytes: DG_RP_DATA and DG_RP_LAST (Table 7.3). -/
def rpWords : List Nat := [0x58040, 0x58048]

section
variable {s : State} {src : From} {a size : Nat} {v : BitVec 64}

/-- A register-path write behind others waits (R240). -/
theorem State.rpPort_behind (h : s.dill.rp.held ≠ []) : s.rpPort src a size v = s.holdAccess (.write src a size v) := by
  rw [State.rpPort, State.inTurn_of_held h]

/-- It waits while flow control holds it, whatever waits before it. -/
theorem State.rpPort_full (h : s.rpFull a = true) : s.rpPort src a size v = s.holdAccess (.write src a size v) := by
  simp [State.rpPort, State.inTurn, h]

/-- With no access before it, and room in the FIFO, it takes effect. -/
theorem State.rpPort_served (h : s.dill.rp.held = []) (hf : s.rpFull a = false) : s.rpPort src a size v = s.rpCommand src a v := by
  simp [State.rpPort, State.inTurn_of_free h, hf]

theorem State.rpFull_of_noRoom (hm : s.rpMode = true) (ht : s.dill.rp.takes = true) (hf : 32 ≤ s.dill.rp.fifo) (ha : a ∈ rpWords) :
    s.rpFull a = true := by
  have hword : a = 0x58040 ∨ a = 0x58048 := by simpa [rpWords] using ha
  simp [State.rpFull, hword, hm, ht, hf]

/-- Flow control holds nothing while there is room, or while no session takes bytes. -/
theorem State.rpFull_of_room (h : s.dill.rp.takes = false ∨ s.dill.rp.fifo < 32) : s.rpFull a = false := by
  rcases h with h | h <;> simp [State.rpFull, h]

/-- Flow control holds no command. -/
theorem State.rpFull_command : s.rpFull 0x58008 = false := by
  simp [State.rpFull]

theorem State.windowUp_of_unitWrite (hu : s.unitWrite src = true) : s.windowUp = true := by
  obtain ⟨hw, -⟩ : s.windowWrite src = true ∧ s.mode.fail = 0 := by simpa [State.unitWrite] using hu
  obtain ⟨-, -, hup, -⟩ := State.windowWrite_iff.1 hw
  exact hup

section
variable (hu : s.unitWrite src = true) (hm : s.rpMode = true)
include hu hm

theorem State.rpWrite_taken (f : State → State) : s.rpWrite src f = .next (f s) := by
  simp [State.rpWrite, guarded, done, hu, hm]

theorem exec_registerPathOpen : exec (.registerPathOpen src) s = .next (s.rpPort src 0x58008 4 1).sendAll :=
  State.rpWrite_taken hu hm fun s => (s.rpPort src 0x58008 4 1).sendAll

theorem exec_dgRpData (w : BitVec 64) : exec (.dgRpData src w) s = .next (s.rpPort src 0x58040 8 w) :=
  State.rpWrite_taken hu hm fun s => s.rpPort src 0x58040 8 w

theorem exec_dgRpLast (w : BitVec 64) : exec (.dgRpLast src w) s = .next (s.rpPort src 0x58048 8 w) :=
  State.rpWrite_taken hu hm fun s => s.rpPort src 0x58048 8 w

theorem exec_registerPathFinish : exec (.registerPathFinish src) s = .next (s.rpPort src 0x58008 4 2) :=
  State.rpWrite_taken hu hm fun s => s.rpPort src 0x58008 4 2

theorem exec_registerPathClose : exec (.registerPathClose src) s = .next (s.rpPort src 0x58008 4 3) :=
  State.rpWrite_taken hu hm fun s => s.rpPort src 0x58008 4 3

section
variable (hh : s.dill.rp.held = [])
include hh

theorem exec_registerPathOpen_served : exec (.registerPathOpen src) s = .next (s.rpOpen src).sendAll := by
  rw [exec_registerPathOpen hu hm, State.rpPort_served hh State.rpFull_command]
  rfl

theorem exec_dgRpData_served (hf : s.dill.rp.takes = false ∨ s.dill.rp.fifo < 32) (w : BitVec 64) :
    exec (.dgRpData src w) s = .next (s.rpData w) := by
  rw [exec_dgRpData hu hm, State.rpPort_served hh (State.rpFull_of_room hf)]
  rfl

theorem exec_dgRpLast_served (hf : s.dill.rp.takes = false ∨ s.dill.rp.fifo < 32) (w : BitVec 64) :
    exec (.dgRpLast src w) s = .next (s.rpLast w (s.regSoon 0x58018 % 16)) := by
  rw [exec_dgRpLast hu hm, State.rpPort_served hh (State.rpFull_of_room hf)]
  rfl

theorem exec_registerPathFinish_served : exec (.registerPathFinish src) s = .next (s.rpFinish (s.regN 0x58010)) := by
  rw [exec_registerPathFinish hu hm, State.rpPort_served hh State.rpFull_command]
  rfl

theorem exec_registerPathClose_served : exec (.registerPathClose src) s = .next (s.rpClose src) := by
  rw [exec_registerPathClose hu hm, State.rpPort_served hh State.rpFull_command]
  rfl

end

/-- A data word that has waited alone is taken when there is room again (R240). -/
theorem State.drainPort_dataWord {w : BitVec 64} (hf : s.dill.rp.fifo < 32) (hh : s.dill.rp.held = [.write src 0x58040 8 w]) :
    s.drainPort = (s.rpData w).setRp fun r => { r with held := [] } := by
  have hheld : s.stillHeld (.write src 0x58040 8 w) = false := State.rpFull_of_room (.inr hf)
  have hserve : s.serve (.write src 0x58040 8 w) = s.rpData w := by
    have hspec : regSpecs.find? (·.addr == 0x58040) = none := rfl
    simp [State.serve, State.takesWrite_of_unitWrite hu, State.windowRegister, inRp, State.writeRp, hm, hspec, State.rpCommand]
  simp [State.drainPort, hh, State.servePort, State.windowUp_of_unitWrite hu, hheld, hserve]

end

end

/-! ## OPEN -/

section
variable {s : State} (src : From)

/-- An OPEN while a session is open or opening does nothing (R239). -/
theorem State.rpOpen_again (h : s.dill.rp.opened = true ∨ s.dill.rp.opening = true) : s.rpOpen src = s := by
  simp [State.rpOpen, h]

/-- s once an OPEN has been accepted: the session has the DG_RP_CFG and DG_RP_KEY in force (R239, R477). -/
def State.rpAccepted (s : State) (src : From) : State :=
  s.setRp fun r => { r with
    cfg := s.regN 0x58000, key := s.regN 0x58004, owner := src, openTick := s.thyme.tick, ctx := false, done := false, status := 0xFF }

/-- The session's selector and length are of a form that the register path makes (R239). -/
def State.rpFormed (s : State) : Bool := rpFormOk s.rpSel s.rpOut s.rpHmac

variable (ho : s.dill.rp.opened = false) (hp : s.dill.rp.opening = false)
include ho hp

theorem State.rpOpen_new : s.rpOpen src = if !(s.rpAccepted src).rpFormed then (s.rpAccepted src).rpFail .malformed
    else ((s.rpAccepted src).setRp fun r => { r with opening := true }).openProgress := by
  rw [State.rpOpen, ho, hp]
  rfl

theorem State.rpOpen_formed (hf : (s.rpAccepted src).rpFormed = true) :
    s.rpOpen src = ((s.rpAccepted src).setRp fun r => { r with opening := true }).openProgress := by
  rw [State.rpOpen_new src ho hp, hf]
  rfl

theorem State.rpOpen_malformed (hf : (s.rpAccepted src).rpFormed = false) : s.rpOpen src = (s.rpAccepted src).rpFail .malformed := by
  rw [State.rpOpen_new src ho hp, hf]
  rfl

end

/-- An OPEN without a key opens as soon as it has its context, for which a free place is enough when no queue can want the last one (R233, R239). -/
theorem State.openProgress_unkeyed {s : State} (ho : s.dill.rp.opening = true) (hc : s.dill.rp.ctx = false) (hh : s.rpHmac = false)
    (hroom : s.sharedOnDie + 1 < s.sharedCtxRoom) : s.openProgress = (s.setRp fun r => { r with ctx := true }).rpOpened none none := by
  have hctx : s.rpContext = (s.setRp fun r => { r with ctx := true }, .taken) := by
    have hmore : ¬(s.sharedOnDie + 1 = s.sharedCtxRoom) := by omega
    have hfree : s.sharedOnDie < s.sharedCtxRoom := by omega
    simp [State.rpContext, hmore, hfree]
  have hh' : (s.setRp fun r => { r with ctx := true }).rpHmac = false := hh
  simp [State.openProgress, ho, hc, hctx, hh']

@[simp] theorem State.sendAll_dill (s : State) : s.sendAll.dill = s.dill := by
  unfold State.sendAll
  split <;> rfl

/-! ## The session's bytes and its end -/

/-- The register path once its session has ended with a status (R243). -/
def RegPath.ended (st : Status) (result : Bytes) (r : RegPath) : RegPath :=
  { r with done := true, busy := false, finishing := false, fifo := 0, msg := [], newer := none, older := none,
           status := BitVec.ofNat 8 st.code, result := padTo 64 result }

theorem State.rpEnd_eq (s : State) (st : Status) (b : Bytes) : s.rpEnd st b = s.setRp (RegPath.ended st b) := rfl

section
variable {s : State}

theorem State.rpData_taken (ht : s.dill.rp.takes = true) (w : BitVec 64) : s.rpData w = s.setRp fun r => { r with
    msg := r.msg ++ leBytes 8 w.toNat, words := r.words + 1, fifo := r.fifo + 1, busy := true,
    since := if r.busy then r.since else s.thyme.tick + 1 } := by
  simp [State.rpData, ht]

theorem State.rpData_closed (ht : s.dill.rp.takes = false) (w : BitVec 64) : s.rpData w = s := by
  simp [State.rpData, ht]

theorem State.rpLast_taken (ht : s.dill.rp.takes = true) (w : BitVec 64) {n : Nat} (hn : n ≤ 8) : s.rpLast w n = s.setRp fun r => { r with
    msg := r.msg ++ leBytes n w.toNat, fifo := r.fifo + 1, busy := true, finishing := true,
    since := if r.busy then r.since else s.thyme.tick + 1 } := by
  simp [State.rpLast, ht, Nat.not_lt.2 hn]

theorem State.rpLast_tooLong (ht : s.dill.rp.takes = true) (w : BitVec 64) {n : Nat} (hn : 8 < n) : s.rpLast w n = s.rpEnd .malformed [] := by
  simp [State.rpLast, ht, hn]

theorem State.rpLast_closed (ht : s.dill.rp.takes = false) (w : BitVec 64) (n : Nat) : s.rpLast w n = s := by
  simp [State.rpLast, ht]

theorem State.rpFinish_whole (ht : s.dill.rp.takes = true) {n : Nat} (hn : s.dill.rp.words = ceilDiv n 8) :
    s.rpFinish n = s.setRp fun r => { r with
      msg := r.msg.take n, busy := true, finishing := true, since := if r.busy then r.since else s.thyme.tick + 1 } := by
  simp [State.rpFinish, ht, hn]

theorem State.rpFinish_wrongLength (ht : s.dill.rp.takes = true) {n : Nat} (hn : s.dill.rp.words ≠ ceilDiv n 8) :
    s.rpFinish n = s.rpEnd .malformed [] := by
  simp [State.rpFinish, ht, hn]

theorem State.rpClose_owner {src : From} (ho : s.dill.rp.opened = true) (hs : s.dill.rp.owner = src) :
    s.rpClose src = s.setRp fun r => { RegPath.reset with expect := r.expect, held := r.held } := by
  simp [State.rpClose, ho, hs]

/-- A CLOSE by any other, or of no session, is reported, and changes nothing (R239, R329). -/
theorem State.rpClose_still {src : From} (h : s.dill.rp.opened = false ∨ s.dill.rp.owner ≠ src) : (s.rpClose src).still = s.still := by
  have hno : (s.dill.rp.opened && s.dill.rp.owner == src) = false := by
    rcases h with h | h <;> simp [h]
  rw [State.rpClose, hno]
  exact State.event_still ..

/-- The end of a finished message (R229, R243): a verify compares, and any other leaves its result. -/
theorem exec_registerPathDone (hm : s.rpMode = true) (ho : s.dill.rp.opened = true) (hf : s.dill.rp.finishing = true)
    (hb : s.dill.rp.busy = false) (hd : s.dill.rp.done = false) : exec .registerPathDone s = .next (if s.rpVerify = true then
      s.rpEnd (if s.rpMatches s.dill.rp.newer = true ∨ (s.dill.rp.older.isSome = true ∧ s.rpMatches s.dill.rp.older = true) then .ok
        else .authFail) []
      else s.rpEnd .ok (s.rpResult s.dill.rp.newer)) := by
  change execRegisterPathDone s = _
  simp [execRegisterPathDone, guarded, done, hm, ho, hf, hb, hd]

/-- Poisoned data ends an open session (R244, R464). -/
theorem exec_registerPathDataError (hup : s.windowUp = true) (hm : s.rpMode = true) (ho : s.dill.rp.opened = true) :
    exec .registerPathDataError s = .next ((s.rpEnd .poisoned []).setRp fun r => { r with dead := true, ctx := false }) := by
  change execRegisterPathDataError s = _
  simp [execRegisterPathDataError, guarded, done, hup, hm, ho]

end

/-- Settles O47: a write that waits is held at the port, one in its turn is the command that it names, and each command is what its lemmas above make of the register path. -/
theorem registerPathRule : Obligations.RegisterPathRule := by
  unfold Obligations.RegisterPathRule
  intro src s hu hm r rp waits n8 total since more
  refine ⟨fun hh => ?behind, fun ht hf w => ?full, fun w ht hf hh => ?drain, fun hh ho => ?openAgain, fun hh ho hp => ?openNew,
    fun w hh => ?words, fun hh ht => ?finish, fun ho hf hb hd => exec_registerPathDone hm ho hf hb hd, fun hh ho hs => ?close,
    fun hh hno => ⟨_, exec_registerPathClose_served hu hm hh, State.rpClose_still hno⟩, fun ho => ?dataError,
    fun st b => ⟨RegPath.ended st b, s.rpEnd_eq st b, rfl, rfl, rfl⟩⟩
  case behind =>
    have hport (a size : Nat) (v : BitVec 64) : s.rpPort src a size v = waits a size v := State.rpPort_behind hh
    rw [exec_registerPathOpen hu hm, exec_registerPathFinish hu hm, exec_registerPathClose hu hm, hport, hport, hport]
    refine ⟨rfl, fun w => ?_, rfl, rfl⟩
    rw [exec_dgRpData hu hm, exec_dgRpLast hu hm, hport, hport]
    exact ⟨rfl, rfl⟩
  case full =>
    have hport {a : Nat} (ha : a ∈ rpWords) : s.rpPort src a 8 w = waits a 8 w := State.rpPort_full (State.rpFull_of_noRoom hm ht hf ha)
    rw [exec_dgRpData hu hm, exec_dgRpLast hu hm, hport (by decide), hport (by decide)]
    exact ⟨rfl, rfl⟩
  case drain =>
    rw [State.drainPort_dataWord hu hm hf hh, State.rpData_taken ht]
    rfl
  case openAgain => rw [exec_registerPathOpen_served hu hm hh, State.rpOpen_again src ho]
  case openNew =>
    intro v
    rw [exec_registerPathOpen_served hu hm hh]
    refine ⟨fun hf => ?_, fun hf => ?_, fun hf hk hroom => ?_⟩
    · rw [State.rpOpen_formed src ho hp hf]
      rfl
    · rw [State.rpOpen_malformed src ho hp hf]
      rfl
    · refine ⟨_, rfl, ?_⟩
      have hopened : s.rpOpen src = _ := (State.rpOpen_formed src ho hp hf).trans (State.openProgress_unkeyed rfl rfl hk hroom)
      rw [State.sendAll_dill, hopened]
      exact ⟨rfl, rfl, rfl⟩
  case words =>
    refine ⟨fun ht hf => ?_, fun ht => ?_, fun ht hf hn => ?_, fun ht hf hn => ?_⟩
    · rw [exec_dgRpData_served hu hm hh (.inr hf), State.rpData_taken ht]
      rfl
    · rw [exec_dgRpData_served hu hm hh (.inl ht), exec_dgRpLast_served hu hm hh (.inl ht), State.rpData_closed ht, State.rpLast_closed ht]
      exact ⟨rfl, rfl⟩
    · rw [exec_dgRpLast_served hu hm hh (.inr hf), State.rpLast_taken ht w hn]
      rfl
    · rw [exec_dgRpLast_served hu hm hh (.inr hf), State.rpLast_tooLong ht w hn]
  case finish =>
    rw [exec_registerPathFinish_served hu hm hh]
    refine ⟨fun hn => ?_, fun hn => ?_⟩
    · rw [State.rpFinish_whole ht hn]
      rfl
    · rw [State.rpFinish_wrongLength ht hn]
  case close =>
    rw [exec_registerPathClose_served hu hm hh, State.rpClose_owner ho hs, State.setRp, hh]
    rfl
  case dataError =>
    exact ⟨_, exec_registerPathDataError (State.windowUp_of_unitWrite hu) hm ho, rfl, rfl, rfl, rfl⟩

end Sys2Proof.Machine
end

section
/-! PROOF. The results of the public-key sub-operations and of a time statement (R249, R253 to R273, R282, R283, R314): the statement PublicKeyResults. -/

namespace Sys2Proof.Machine

section
variable {s : State}

/-- A sub-operation delivers in its delivering step: what it computes becomes its operation's result, unless a check before release fails (R283) or a budget ends without a candidate (R267). -/
theorem exec_publicKey {q : Nat} {c : BitVec 17} {i : Nat} {o : Op} {j : Job} :
    ∀ p ∈ [(0x01, Instr.rsaPrivate), (0x02, .rsaPublic), (0x10, .ecdsaSign), (0x11, .ecdsaVerify), (0x12, .ecdh),
      (0x13, .keyGeneration), (0x20, .eddsaSign), (0x21, .eddsaVerify), (0x24, .x25519), (0x30, .mlKemKeyGeneration),
      (0x31, .mlKemEncapsulation), (0x32, .mlKemDecapsulation), (0x38, .mlDsaKeyGeneration), (0x39, .mlDsaSign),
      (0x3A, .mlDsaVerify), (0x40, .curveLoad)],
    s.opOf q c 0x60 p.1 = some (i, o, j) → exec (p.2 q c) s = .next (s.deliverPk (i, o, j)) := by
  intro p hmem hop
  simp only [List.mem_cons, List.not_mem_nil, or_false] at hmem
  rcases hmem with rfl | rfl | rfl | rfl | rfl | rfl | rfl | rfl | rfl | rfl | rfl | rfl | rfl | rfl | rfl | rfl <;>
    exact onSome_of_eq hop s s.deliverPk

/-- Only an ML-DSA signing can end a budget without a result (R267). -/
theorem State.pkRun_isSome {j : Job} (h : eSub j.entry ≠ 0x39) (draw budgets : Nat) : (s.pkRun j draw budgets).isSome = true := by
  unfold State.pkRun
  dsimp only
  split
  case h_14 hsub => exact absurd hsub h
  all_goals rfl

/-- The signing of a 0x70 delivers: the signed statement, with the status that its untrusted flag asks for (R314). -/
theorem exec_timeStatementRequest {q : Nat} {c : BitVec 17} {i : Nat} {o : Op} {j : Job} {stmt : Bytes}
    (hop : s.opOf q c 0x70 0 = some (i, o, j)) (hstmt : j.pk = some stmt) :
    exec (.timeStatementRequest q c) s = .next (s.setOp i (some { o with result := some (match
      signStatement (s.lovage.attKey.getD 0) stmt o.draw with
    | some b => (if (byteAt stmt 6).getLsbD 0 then .timeUntrusted else .ok, b)
    | none => (.aborted, [])) })) := by
  have hfound : ((s.opOf q c 0x70 0).bind fun x => x.2.2.pk.map fun stmt => (x, stmt)) = some ((i, o, j), stmt) := by
    simp [hop, hstmt]
  exact onSome_of_eq hfound s _

end

/-- Settles O31: each sub-operation is deliverPk of its operation, and pkRun answers for every one but ML-DSA signing. -/
theorem publicKeyResults : Obligations.PublicKeyResults := by
  unfold Obligations.PublicKeyResults
  refine ⟨fun q c s i o j p hmem hop => ?_, fun s j draw budgets h => State.pkRun_isSome h draw budgets,
    fun q c s i o j stmt hop hstmt => exec_timeStatementRequest hop hstmt⟩
  rw [exec_publicKey p hmem hop]
  rfl

end Sys2Proof.Machine
end

section
/-! PROOF. The ends, the budgets and the comparison of BASIL's operations (R249, R260, R267, R283, R285, R386): what frees a sequencer, what ends an operation's job, what two signatures do at its delivery, and the statement SequencerRule. -/

namespace Sys2Proof.Machine

/-- An entry that is there is the one that nth reads. -/
theorem nth_of_getElem? {α : Type} {l : List α} {i : Nat} {x : α} (h : l[i]? = some x) (d : α) : nth l i d = x := by
  simp [nth, List.getD_eq_getElem?_getD, h]

section
variable {s : State} {i : Nat} {o : Op}

/-! ## Sequencers set free -/

/-- Setting an operation's sequencers free writes BASIL's sequencers and nothing else (R285). -/
theorem State.clearOp_eq : s.clearOp i o = { s with basil := { s.basil with
    seqs := (opSeqs i o).foldl (fun l x => l.set x none) s.basil.seqs } } := by
  unfold State.clearOp opSeqs
  cases o.partner <;> rfl

theorem State.clearOp_fennel : (s.clearOp i o).fennel = s.fennel := by rw [State.clearOp_eq]

theorem State.clearOp_sorrel : (s.clearOp i o).sorrel = s.sorrel := by rw [State.clearOp_eq]

theorem State.clearOp_waiting : (s.clearOp i o).basil.waiting = s.basil.waiting := by rw [State.clearOp_eq]

/-- Setting entries to none leaves none at each of them, and wherever none was. -/
theorem getElem?_foldl_set_none {α : Type} {l : List (Option α)} {is : List Nat} {k : Nat} (hk : k < l.length)
    (h : k ∈ is ∨ l[k]? = some none) : (is.foldl (fun l x => l.set x none) l)[k]? = some none := by
  induction is generalizing l with
  | nil => simpa using h
  | cons x is ih =>
    rw [List.foldl_cons]
    refine ih (by simpa using hk) ?_
    rcases h with h | h
    · rcases List.mem_cons.1 h with rfl | h
      · exact .inr (by simp [hk])
      · exact .inl h
    · refine .inr ?_
      rw [List.getElem?_set]
      split
      · simp [‹x = k›, hk]
      · exact h

/-- Each sequencer of the operation is free afterwards. -/
theorem State.clearOp_frees {k : Nat} (hk : k < s.basil.seqs.length) (h : k ∈ opSeqs i o) : (s.clearOp i o).basil.seqs[k]? = some none := by
  rw [State.clearOp_eq]
  exact getElem?_foldl_set_none hk (.inl h)

/-! ## The end of an operation -/

@[simp] theorem State.installCurve_fennel (j : Job) : (s.installCurve j).fennel = s.fennel := by
  unfold State.installCurve
  split <;> rfl

/-- An operation without a shared secret ends its job with its own status (R249). -/
theorem State.endPk_ends {j : Job} {st : Status} {res : Bytes} (hj : s.job? j.queue j.count = some j) (hs : j.status = none)
    (hsec : o.secret = none) : (s.endPk j o st res).endedWith j.queue j.count st := by
  have hopen : s.statusOf j.queue j.count = some none := State.statusOf_open hj hs
  simp only [State.endPk, State.storeSecret, hsec, if_true]
  refine State.endJob_ends ?_ st
  refine (State.setJob_statusOf _ _ _ _ _ _ ?_).trans ?_
  · exact fun _ => ⟨rfl, rfl, rfl⟩
  · rw [State.statusOf_of_fennel (State.writeDst_fennel ..)]
    split
    · rw [State.statusOf_of_fennel (State.installCurve_fennel _), hopen]
    · exact hopen

/-- The first restart of an operation waits with the signatures that it is to judge (R283, R386). -/
theorem State.restartOp_first {votes : List (Nat × BitVec 64)} (h : o.restarts = 0) :
    (s.restartOp i o votes).sorrel = s.sorrel ∧ (s.restartOp i o votes).basil.seqs = (s.clearOp i o).basil.seqs ∧
      (s.restartOp i o votes).basil.waiting = s.basil.waiting ++ [{ o with restarts := 1, result := none, secret := none, votes := votes }] := by
  simp only [State.restartOp, h, State.rest]
  exact ⟨State.clearOp_sorrel, rfl, congrArg (· ++ _) State.clearOp_waiting⟩

variable (hseq : s.basil.seqs[i]? = some (some o)) (hmain : o.isShadow = false)
include hseq hmain

/-- The last tick of an operation: its sequencers are free, and its job ends (R249, R285). -/
theorem exec_basilOperationEnd {st : Status} {res : Bytes} {j : Job} (hend : o.start + o.dur ≤ s.thyme.tick + 1)
    (hres : o.result = some (st, res)) (hj : s.job? o.queue o.count = some j) :
    exec (.basilOperationEnd i) s = .next (((s.clearOp i o).endPk j o st res).banksDrained.checkQuiet).flow := by
  have hin : ¬(s.thyme.tick + 1 < o.start + o.dur) := by omega
  have hjob : (s.clearOp i o).job? o.queue o.count = some j := (State.job?_of_fennel State.clearOp_fennel ..).trans hj
  change execBasilOperationEnd i s = _
  simp [execBasilOperationEnd, onSome, done, nth_of_getElem? hseq, hmain, hin, hres, hjob]

/-- A budget of an ML-DSA signing ends without a candidate: a further one, or the fourth ends it ABORTED (R267). -/
theorem exec_candidateBudgetExhausted {j : Job} (hstep : o.start + o.dur ≤ s.thyme.tick + 2) (hres : o.result = none)
    (hpart : o.partner = none) (hj : s.job? o.queue o.count = some j) (hop : eOp j.entry = 0x60) (hsub : eSub j.entry = 0x39) :
    exec (.candidateBudgetExhausted i) s = .next (match s.pkRun j o.draw o.budgets with
      | some _ => s
      | none =>
        if 3 ≤ o.budgets then s.setOp i (some { o with result := some (.aborted, []) })
        else
          let b := dsaBudget (ppCurve (j.aux.getD []))
          (s.setOp i (some { o with budgets := o.budgets + 1, dur := o.dur + b.1 * b.2 })).ucodeEvent o.bankB 5
            (leBytes 2 o.domain ++ leBytes 2 o.queue)) := by
  have hin : ¬(s.thyme.tick + 2 < o.start + o.dur) := by omega
  change execCandidateBudgetExhausted i s = _
  cases hrun : s.pkRun j o.draw o.budgets with
  | some r =>
    simp [execCandidateBudgetExhausted, onSome, done, nth_of_getElem? hseq, hmain, hin, hres, hj, Option.filter, hrun]
  | none =>
    simp [execCandidateBudgetExhausted, onSome, done, nth_of_getElem? hseq, hmain, hin, hres, hj, Option.filter, hrun, hop, hsub, hpart]

/-! ## The comparison at the delivery -/

section
variable (hres : o.result.isSome = true) (hend : o.start + o.dur = s.thyme.tick + 2) {a b : BitVec 64}
include hres hend

/-- Two first signatures that differ are a failed check: the operation restarts with both as votes. -/
theorem State.compareOp_differ {p : Nat} (hpart : o.partner = some p) (hv : o.votes = []) (hne : a ≠ b) :
    s.compareOp (i, a, b) = s.restartOp i o [(i, a), (p, b)] := by
  simp [State.compareOp, nth_of_getElem? hseq, Option.filter, hmain, hres, hend, hpart, hv, hne]

/-- A first run alone, or two that agree, go on to their result write. -/
theorem State.compareOp_agree (hv : o.votes = []) (h : o.partner = none ∨ a = b) : s.compareOp (i, a, b) = s := by
  rcases h with h | h <;> simp [State.compareOp, nth_of_getElem? hseq, Option.filter, hmain, hres, hend, hv, h]

/-- A restart that agrees with one of the two first runs has the sequencer of the other suspended. -/
theorem State.compareOp_outvotes {u v : Nat} (hpart : o.partner = none) (hv : o.votes = [(u, a), (v, b)] ∨ o.votes = [(v, b), (u, a)])
    (hne : a ≠ b) : s.compareOp (i, a, b) = s.suspendSeq v := by
  rcases hv with hv | hv <;>
    simp [State.compareOp, nth_of_getElem? hseq, Option.filter, hmain, hres, hend, hpart, hv, hne.symm]

end

end

/-- Settles O27: the end and the budget by the operation that the sequencer runs, and the comparison by its votes; a first restart frees both sequencers and waits. -/
theorem sequencerRule : Obligations.SequencerRule := by
  unfold Obligations.SequencerRule
  refine ⟨fun i s o st res j hseq hmain hend hres hj hs => ?ends,
    fun i s o j hseq hmain hstep hres hpart hj hop hsub =>
      exec_candidateBudgetExhausted hseq hmain hstep hres hpart hj hop hsub,
    fun i p a b s o hseq hmain hres hend => ⟨fun hpart hi hp hlen hv hfirst hne => ?differ,
      State.compareOp_agree hseq hmain hres hend,
      fun u v hpart hv hne => State.compareOp_outvotes hseq hmain hres hend hpart hv hne⟩⟩
  case ends =>
    obtain ⟨hq, hc⟩ := State.job?_num s hj
    have hlt : i < s.basil.seqs.length := (List.getElem?_eq_some_iff.1 hseq).1
    refine ⟨exec_basilOperationEnd hseq hmain hend hres hj, State.clearOp_frees hlt List.mem_cons_self, fun hsec => ?_⟩
    have hj' : (s.clearOp i o).job? j.queue j.count = some j := by
      rw [State.job?_of_fennel State.clearOp_fennel, hq, hc, hj]
    rw [← hq, ← hc]
    exact State.endPk_ends hj' hs hsec
  case differ =>
    have hboth : i ∈ opSeqs i o ∧ p ∈ opSeqs i o := by simp [opSeqs, hpart]
    obtain ⟨hsorrel, hseqs, hwait⟩ := State.restartOp_first (s := s) (i := i) (votes := [(i, a), (p, b)]) hfirst
    simp only [State.compareOp_differ hseq hmain hres hend hpart hv hne, hseqs]
    exact ⟨State.clearOp_frees (hlen ▸ hi) hboth.1, State.clearOp_frees (hlen ▸ hp) hboth.2, hsorrel, hwait⟩

end Sys2Proof.Machine
end

section
/-! PROOF. The microcode banks (R277, R279 to R281, R379): what writes a bank, what begins and ends a verification, what a switch and the end of a drain leave, and the statements MicrocodeRule and MicrocodeAdmin. -/

namespace Sys2Proof.Machine

/-! ## What the still part of a state holds -/

section
variable {s t : State} (h : t.still = s.still)
include h

theorem State.basil_of_still : t.basil = s.basil := (congrArg State.basil h :)

theorem State.sorrel_of_still : t.sorrel = s.sorrel := (congrArg State.sorrel h :)

theorem State.mode_of_still : t.mode = s.mode := (congrArg State.mode h :)

theorem State.regs_of_still : t.regs = s.regs := (congrArg State.regs h :)

theorem State.lovage_of_still : t.lovage = s.lovage := (congrArg State.lovage h :)

end

section
variable (s : State)

@[simp] theorem State.ucodeEvent_still (b : Bool) (n : Nat) (d : Bytes) : (s.ucodeEvent b n d).still = s.still := State.event_still ..

@[simp] theorem State.ucodeEvent_basil (b : Bool) (n : Nat) (d : Bytes) : (s.ucodeEvent b n d).basil = s.basil :=
  State.basil_of_still (s.ucodeEvent_still b n d)

@[simp] theorem State.ucodeEvent_sorrel (b : Bool) (n : Nat) (d : Bytes) : (s.ucodeEvent b n d).sorrel = s.sorrel :=
  State.sorrel_of_still (s.ucodeEvent_still b n d)

/-! ## Writing a bank -/

@[simp] theorem State.activateBank_sorrel (b : Bool) : (s.activateBank b).sorrel = s.sorrel := rfl

@[simp] theorem State.setBank_bank_self (b : Bool) (f : Bank → Bank) : (s.setBank b f).basil.bank b = f (s.basil.bank b) := by
  cases b <;> rfl

@[simp] theorem State.setBank_bank_other (b : Bool) (f : Bank → Bank) : (s.setBank b f).basil.bank (!b) = s.basil.bank (!b) := by
  cases b <;> rfl

@[simp] theorem State.setBank_verify (b : Bool) (f : Bank → Bank) : (s.setBank b f).basil.verify = s.basil.verify := by
  cases b <;> rfl

@[simp] theorem State.activateBank_bank_self (b : Bool) : (s.activateBank b).basil.bank b = { s.basil.bank b with state := .active } :=
  s.setBank_bank_self b _

@[simp] theorem State.activateBank_bank_other (b : Bool) : (s.activateBank b).basil.bank (!b) = s.basil.bank (!b) := s.setBank_bank_other b _

/-! ## Beginning a verification -/

/-- The verification of a package that startVerify begins. -/
def Verify.begun (b : Bool) (admin : Option (BitVec 17)) (active : Bool) (base len : Nat) : Verify :=
  { bankB := b, active := active, admin := admin, base := base, len := len, bytes := zeros len, got := 0, failed := none }

section
variable (b : Bool) (a : Option (BitVec 17)) (act : Bool) (base len : Nat)

/-- A read begins with the bank VERIFYING and the verification last in its list, and moves nothing else of the still state. -/
theorem State.startVerify_still : (s.startVerify b a act base len).still = State.still { s with basil :=
    { (s.setBank b fun _ => { Bank.none with state := .verifying }).basil with verify := s.basil.verify ++ [Verify.begun b a act base len] } } := by
  refine (State.issue_still ..).trans ?_
  cases b <;> rfl

theorem State.startVerify_bank : (s.startVerify b a act base len).basil.bank b = { Bank.none with state := .verifying } := by
  rw [State.basil_of_still (s.startVerify_still ..)]
  exact s.setBank_bank_self b _

theorem State.startVerify_verify : (s.startVerify b a act base len).basil.verify = s.basil.verify ++ [Verify.begun b a act base len] := by
  rw [State.basil_of_still (s.startVerify_still ..)]

end

section
variable {b : Bool} (act : Bool)

theorem State.reloadBank_unnamed (h : s.bankAddr b = 0) : s.reloadBank b act = s := if_pos h

theorem State.reloadBank_named (h : s.bankAddr b ≠ 0) : s.reloadBank b act = s.startVerify b none act (s.bankAddr b) 256 := if_neg h

@[simp] theorem State.reloadBank_sorrel : (s.reloadBank b act).sorrel = s.sorrel := by
  by_cases h : s.bankAddr b = 0
  · rw [s.reloadBank_unnamed act h]
  · rw [s.reloadBank_named act h, State.sorrel_of_still (s.startVerify_still ..)]

theorem State.reloadBank_bankAddr (x : Bool) : (s.reloadBank b act).bankAddr x = s.bankAddr x := by
  by_cases h : s.bankAddr b = 0
  · rw [s.reloadBank_unnamed act h]
  · unfold State.bankAddr State.regN State.reg
    rw [s.reloadBank_named act h, State.regs_of_still (s.startVerify_still ..)]

/-- A bank that a register names has its verification under way. -/
theorem State.reloadBank_begins (h : s.bankAddr b ≠ 0) : Verify.begun b none act (s.bankAddr b) 256 ∈ (s.reloadBank b act).basil.verify := by
  rw [s.reloadBank_named act h, State.startVerify_verify]
  exact List.mem_append_right _ List.mem_cons_self

theorem State.reloadBank_keeps : s.basil.verify ⊆ (s.reloadBank b act).basil.verify := by
  by_cases h : s.bankAddr b = 0
  · rw [s.reloadBank_unnamed act h]
    exact List.Subset.refl _
  · rw [s.reloadBank_named act h, State.startVerify_verify]
    exact List.subset_append_left ..

end

theorem State.reloading_of_mem {v : Verify} (h : v ∈ s.basil.verify) (ha : v.admin = none) : s.reloading = true :=
  List.any_eq_true.2 ⟨v, h, by simp [ha]⟩

/-! ## After the reloads -/

theorem State.endUnbanked_still : s.endUnbanked.still = State.still { s with basil := { s.basil with waiting := [] } } :=
  congrArg (fun u : State => { u with basil := { u.basil with waiting := [] } }) (foldl_keeps State.still _ (fun s _ => s.endJob_still ..) _ s)

@[simp] theorem State.endUnbanked_bank (b : Bool) : s.endUnbanked.basil.bank b = s.basil.bank b := by
  rw [State.basil_of_still s.endUnbanked_still]
  rfl

@[simp] theorem State.endUnbanked_sorrel : s.endUnbanked.sorrel = s.sorrel := (State.sorrel_of_still s.endUnbanked_still).trans rfl

/-- One of the two banks is ACTIVE. -/
theorem State.eitherActive_iff (b : Bool) : (s.basil.bankA.state == .active || s.basil.bankB.state == .active) = true ↔
    (s.basil.bank b).state = .active ∨ (s.basil.bank (!b)).state = .active := by
  cases b <;> simp [Basil.bank, or_comm]

/-- A STANDBY bank that a reload wants leaves a bank ACTIVE (R281). -/
theorem State.reloadEnd_active {b : Bool} (f : Option Bool) (h : (s.basil.bank b).state = .standby) :
    ((s.reloadEnd b f).basil.bank b).state = .active ∨ ((s.reloadEnd b f).basil.bank (!b)).state = .active := by
  unfold State.reloadEnd
  split
  next hact => exact (s.eitherActive_iff b).1 hact
  next => simp [h]

/-- A bank that has no package stays as it is (R379). -/
theorem State.reloadEnd_bank {b : Bool} (f : Option Bool) (h : (s.basil.bank b).state ≠ .standby) :
    (s.reloadEnd b f).basil.bank b = s.basil.bank b := by
  have hother (u : State) : (u.activateBank (!b)).basil.bank b = u.basil.bank b := by
    simpa using u.activateBank_bank_other (!b)
  simp only [State.reloadEnd, h, beq_iff_eq, if_false]
  repeat' split
  all_goals simp [hother]

@[simp] theorem State.reloadEnd_sorrel (b : Bool) (f : Option Bool) : (s.reloadEnd b f).sorrel = s.sorrel := by
  unfold State.reloadEnd
  dsimp only
  repeat' split
  all_goals simp

/-! ## The end of a verification -/

section
variable {s : State} {v : Verify}

/-- The bank once a verification has ended with r: a package that passed, or none. -/
def Verify.bankAfter (v : Verify) : Option Status → Bank
  | some _ => .none
  | none => { state := .standby, svn := (byteAt v.bytes 8).toNat, sigKind := (byteAt v.bytes 9).toNat,
              build := BitVec.ofNat 32 (fieldLe v.bytes 12 4) }

/-- s once the verification has left its list, with its bank as r says. -/
def State.verifyDone (s : State) (v : Verify) (r : Option Status) : State :=
  State.setBank { s with basil := { s.basil with verify := s.basil.verify.filter fun x => !(x.bankB == v.bankB) } } v.bankB
    fun _ => v.bankAfter r

theorem State.verifyDone_bank (r : Option Status) : (s.verifyDone v r).basil.bank v.bankB = v.bankAfter r := State.setBank_bank_self ..

/-- The verification that is ready ends with what failed in its reads, or with the checks of Table 8.11 (R277). -/
theorem exec_microcodeVerificationEnd (hv : s.verifyReady = some v) (hrun : v.failed.isSome = true ∨ s.verifierRuns (.bank v.bankB) = true) :
    exec .microcodeVerificationEnd s = .next (s.verified v (v.failed.or (s.packageCheck v.bytes v.len))) := by
  have hready : s.verifyReady.filter (fun v => v.failed.isSome || s.verifierRuns (.bank v.bankB)) = some v := by
    rcases hrun with h | h <;> simp [hv, Option.filter, h]
  exact onSome_of_eq hready s _

/-- What a download's entry reports: its bytes, and a good package's versions (R277, R342). -/
def Verify.report (v : Verify) (r : Option Status) (b : Bank) (j : Job) : Job :=
  { j with bytesDone := v.got, result0 := if r.isNone then BitVec.ofNat 64 (b.svn + 256 * b.build.toNat) else 0 }

/-- s once the admin entry c has the report of the verification, and its status. -/
def State.downloadEnded (s : State) (v : Verify) (c : BitVec 17) (r : Option Status) : State :=
  ((s.verifyDone v r).setJob 0 c (v.report r ((s.verifyDone v r).basil.bank v.bankB))).endJob 0 c (r.getD .ok)

section
variable {c : BitVec 17} (r : Option Status)

theorem State.verified_download (ha : v.admin = some c) : s.verified v r = (s.downloadEnded v c r).flow := by
  simp only [State.verified, ha]
  rfl

theorem State.downloadEnded_bank : (s.downloadEnded v c r).basil.bank v.bankB = v.bankAfter r := by
  rw [State.downloadEnded, State.basil_of_still (State.endJob_still ..)]
  exact s.verifyDone_bank r

/-- The entry of a download ends with the check's status. -/
theorem State.downloadEnded_ends (hs : s.statusOf 0 c = some none) : (s.downloadEnded v c r).endedWith 0 c (r.getD .ok) := by
  have hopen := State.setJob_statusOf (s.verifyDone v r) 0 0 c c (v.report r ((s.verifyDone v r).basil.bank v.bankB)) fun _ => ⟨rfl, rfl, rfl⟩
  exact State.endJob_ends (hopen.trans hs) _

end

/-- The last reload of an operating Duern wants its own bank ACTIVE. -/
theorem State.verified_reload (ha : v.admin = none) (hs6 : s.mode.steps.s6 = true) (hall : ∀ x ∈ s.basil.verify, x.bankB = v.bankB)
    (r : Option Status) : s.verified v r = (s.verifyDone v r).reloadEnd v.bankB (if r.isSome then some v.bankB else none) := by
  have hlast : (s.verifyDone v r).reloading = false := by
    have hnone : s.basil.verify.filter (fun x => !(x.bankB == v.bankB)) = [] := List.filter_eq_nil_iff.2 fun x hx => by simp [hall x hx]
    simp [State.reloading, State.verifyDone, hnone]
  have hwant : (s.verifyDone v r).wantedBank v.bankB = v.bankB := by
    unfold State.wantedBank
    exact if_pos hs6
  simp only [State.verified, ha]
  exact (if_neg (ne_true_of_eq_false hlast)).trans (congrArg (State.reloadEnd _ · _) hwant)

end

end

/-! ## Reloads -/

section
variable {s : State}

/-- Step 6 of start-up: both banks that registers name are read; with none, the step is over (R281). -/
theorem exec_microcodeReload (hm : s.mode.mode = .startup) (hf : s.mode.fail = 0) (hs4 : s.mode.steps.s4 = true) (hs6 : s.mode.steps.s6 = false)
    (hr : s.reloading = false) (hlock : (s.reg 0x60000).getLsbD 31 = true) :
    let u := (s.reloadBank false false).reloadBank true false
    exec .microcodeReload s = .next (if u.reloading then u else u.reloadEnd u.bootBank none).sendAll := by
  change execMicrocodeReload s = _
  simp [execMicrocodeReload, guarded, done, hm, hf, hs4, hs6, hr, hlock]

/-- A bank that an uncorrectable word empties is counted and read again (R379). -/
theorem exec_microcodeBankUncorrectable {b : Bool} (hm : s.mainRuns = true)
    (hb : (s.basil.bank b).state = .active ∨ (s.basil.bank b).state = .standby) :
    let u := (s.countUe.setBank b fun _ => .none).reloadBank b ((s.basil.bank b).state == .active)
    exec (.microcodeBankUncorrectable b) s = .next (if u.reloading then u else u.reloadEnd b (some b)).flow := by
  change execMicrocodeBankUncorrectable b s = _
  rcases hb with hb | hb <;> simp [execMicrocodeBankUncorrectable, guarded, done, hm, hb]

/-- Every bank that a register names is read. -/
theorem State.reloadBoth_begins {b : Bool} (h : s.bankAddr b ≠ 0) :
    Verify.begun b none false (s.bankAddr b) 256 ∈ ((s.reloadBank false false).reloadBank true false).basil.verify := by
  cases b with
  | false => exact State.reloadBank_keeps _ _ (s.reloadBank_begins false h)
  | true =>
    rw [← s.reloadBank_bankAddr false true] at h ⊢
    exact State.reloadBank_begins _ false h

/-- The bank that was lost is EMPTY, or is read again. -/
theorem State.lostBank_state (b act : Bool) :
    let u := (s.countUe.setBank b fun _ => .none).reloadBank b act
    ((if u.reloading then u else u.reloadEnd b (some b)).basil.bank b).state = if s.bankAddr b = 0 then .empty else .verifying := by
  intro u
  by_cases h : s.bankAddr b = 0
  · have hu : u.basil.bank b = .none := by
      have hsame : u = s.countUe.setBank b fun _ => .none := State.reloadBank_unnamed _ act h
      rw [hsame, State.setBank_bank_self]
    have hend : (u.reloadEnd b (some b)).basil.bank b = .none := (u.reloadEnd_bank _ (by simp [hu, Bank.none])).trans hu
    rw [if_pos h]
    split
    · rw [hu]
      rfl
    · rw [hend]
      rfl
  · have hread : u.reloading = true := State.reloading_of_mem _ (State.reloadBank_begins _ act h) rfl
    have hnamed : u = (s.countUe.setBank b fun _ => .none).startVerify b none act (s.bankAddr b) 256 := State.reloadBank_named _ act h
    rw [if_pos hread, if_neg h, hnamed, State.startVerify_bank]

end

/-- Settles O28: a verification by what its check makes of its bank, a reload by the verifications that it begins, and a lost bank by both. -/
theorem microcodeRule : Obligations.MicrocodeRule := by
  unfold Obligations.MicrocodeRule
  refine ⟨?verify, fun s hm hf hs4 hs6 hr hlock => ?reload, fun b s hm hb => ?lost⟩
  case verify =>
    intro s v hv hrun r
    have hr : v.failed.or (s.packageCheck v.bytes v.len) = r := by
      simp only [r]
      cases v.failed <;> rfl
    rw [exec_microcodeVerificationEnd hv hrun, hr]
    clear_value r
    refine ⟨fun c j ha hj hs => ⟨_, by rw [State.verified_download r ha], State.downloadEnded_ends r (State.statusOf_open hj hs), ?_⟩,
      fun ha hs6 hall => ⟨_, rfl, ?_⟩⟩
    · rw [State.downloadEnded_bank]
      cases r with
      | none => exact ⟨rfl, fun _ => rfl⟩
      | some st => exact ⟨rfl, nofun⟩
    · rw [State.verified_reload ha hs6 hall]
      have hbank := s.verifyDone_bank (v := v) r
      cases r with
      | none => exact ⟨fun _ => State.reloadEnd_active _ _ (congrArg Bank.state hbank), nofun⟩
      | some st =>
        have hempty : ((s.verifyDone v (some st)).basil.bank v.bankB).state = .empty := congrArg Bank.state hbank
        refine ⟨nofun, fun _ => ?_⟩
        rw [State.reloadEnd_bank _ _ (by simp [hempty]), hempty]
  case reload =>
    refine ⟨_, exec_microcodeReload hm hf hs4 hs6 hr hlock, fun b hb => ⟨Verify.begun b none false (s.bankAddr b) 256, ?_, rfl, rfl, rfl⟩, fun hnone => ?_⟩
    · have hmem := State.reloadBoth_begins hb
      rw [if_pos (State.reloading_of_mem _ hmem rfl), State.basil_of_still (State.sendAll_still _)]
      exact hmem
    · rw [State.reloadBank_unnamed _ _ (hnone false), State.reloadBank_unnamed _ _ (hnone true), hr, State.mode_of_still (State.sendAll_still _)]
      rfl
  case lost =>
    refine ⟨_, exec_microcodeBankUncorrectable hm hb, ?_, ?_⟩
    · rw [State.sorrel_of_still (State.flow_still _)]
      split <;> simp [State.countUe]
    · rw [State.basil_of_still (State.flow_still _)]
      exact State.lostBank_state b _

end Sys2Proof.Machine
end

section
/-! PROOF. The admin commands of the microcode banks (R277, R279, R280): what a drain and a switch leave of each bank, the answers of Download and Activate, and the statement MicrocodeAdmin. -/

namespace Sys2Proof.Machine

/-! ## Drains and switches -/

/-- A bank that drains, and the same bank once no operation uses it (R279). -/
def Bank.drained (used : Bool) (b : Bank) : Bank := if b.state == .draining && !used then { b with state := .standby } else b

/-- A bank when another one becomes ACTIVE: it drains (R279). -/
def Bank.retiring (b : Bank) : Bank := if b.state == .active then { b with state := .draining } else b

theorem Bank.drained_active {b : Bank} (h : b.state = .active) (used : Bool) : b.drained used = b := by
  simp [Bank.drained, h]

/-- No drain makes a bank ACTIVE that another one has replaced. -/
theorem Bank.drained_retiring (b : Bank) (used : Bool) : (b.retiring.drained used).state ≠ .active := by
  cases hb : b.state <;> cases used <;> simp [Bank.drained, Bank.retiring, hb]

theorem Bank.drained_retiring_active {b : Bank} (h : b.state = .active) (used : Bool) :
    (b.retiring.drained used).state = if used then .draining else .standby := by
  cases used <;> simp [Bank.drained, Bank.retiring, h]

section
variable (s : State)

@[simp] theorem State.commitStart_basil (b : Bool) : (s.commitStart b).basil = s.basil := by
  unfold State.commitStart
  dsimp only
  repeat' split
  all_goals simp [State.otpStart]

theorem State.bankInUse_of_basil {s t : State} (hseqs : t.basil.seqs = s.basil.seqs) (hwait : t.basil.waiting = s.basil.waiting) (b : Bool) :
    t.bankInUse b = s.bankInUse b := by
  simp only [State.bankInUse, hseqs, hwait]

section
variable (b : Bool)

/-- The end of a bank's drain moves no operation and no switch. -/
theorem State.bankDrained_ops : (s.bankDrained b).basil.seqs = s.basil.seqs ∧ (s.bankDrained b).basil.waiting = s.basil.waiting ∧
    (s.bankDrained b).basil.switch = s.basil.switch := by
  unfold State.bankDrained
  dsimp only
  repeat' split
  all_goals cases b <;> simp [State.setBank]

theorem State.bankDrained_bank_self : (s.bankDrained b).basil.bank b = (s.basil.bank b).drained (s.bankInUse b) := by
  unfold State.bankDrained Bank.drained
  split
  next =>
    dsimp only
    split
    · rw [State.commitStart_basil]
      exact (congrArg (Basil.bank · b) (State.ucodeEvent_basil ..)).trans (s.setBank_bank_self b _)
    · rw [State.ucodeEvent_basil, State.setBank_bank_self]
  next => rfl

theorem State.bankDrained_bank_other : (s.bankDrained b).basil.bank (!b) = s.basil.bank (!b) := by
  unfold State.bankDrained
  split
  next =>
    dsimp only
    split
    · rw [State.commitStart_basil]
      exact (congrArg (Basil.bank · (!b)) (State.ucodeEvent_basil ..)).trans (s.setBank_bank_other b _)
    · rw [State.ucodeEvent_basil, State.setBank_bank_other]
  next => rfl

end

/-- Each bank drains by itself. -/
theorem State.banksDrained_bank (b : Bool) : s.banksDrained.basil.bank b = (s.basil.bank b).drained (s.bankInUse b) := by
  cases b with
  | false =>
    rw [← s.bankDrained_bank_self false]
    exact (s.bankDrained false).bankDrained_bank_other true
  | true =>
    obtain ⟨hseqs, hwait, -⟩ := s.bankDrained_ops false
    have hother : (s.bankDrained false).basil.bank true = s.basil.bank true := s.bankDrained_bank_other false
    rw [← hother, ← State.bankInUse_of_basil hseqs hwait]
    exact (s.bankDrained false).bankDrained_bank_self true

theorem State.banksDrained_switch : s.banksDrained.basil.switch = s.basil.switch := by
  obtain ⟨-, -, hA⟩ := s.bankDrained_ops false
  obtain ⟨-, -, hB⟩ := (s.bankDrained false).bankDrained_ops true
  exact hB.trans hA

end

/-- s with bank b ACTIVE and the old bank draining, before the drains are looked at: a commit that is asked for waits for the old bank, or begins at once without one (R279, R280). -/
def State.switched (s : State) (b commit : Bool) : State :=
  let old := s.basil.bankA.state == .active || s.basil.bankB.state == .active
  let u := State.activateBank (State.drainBanks { s with basil := { s.basil with switch := none } }) b
  let u : State := { u with basil := { u.basil with commit := if commit && old then some b else none } }
  if commit && !old then u.commitStart b else u

section
variable (s : State) (b commit : Bool)

theorem State.switched_ops : (s.switched b commit).basil.switch = none ∧ (s.switched b commit).basil.seqs = s.basil.seqs ∧
    (s.switched b commit).basil.waiting = s.basil.waiting := by
  unfold State.switched
  dsimp only
  split <;> cases b <;> simp [State.activateBank, State.setBank, State.drainBanks]

theorem State.switched_bank_self : (s.switched b commit).basil.bank b = { (s.basil.bank b).retiring with state := .active } := by
  unfold State.switched
  dsimp only
  split <;> cases b <;> simp [State.activateBank, State.setBank, State.drainBanks, Basil.bank, Bank.retiring]

theorem State.switched_bank_other : (s.switched b commit).basil.bank (!b) = (s.basil.bank (!b)).retiring := by
  unfold State.switched
  dsimp only
  split <;> cases b <;> simp [State.activateBank, State.setBank, State.drainBanks, Basil.bank, Bank.retiring]

theorem State.switched_bankInUse (x : Bool) : (s.switched b commit).bankInUse x = s.bankInUse x := by
  obtain ⟨-, hseqs, hwait⟩ := s.switched_ops b commit
  exact State.bankInUse_of_basil hseqs hwait x

/-- An accepted switch to a STANDBY bank takes effect, and both drains are looked at. -/
theorem State.switchBank_standby (hsw : s.basil.switch = some (b, commit)) (hb : (s.basil.bank b).state = .standby) :
    s.switchBank = (s.switched b commit).banksDrained := by
  have hb' : (Basil.bank { s.basil with switch := none } b).state = .standby := hb
  simp [State.switchBank, hsw, hb', State.switched]

end

/-! ## Download and Activate -/

section
variable {s : State} {c : BitVec 17} {j : Job}

/-- What a Download does by its bank's state and its length (R277). -/
theorem exec_microcodeDownload (h : s.adminJob c 0x05 anySub = some j) (hv : ∀ v ∈ s.basil.verify, v.admin ≠ some c) :
    exec (.microcodeDownload c) s = .next (State.flow
      (if ((s.basil.bank j.bankB).state != .empty && (s.basil.bank j.bankB).state != .standby) || s.switching j.bankB then s.adminRefuse c .resourceBusy
      else if eLen j.entry < 4112 || 139891 < eLen j.entry then (s.setBank j.bankB fun _ => .none).adminFail c .malformed 8
      else s.startVerify j.bankB (some c) false j.buffer (eLen j.entry))) := by
  have hnew : (s.adminJob c 0x05 anySub).filter (fun _ => s.basil.verify.all fun v => v.admin != some c) = some j := by
    have hall : (s.basil.verify.all fun v => v.admin != some c) = true := by simpa using hv
    simp [h, Option.filter, hall]
  exact onSome_of_eq hnew s _

/-- What an Activate does by its bank's state and version (R279, R280). -/
theorem exec_microcodeActivate (h : s.adminJob c 0x06 anySub = some j) :
    exec (.microcodeActivate c) s = .next (State.flow
      (if (s.basil.bank j.bankB).state != .standby || s.switching j.bankB then s.adminRefuse c .resourceBusy
      else if !s.svnOk (s.basil.bank j.bankB) then s.adminRefuse c .unsupported
      else State.adminOk { s with basil := { s.basil with switch := some (j.bankB, bit (eSub j.entry) 1) } } c (s.thyme.tick + 1))) :=
  State.adminDo_of h

end

/-- Settles O44: the two commands by their bank's state, and a switch by what it makes of each bank before and after the drains. -/
theorem microcodeAdmin : Obligations.MicrocodeAdmin := by
  unfold Obligations.MicrocodeAdmin
  refine ⟨?commands, fun s b commit hsw hb => ?switch⟩
  case commands =>
    intro c s j hj hp hs hrun b st
    have refused {i : Instr} {status : Status} (hexec : exec i s = .next (s.adminRefuse c status).flow) : s.adminEnds i c status s :=
      ⟨_, hexec, State.adminRefuse_ends hj hs status⟩
    refine ⟨fun hop hv => ?download, fun hop => ?activate⟩
    case download =>
      have hexec := exec_microcodeDownload (State.adminJob_of (p := anySub) hj hp hs hrun hop rfl) hv
      refine ⟨fun hbusy => refused ?_, fun hst hsw => ?_⟩
      · rw [hexec, if_pos (by simpa [st, b] using hbusy)]
      · have hfree : ¬((st != .empty && st != .standby) || s.switching b) = true := by
          rcases hst with h | h <;> simp [h, hsw]
        refine ⟨fun hlen => ⟨_, ?_, State.adminFail_ends (s := s.setBank b fun _ => .none) hj hs .malformed 8⟩, fun hmin hmax => ?_⟩
        · rw [hexec, if_neg hfree, if_pos (by simpa using hlen)]
        · have hlen : ¬(eLen j.entry < 4112 || 139891 < eLen j.entry) = true := by
            simp only [Bool.or_eq_true, decide_eq_true_eq]
            omega
          rw [hexec, if_neg hfree, if_neg hlen]
          refine ⟨_, rfl, ?_, Verify.begun b (some c) false j.buffer (eLen j.entry), ?_, rfl, rfl, rfl, rfl⟩
          · rw [State.startVerify_bank]
          · rw [State.startVerify_verify]
            exact List.mem_append_right _ List.mem_cons_self
    case activate =>
      have hexec := exec_microcodeActivate (State.adminJob_of (p := anySub) hj hp hs hrun hop rfl)
      have hfree (hst : st = .standby) (hsw : s.switching b = false) : ¬(st != .standby || s.switching b) = true := by simp [hst, hsw]
      refine ⟨fun hbusy => refused ?_, fun hst hsw hsvn => refused ?_, fun hst hsw hsvn => ?_⟩
      · rw [hexec, if_pos (by simpa [st, b] using hbusy)]
      · rw [hexec, if_neg (hfree hst hsw), if_pos (by simpa using hsvn)]
      · refine ⟨_, ?_, State.adminOk_ends (s := { s with basil := { s.basil with switch := some (b, bit (eSub j.entry) 1) } }) hj hs
          (s.thyme.tick + 1)⟩
        rw [hexec, if_neg (hfree hst hsw), if_neg (by simpa using hsvn)]
  case switch =>
    rw [s.switchBank_standby b commit hsw hb, State.banksDrained_switch, State.banksDrained_bank, State.banksDrained_bank,
      State.switched_bankInUse, State.switched_bankInUse, State.switched_bank_self, State.switched_bank_other, Bank.drained_active rfl]
    obtain ⟨hswitch, -, -⟩ := s.switched_ops b commit
    exact ⟨hswitch, rfl, Bank.drained_retiring _ _, fun hold => Bank.drained_retiring_active hold _⟩

end Sys2Proof.Machine
end

section
/-! PROOF. Start-up (R264, R282, R391, R402, R427 to R432, R480, R483, R484): what registers hold after a write, the ends of steps 5 and 7, the entries to Service and to Provisioning, and the statement StartupRule. -/

namespace Sys2Proof.Machine

/-! ## Registers -/

/-- What an association list answers after one of its keys has been set. -/
theorem lookup_assocSet {κ ν : Type} [BEq κ] [LawfulBEq κ] (l : List (κ × ν)) (k x : κ) (v : ν) :
    (assocSet l k v).lookup x = if x == k then some v else l.lookup x := by
  induction l with
  | nil =>
    rw [assocSet, List.lookup_cons]
    cases x == k <;> rfl
  | cons p l ih =>
    rw [assocSet]
    split
    next hk =>
      rw [List.lookup_cons, List.lookup_cons, eq_of_beq hk]
      cases x == k <;> rfl
    next hk =>
      rw [List.lookup_cons, List.lookup_cons, ih]
      cases hx : x == p.1 with
      | false => rfl
      | true => exact (if_neg (by rwa [eq_of_beq hx])).symm

section
variable (s : State)

theorem State.reg_setReg (a b : Nat) (v : BitVec 64) : (s.setReg a v).reg b = if b == a then v else s.reg b := by
  simp only [State.reg, State.setReg, assocD, lookup_assocSet]
  split <;> rfl

theorem State.reg_of_regs {s t : State} (h : t.regs = s.regs) (a : Nat) : t.reg a = s.reg a := by
  unfold State.reg
  rw [h]

/-- A lock bit is set (R480). -/
def State.locked (s : State) (a : Nat) : Bool := (s.reg a).getLsbD 31

/-- s with the lock bit of a register set, and kept through resets (R480). -/
def State.lock (s : State) (a : Nat) : State := s.putSetup a (s.reg a ||| 0x80000000)

theorem State.lock_locked (a b : Nat) : (s.lock a).locked b = (b == a || s.locked b) := by
  have hreg : (s.lock a).reg b = if b == a then (if lockRegs.contains a then (s.reg a ||| 0x80000000) ||| (s.reg a &&& 0x80000000)
      else s.reg a ||| 0x80000000) else s.reg b := (State.reg_setReg s a b _)
  unfold State.locked
  rw [hreg]
  cases hab : b == a with
  | false => rfl
  | true =>
    simp
    split <;> simp

theorem State.foldl_lock_locked {l : List Nat} {b : Nat} {s : State} (h : b ∈ l ∨ s.locked b = true) : (l.foldl State.lock s).locked b = true := by
  induction l generalizing s with
  | nil => simpa using h
  | cons a l ih =>
    rw [List.foldl_cons]
    refine ih ?_
    rw [State.lock_locked]
    rcases h with h | h
    · rcases List.mem_cons.1 h with rfl | h
      · exact .inr (by simp)
      · exact .inl h
    · exact .inr (by simp [h])

/-- In SECURED every lock is set at the entry to Service (R480). -/
theorem State.setLocks_locked (h : s.lovage.life = .secured) {a : Nat} (ha : a ∈ lockRegs) : s.setLocks.locked a = true := by
  have hregs (u : State) : u.presentJournal.regs = u.regs := by
    unfold State.presentJournal
    split <;> rfl
  have hlocks : s.setLocks.regs = (lockRegs.foldl State.lock s).regs := by
    unfold State.setLocks
    rw [if_pos (by simp [h]), hregs]
    rfl
  have hlocked : (lockRegs.foldl State.lock s).locked a = true := State.foldl_lock_locked (.inl ha)
  rwa [State.locked, State.reg_of_regs hlocks]

theorem State.regSoon_of_regs {s t : State} {a : Nat} (hr : t.reg a = s.reg a) (hc : t.admin.changes = s.admin.changes) : t.regSoon a = s.regSoon a := by
  unfold State.regSoon State.regN
  rw [hr, hc]

/-- s with the checks of the setup recorded, when a GO is carried out (R484). -/
def State.checked (s : State) (go : Bool) : State := if go then s.recordChecks else s

theorem State.checked_regSoon (go : Bool) {a : Nat} (ha : a ≠ 0x20) : (s.checked go).regSoon a = s.regSoon a := by
  cases go with
  | false => rfl
  | true =>
    refine State.regSoon_of_regs ((State.reg_setReg ..).trans ?_) rfl
    simp [ha]

end

/-! ## Steps 5 and 7 -/

/-- Step 5: fresh generators, of which LOVAGE's has served one request, and the keys drawn from it (R235, R264, R282). -/
theorem exec_entropyStartUpTestsEnd {s : State} (hm : s.mode.mode = .startup) (hf : s.mode.fail = 0) (hs4 : s.mode.steps.s4 = true)
    (hs5 : s.mode.steps.s5 = false) : ∃ t : State, exec .entropyStartUpTestsEnd s = .next t ∧ t.mode.steps.s5 = true ∧
      t.basil.drbgs = (List.replicate 17 Drbg.fresh).set 16 { Drbg.fresh with requests := 1 } ∧ t.lovage.attKey = s.lovage.deriveKey ∧
      t.dill.sealKey.isSome = true ∧ t.dill.saveCtr = 0 := by
  have hopen : (s.mode.mode == .startup && s.mode.fail == 0 && s.mode.steps.s4 && !s.mode.steps.s5) = true := by simp [hm, hf, hs4, hs5]
  change ∃ t : State, execEntropyStartUpTestsEnd s = _ ∧ _
  rw [execEntropyStartUpTestsEnd, guarded, if_pos hopen]
  exact ⟨_, rfl, rfl, rfl, rfl, rfl, rfl⟩

/-- Step 7 retires the units that its tests found, and ends or fails start-up (R429, R430). -/
theorem exec_startupTestsEnd {s : State} (f : StartupFindings) (hm : s.mode.mode = .startup) (hf : s.mode.fail = 0) (hs5 : s.mode.steps.s5 = true)
    (hs6 : s.mode.steps.s6 = true) (hs7 : s.mode.steps.s7 = false) :
    let u : State := { s with sorrel := s.sorrel.mapOf f, sage := s.sage.tested f.sageA f.sageB }
    exec (.startupTestsEnd f) s = .next (if failureCode f = 0 then u.endStep fun t => { t with s7 := true }
      else u.setMode fun m => { m with fail := BitVec.ofNat 4 (failureCode f), target := 0, latched := none, hold := false }) := by
  change execStartupTestsEnd f s = _
  simp [execStartupTestsEnd, guarded, done, hm, hf, hs5, hs6, hs7]

/-! ## What an entry leaves alone -/

section
variable (s : State)

/-- What the statements say of a state beside its mode: the registers, queues, domains and OTP. -/
def State.settings (s : State) : List (Nat × BitVec 64) × Fennel × List Domain × Lovage := (s.regs, s.fennel, s.domains, s.lovage)

theorem State.settings_of {s t : State} (hr : t.regs = s.regs) (hf : t.fennel = s.fennel) (hd : t.domains = s.domains)
    (hl : t.lovage = s.lovage) : t.settings = s.settings := by
  simp only [State.settings, hr, hf, hd, hl]

theorem State.settings_fields {s t : State} (h : t.settings = s.settings) :
    t.regs = s.regs ∧ t.fennel = s.fennel ∧ t.domains = s.domains ∧ t.lovage = s.lovage := by
  simpa [State.settings] using h

theorem State.releaseHolds_still : s.releaseHolds.still = s.still := foldl_keeps State.still _ (fun s _ => s.checkHold_still _) _ s

theorem State.releaseHolds_settings : s.releaseHolds.settings = s.settings := by
  refine foldl_keeps State.settings _ (fun s q => ?_) _ s
  unfold State.checkHold
  dsimp only
  repeat' split
  all_goals rfl

theorem State.drawPrefix_settings : s.drawPrefix.1.settings = s.settings := by
  unfold State.drawPrefix State.drbgRequest
  dsimp only
  repeat' split
  all_goals rfl

theorem State.checkDegraded_settings : s.checkDegraded.settings = s.settings := by
  unfold State.checkDegraded
  repeat' split
  all_goals rfl

/-- Service goes on as Service or as Degraded service, by its reserve lanes (R63). -/
theorem State.checkDegraded_service (h : s.mode.mode = .service) :
    (s.checkDegraded.mode.mode = .service ∨ s.checkDegraded.mode.mode = .degraded) ∧ s.checkDegraded.mode.target = s.mode.target := by
  unfold State.checkDegraded
  simp only [h]
  split
  · exact ⟨.inr rfl, rfl⟩
  · exact ⟨.inl h, rfl⟩

theorem State.setLocks_others : s.setLocks.fennel = s.fennel ∧ s.setLocks.domains = s.domains ∧ s.setLocks.lovage = s.lovage := by
  have hfold := foldl_keeps (fun u : State => (u.fennel, u.domains, u.lovage)) State.lock (fun _ _ => rfl) lockRegs s
  unfold State.setLocks State.presentJournal
  obtain ⟨hf, hd, hl⟩ : (lockRegs.foldl State.lock s).fennel = s.fennel ∧ (lockRegs.foldl State.lock s).domains = s.domains ∧
      (lockRegs.foldl State.lock s).lovage = s.lovage := by simpa using hfold
  repeat' split
  · exact ⟨hf, hd, hl⟩
  · exact ⟨hf, hd, hl⟩
  · exact ⟨rfl, rfl, rfl⟩

/-- A plan that comes into force writes THYME's tables and nothing else. -/
theorem State.usePlan_thyme (p : List (Nat × PlanRec)) : s.usePlan p = { s with thyme := (s.usePlan p).thyme } := by
  unfold State.usePlan
  generalize s.compileFor p = q
  rfl

theorem State.firstPlan_thyme : s.firstPlan = { s with thyme := s.firstPlan.thyme } := by
  unfold State.firstPlan
  rw [State.usePlan_thyme]

theorem State.firstPlan_settings : s.firstPlan.settings = s.settings := by
  rw [s.firstPlan_thyme]
  exact State.settings_of rfl rfl rfl rfl

theorem State.firstPlan_admin : s.firstPlan.admin = s.admin := by rw [s.firstPlan_thyme]

theorem State.loadDomain0_settings : s.loadDomain0.settings = (s.regs, { s.fennel with queues := [s.queue0] }, [s.domain0], s.lovage) := rfl

section
variable (f : Sage → Sage) (a : Admin)

theorem State.setSage_settings : (s.setSage f).settings = s.settings := rfl

theorem State.admin_settings : State.settings { s with admin := a } = s.settings := rfl

end

/-- What an entry to Service sets (R427, R480, R483). -/
theorem State.toService_enters (h : s.lovage.granted = none) :
    (s.toService.mode.mode = .service ∨ s.toService.mode.mode = .degraded) ∧ s.toService.mode.target = 0 ∧
    s.toService.fennel.queues.map (fun q => (q.num, q.domain, q.base, q.n)) =
      [(0, 0, s.regSoon 0x20008 % 2 ^ 52, s.regSoon 0x20010 % 32)] ∧ s.toService.domains.map (·.num) = [0] ∧
    (s.lovage.life = .secured → ∀ a ∈ lockRegs, s.toService.locked a = true) := by
  unfold State.toService
  -- The stages: s2 has queue 0 and domain 0, s5 the draw for NTS, s7 its locks and the mode Service, s8 no hold left.
  extract_lets s1 s2 a4 s4 s5 s6 t7 s7 s8
  have hs1 : s1.settings = s.settings ∧ s1.admin = s.admin := by
    simp only [s1]
    split
    · exact ⟨State.settings_of rfl rfl rfl rfl, rfl⟩
    · exact ⟨rfl, rfl⟩
  clear_value s1
  obtain ⟨hr1, -, -, hl1⟩ := State.settings_fields (s1.firstPlan_settings.trans hs1.1)
  have hsoon (a : Nat) : s1.firstPlan.regSoon a = s.regSoon a :=
    State.regSoon_of_regs (State.reg_of_regs hr1 a) (congrArg Admin.changes (s1.firstPlan_admin.trans hs1.2))
  have hs2 : s2.settings = _ := s1.firstPlan.loadDomain0_settings
  clear_value s2
  have h5 : s5.settings = s2.settings := (State.drawPrefix_settings _).trans ((s4.setSage_settings _).trans (s2.admin_settings _))
  obtain ⟨hr5, hf5, hd5, hl5⟩ := State.settings_fields h5
  clear_value s5
  obtain ⟨hf6, hd6, hl6⟩ := s5.setLocks_others
  obtain ⟨hr8, hf8, hd8, hl8⟩ := State.settings_fields (s7.checkDegraded.releaseHolds_settings.trans s7.checkDegraded_settings)
  obtain ⟨hmode, htarget⟩ := s7.checkDegraded_service rfl
  rw [← State.mode_of_still s7.checkDegraded.releaseHolds_still] at hmode htarget
  simp only [State.settings, Prod.mk.injEq] at hs2
  obtain ⟨-, hq, hd2, hl2⟩ := hs2
  have hl : s8.lovage = s.lovage := hl8.trans (hl6.trans (hl5.trans (hl2.trans hl1)))
  rw [if_neg (by simp [hl, h])]
  have hf : s8.fennel = _ := hf8.trans (hf6.trans (hf5.trans hq))
  have hd : s8.domains = _ := hd8.trans (hd6.trans (hd5.trans hd2))
  refine ⟨hmode, htarget, ?_, ?_, fun hlife a ha => ?_⟩
  · rw [hf, ← hsoon, ← hsoon]
    rfl
  · rw [hd]
    rfl
  · have hregs : s8.regs = s5.setLocks.regs := hr8.trans rfl
    have hlife5 : s5.lovage.life = .secured := by rw [hl5, hl2, hl1, hlife]
    rw [State.locked, State.reg_of_regs hregs]
    exact s5.setLocks_locked hlife5 ha

/-! ## Into Provisioning -/

theorem State.formatJournal_mode : s.formatJournal.mode = { s.mode with formatWait := false } := by
  unfold State.formatJournal
  dsimp only
  rw [State.mode_of_still (State.jWrite_still ..)]
  rfl

theorem State.formatJournal_lovage : s.formatJournal.lovage = s.lovage := by
  unfold State.formatJournal
  dsimp only
  rw [State.lovage_of_still (State.kbRaise_still ..), State.lovage_of_still (State.jWrite_still ..)]
  rfl

/-- The confirmation of an installation writes LOVAGE's operation alone (R402). -/
theorem State.confirmStart_keeps : s.confirmStart.mode = s.mode ∧ s.confirmStart.lovage.granted = s.lovage.granted := by
  unfold State.confirmStart
  dsimp only
  repeat' split
  all_goals exact ⟨rfl, rfl⟩

/-- An entry to Provisioning, with or without a journal to format (R402, R431). -/
theorem State.toProvisioning_enters (h : s.lovage.granted = none) : s.toProvisioning.mode.mode = .provisioning ∧ s.toProvisioning.mode.target = 0 ∧
    s.toProvisioning.mode.hold = false := by
  unfold State.toProvisioning
  extract_lets s1 s2 s3
  have h2 : (s2.mode.mode = .provisioning ∧ s2.mode.target = 0 ∧ s2.mode.hold = false) ∧ s2.lovage.granted = s.lovage.granted := by
    simp only [s2]
    split
    · obtain ⟨hm, hg⟩ := s1.formatJournal.confirmStart_keeps
      rw [hm, hg, State.formatJournal_mode, State.formatJournal_lovage]
      exact ⟨⟨rfl, rfl, rfl⟩, rfl⟩
    · exact ⟨⟨rfl, rfl, rfl⟩, rfl⟩
  clear_value s2
  obtain ⟨hmode, hgranted⟩ := h2
  have hstill : s3.still = s2.still := s2.releaseHolds_still
  rw [if_neg (by simp [State.lovage_of_still hstill, hgranted, h]), State.mode_of_still hstill]
  exact hmode

/-! ## ENTER_SERVICE -/

variable {s : State}

theorem State.recordChecks_mustProvision : s.recordChecks.mustProvision = s.mustProvision := rfl

theorem State.checked_lovage (go : Bool) : (s.checked go).lovage = s.lovage := by
  cases go <;> rfl

/-- A GO that fails leaves Duern where it is, with req_err (R484); a Drain keeps its target. -/
theorem State.goFails_stays : s.goFails.mode.mode = s.mode.mode ∧ s.goFails.mode.reqErr = true ∧ s.goFails.mode.latched = none ∧
    s.goFails.mode.target = if s.mode.mode = .drain then s.mode.target else 0 := by
  refine ⟨rfl, rfl, rfl, ?_⟩
  by_cases h : s.mode.mode = .drain <;> simp [State.goFails, State.recordChecks, h]

/-- Step 10 of start-up: a GO whose checks fail leaves Duern there, and otherwise it goes to Provisioning or to Service (R427, R431, R484). -/
theorem exec_enterService_over (h : s.startupOver = true) : exec .enterService s = .next
    (if s.mode.latched = some .go ∧ s.setupErr ≠ 0 then s.goFails
    else if s.mustProvision = true then (s.checked (s.mode.latched == some .go)).toProvisioning
    else (s.checked (s.mode.latched == some .go)).toService) := by
  change execEnterService s = _
  by_cases hgo : s.mode.latched = some .go <;> by_cases herr : s.setupErr = 0 <;>
    simp [execEnterService, done, h, hgo, herr, State.checked, State.recordChecks_mustProvision]

/-- A GO in Provisioning, or a RESUME in a Drain that began there (R432). -/
theorem exec_enterService_leaves (hover : s.startupOver = false) (h : s.leavesProvisioning = true) : exec .enterService s = .next
    (if s.setupErr ≠ 0 ∨ s.lovage.goAllowed = false then s.goFails else s.recordChecks.toService) := by
  change execEnterService s = _
  simp [execEnterService, guarded, done, hover, h]

end

/-- Settles O50: steps 5 and 7 by what they write, and every entry by goFails, toProvisioning or toService of a state whose checks are recorded. -/
theorem startupRule : Obligations.StartupRule := by
  unfold Obligations.StartupRule
  refine ⟨fun s hm hf hs4 hs5 => ?step5, fun f s hm hf hs5 hs6 hs7 => ⟨_, exec_startupTestsEnd f hm hf hs5 hs6 hs7, ?step7⟩,
    fun s hover hg => ⟨_, exec_enterService_over hover, ?step10⟩, fun s hfrom hg => ?leaves⟩
  case step5 =>
    obtain ⟨t, hexec, hstep, hdrbgs, hkey, hseal, hsave⟩ := exec_entropyStartUpTestsEnd hm hf hs4 hs5
    refine ⟨t, hexec, hstep, ?_, ?_, hkey, hseal, hsave⟩ <;> rw [hdrbgs] <;> decide
  case step7 =>
    refine ⟨?_, fun hok => ?_, fun hfail => ?_⟩
    · split <;> rfl
    · rw [if_pos hok]
      rfl
    · rw [if_neg hfail]
      exact ⟨rfl, hm⟩
  case step10 =>
    have hstart : s.mode.mode = .startup := by
      simp only [State.startupOver, Bool.and_eq_true, beq_iff_eq] at hover
      obtain ⟨⟨⟨⟨⟨⟨hm, -⟩, -⟩, -⟩, -⟩, -⟩, -⟩ := hover
      exact hm
    refine ⟨fun hgo herr => ?_, fun hno hprov => ?_, fun hno hprov => ?_⟩
    · rw [if_pos ⟨hgo, herr⟩]
      obtain ⟨hmode, herror, hlatched, htarget⟩ := s.goFails_stays
      rw [hstart] at hmode htarget
      exact ⟨hmode, herror, hlatched, htarget⟩
    · rw [if_neg hno, if_pos hprov]
      exact State.toProvisioning_enters _ (by rw [State.checked_lovage, hg])
    · obtain ⟨hmode, htarget, hqueues, hdomains, hlocks⟩ :=
        State.toService_enters (s.checked (s.mode.latched == some .go)) (by rw [State.checked_lovage, hg])
      rw [if_neg hno, if_neg (by simp [hprov])]
      rw [State.checked_regSoon _ _ (by decide), State.checked_regSoon _ _ (by decide)] at hqueues
      rw [State.checked_lovage] at hlocks
      exact ⟨hmode, htarget, hqueues, hdomains, hlocks⟩
  case leaves =>
    have hover : s.startupOver = false := by rcases hfrom with ⟨hm, -⟩ | ⟨hm, -, -⟩ <;> simp [State.startupOver, hm]
    have hleaves : s.leavesProvisioning = true := by
      rcases hfrom with ⟨hm, hgo⟩ | ⟨hm, hprov, hres⟩
      · simp [State.leavesProvisioning, hm, hgo]
      · simp [State.leavesProvisioning, hm, hprov, hres]
    refine ⟨_, exec_enterService_leaves hover hleaves, fun hbad => ?_, fun herr hgo => ?_⟩
    · rw [if_pos hbad]
      obtain ⟨hmode, herror, -, htarget⟩ := s.goFails_stays
      exact ⟨hmode, herror, htarget⟩
    · obtain ⟨hmode, -, -, hdomains, -⟩ := s.recordChecks.toService_enters hg
      rw [if_neg (by simp [herr, hgo])]
      exact ⟨hmode, hdomains⟩

end Sys2Proof.Machine
end

section
/-! PROOF. Lockstep halves (R381, R382, R499): what an alarm leaves of SORREL and of THYME's idle tick, what makes a half leave and return, and which half it is afterwards. -/

namespace Sys2Proof.Machine

/-! ## What an alarm leaves -/

/-- What the statements on faults say of a state: SORREL, and whether THYME's next assignment is not made (R382). -/
def State.faults (s : State) : Sorrel × Bool := (s.sorrel, s.thyme.idle)

section
variable (s : State)

theorem State.faults_of {s t : State} (hs : t.sorrel = s.sorrel) (ht : t.thyme.idle = s.thyme.idle) : t.faults = s.faults := by
  simp only [State.faults, hs, ht]

theorem State.sorrel_of_faults {s t : State} (h : t.faults = s.faults) : t.sorrel = s.sorrel := congrArg Prod.fst h

theorem State.faults_of_still {s t : State} (h : t.still = s.still) : t.faults = s.faults :=
  State.faults_of (State.sorrel_of_still h) (congrArg (fun u : State => u.thyme.idle) h :)

theorem State.stopUnits_faults (q : Nat) (c : BitVec 17) : (s.stopUnits q c).faults = s.faults := by
  unfold State.stopUnits
  exact State.faults_of rfl rfl

theorem State.abandonJob_faults (q : Nat) (c : BitVec 17) : (s.abandonJob q c).faults = s.faults :=
  State.faults_of (congrArg Prod.fst (State.stopUnits_faults _ q c) :) (congrArg Prod.snd (State.stopUnits_faults _ q c) :)

theorem State.dropStaged_faults : s.dropStaged.faults = s.faults := by
  have hloads := foldl_keeps State.faults (fun s (l : PostedLoad) => s.dropLoadJob l.load) (fun s _ => s.abandonJob_faults ..) s.admin.loads s
  have hholds (l : List EventQ) (u : State) : (l.foldl (fun s q => s.checkHold q.domain) u).faults = u.faults :=
    foldl_keeps State.faults _ (fun s _ => State.faults_of_still (s.checkHold_still _)) l u
  rw [State.dropStaged, hholds]
  exact hloads

theorem State.abortJob_faults (q : Nat) (c : BitVec 17) : (s.abortJob q c).faults = s.faults := by
  unfold State.abortJob
  split
  · rfl
  · dsimp only
    split
    · exact State.faults_of_still (State.readTable_still ..)
    · exact State.faults_of_still ((State.settle_still ..).trans (State.writeDst_still ..))

theorem State.beginAbort_faults : s.beginAbort.faults = s.faults := by
  have hjobs (l : List Job) (u : State) : (l.foldl (fun s j => s.abortJob j.queue j.count) u).faults = u.faults :=
    foldl_keeps State.faults _ (fun s _ => s.abortJob_faults ..) l u
  have hclear (u : State) : u.clearSecrets.faults = u.faults := rfl
  have hmode (u : State) (f : ModeUnit → ModeUnit) : (u.setMode f).faults = u.faults := rfl
  have hlines (u : State) : u.zeroLines.faults = u.faults := rfl
  rw [State.beginAbort, hmode, hclear, hjobs, State.dropStaged_faults, hlines]
  rfl

section
variable (h : s.afterStartup = true)
include h

theorem State.alarmResponse_faults : s.alarmResponse.faults = s.faults := by
  unfold State.afterStartup at h
  unfold State.alarmResponse
  split <;> rename_i hm <;> simp only [hm, Bool.false_eq_true] at h
  · rfl
  · exact s.beginAbort_faults

theorem State.latchAlarm_faults (m : BitVec 12) : (s.latchAlarm m).faults = s.faults := by
  unfold State.latchAlarm
  split
  · rfl
  · split
    · rfl
    · exact State.alarmResponse_faults { s with aon := s.latchedAon m, lovage := s.lovage.halt } h

/-- After start-up an alarm leaves SORREL and THYME's idle tick as they are (R415). -/
theorem State.fire_faults (n : Nat) (always : Bool) : (s.fire n always).faults = s.faults := by
  unfold State.fire
  extract_lets m u
  split
  · exact u.latchAlarm_faults h m
  · rfl

end

/-! ## Halves -/

theorem State.halvesChecked_faults (u : LockUnit) : (s.halvesChecked u).faults = s.faults := by
  unfold State.halvesChecked
  dsimp only
  split
  next hlost =>
    simp only [Bool.and_eq_true] at hlost
    exact s.fire_faults hlost.2 10 true
  next => rfl

theorem State.halfEvent_faults (u : LockUnit) (n : Nat) : (s.halfEvent u n).faults = s.faults := by
  unfold State.halfEvent
  split
  · exact State.faults_of_still (State.event_still ..)
  · rfl

/-- What is left of SORREL and of THYME's idle tick when the halves of a unit change, are reported and are looked at. -/
theorem State.setHalves_faults (u : LockUnit) (h : Half × Half) (n : Nat) : (((s.setHalves u h).halfEvent u n).halvesChecked u).faults =
    ({ s.sorrel with halves := assocSet s.sorrel.halves u h }, s.thyme.idle) :=
  (State.halvesChecked_faults ..).trans (State.halfEvent_faults ..)

theorem State.halvesOf_of_faults {t : State} {x : Sorrel} {i : Bool} (h : t.faults = (x, i)) (u : LockUnit) :
    t.halvesOf u = (x.halves.lookup u).getD (.inPair, .inPair) := by
  have hs : t.sorrel = x := congrArg Prod.fst h
  rw [State.halvesOf, hs]

theorem State.setHalves_halvesOf (u : LockUnit) (h : Half × Half) (n : Nat) :
    (((s.setHalves u h).halfEvent u n).halvesChecked u).halvesOf u = h := by
  rw [State.halvesOf_of_faults (s.setHalves_faults u h n), lookup_assocSet]
  simp

/-- A half of a pair once its self-check has failed: it leaves if it was in the pair (R381). -/
def Half.leaving (x : Half) (out : Bool) : Half := if out && x == .inPair then .left else x

/-- The halves that are blamed leave their pair, and the others stay as they are (R381). -/
theorem State.leavePair_halvesOf (u : LockUnit) (a b : Bool) :
    (s.leavePair u a b).halvesOf u = ((s.halvesOf u).1.leaving a, (s.halvesOf u).2.leaving b) := by
  unfold State.leavePair
  extract_lets h a' b' t
  split
  next hstay =>
    simp only [Bool.and_eq_true, Bool.not_eq_true'] at hstay
    simp only [Half.leaving, h, a', b'] at hstay ⊢
    simp [hstay]
  next => exact s.setHalves_halvesOf ..

/-- Halves that leave move nothing of SORREL's but the halves, and no assignment of THYME's. -/
theorem State.leavePair_keeps (u : LockUnit) (a b : Bool) :
    ∃ hs, (s.leavePair u a b).sorrel = { s.sorrel with halves := hs } ∧ (s.leavePair u a b).thyme.idle = s.thyme.idle := by
  unfold State.leavePair
  extract_lets h a' b' t
  split
  · exact ⟨s.sorrel.halves, rfl, rfl⟩
  · obtain ⟨hsorrel, hidle⟩ := Prod.ext_iff.1 (s.setHalves_faults u (if a' then .left else h.1, if b' then .left else h.2) 1)
    exact ⟨_, hsorrel, hidle⟩

/-! ## LOCKSTEP_MISMATCH and HALF_REJOIN -/

variable {s} (hm : s.mainRuns = true)
include hm

theorem exec_lockstepMismatch (u : LockUnit) (who : Blame) (a b : Bool) : exec (.lockstepMismatch u who a b) s = .next (match who with
    | .halfA => s.leavePair u true false
    | .halfB => s.leavePair u false true
    | .neither => (s.repeatWork u).leavePair u a b) := by
  change execLockstepMismatch u who a b s = _
  rw [execLockstepMismatch, guarded, if_pos hm]
  cases who <;> rfl

theorem exec_halfRejoin {u : LockUnit} {second pass : Bool} (hleft : (if second then (s.halvesOf u).2 else (s.halvesOf u).1) = .left)
    (hfree : u = .thyme → s.test? 7 0 true = none) : exec (.halfRejoin u second pass) s = .next
      (((s.setHalves u (if second then ((s.halvesOf u).1, if pass then .inPair else .retired)
        else (if pass then .inPair else .retired, (s.halvesOf u).2))).halfEvent u (if pass then 2 else 3)).halvesChecked u) := by
  have hopen : (s.mainRuns && (if second then (s.halvesOf u).2 else (s.halvesOf u).1) == .left && !(u == .thyme && (s.test? 7 0 true).isSome)) = true := by
    have hidle : (u == .thyme && (s.test? 7 0 true).isSome) = false := by
      by_cases hu : u = .thyme
      · simp [hfree hu]
      · simp [hu]
    simp [hm, hleft, hidle]
  change execHalfRejoin u second pass s = _
  rw [execHalfRejoin, guarded, if_pos hopen]
  rfl

end

end Sys2Proof.Machine
end

section
/-! PROOF. Uncorrectable words (R376, R378, R389, Table 12.2): what the answer of an element leaves of SORREL's count of them. -/

namespace Sys2Proof.Machine

section
variable (s : State)

/-! ## Events and jobs -/

@[simp] theorem State.event_sorrel (d t p a : Nat) (data : Bytes) : (s.event d t p a data).sorrel = s.sorrel :=
  State.sorrel_of_still (s.event_still ..)

@[simp] theorem State.eventDM_sorrel (d t p a : Nat) (data : Bytes) : (s.eventDM d t p a data).sorrel = s.sorrel :=
  State.sorrel_of_still (s.eventDM_still ..)

@[simp] theorem State.unitEvent_sorrel (k i n : Nat) : (s.unitEvent k i n).sorrel = s.sorrel := s.event_sorrel ..

@[simp] theorem State.endJob_sorrel (q : Nat) (c : BitVec 17) (st : Status) : (s.endJob q c st).sorrel = s.sorrel :=
  State.sorrel_of_still (s.endJob_still ..)

@[simp] theorem State.kbRaise_sorrel (k : KbKind) (d h : Nat) (dest : KbFor) (avoid : Option Nat) (n : Nat) :
    (s.kbRaise k d h dest avoid n).sorrel = s.sorrel := State.sorrel_of_still (s.kbRaise_still ..)

@[simp] theorem State.keyRetry_sorrel : s.keyRetry.sorrel = s.sorrel := State.sorrel_of_still s.keyRetry_still

@[simp] theorem State.capacityEvent_sorrel (ds : List Nat) : (s.capacityEvent ds).sorrel = s.sorrel := by
  unfold State.capacityEvent
  refine (foldl_keeps State.sorrel _ (fun s d => ?_) ds _).trans (s.event_sorrel ..)
  split
  · rfl
  · exact s.event_sorrel ..

@[simp] theorem State.checkDegraded_sorrel : s.checkDegraded.sorrel = s.sorrel := by
  unfold State.checkDegraded
  repeat' split
  all_goals rfl

/-! ## Keys and their counters -/

theorem State.failLoad_sorrel (l : PostedLoad) (st : Status) : (s.failLoad l st).sorrel = s.sorrel := by
  unfold State.failLoad
  extract_lets keep e a b c s1 s2 s3
  rw [foldl_keeps State.sorrel _ (fun s j => s.endJob_sorrel ..), State.dropLoadJob, State.sorrel_of_faults (s3.abandonJob_faults ..)]
  exact s2.eventDM_sorrel ..

@[simp] theorem State.denyLoad_sorrel (d h : Nat) : (s.denyLoad d h).sorrel = s.sorrel := by
  unfold State.denyLoad
  dsimp only
  rw [State.keyRetry_sorrel, foldl_keeps State.sorrel _ (fun s l => s.failLoad_sorrel l .keyDenied)]
  split <;> rfl

theorem State.slotUncorrectable_sorrel (d h : Nat) : (s.slotUncorrectable d h).sorrel = s.sorrel := by
  unfold State.slotUncorrectable
  split
  · rfl
  · dsimp only
    split
    · rw [State.denyLoad_sorrel]
      refine foldl_keeps State.sorrel _ (fun s j => ?_) _ s
      split
      · rfl
      · exact s.endJob_sorrel ..
    · split
      · exact State.sorrel_of_still ((State.startLoad_still ..).trans (s.dropSlot_still ..))
      · split
        · exact State.denyLoad_sorrel ..
        · rfl

theorem State.counterUncorrectable_sorrel (d h : Nat) : (s.counterUncorrectable d h).sorrel = s.sorrel := by
  unfold State.counterUncorrectable
  split
  · rfl
  · dsimp only
    split
    · exact State.kbRaise_sorrel ..
    · split
      · unfold State.mintOnLoad
        repeat' split
        · rfl
        · rfl
        · exact State.sorrel_of_still ((State.reserve_still ..).trans rfl)
      · rfl

theorem State.contextUncorrectable_sorrel (q : Nat) (c : BitVec 17) : (s.contextUncorrectable q c).sorrel = s.sorrel := by
  unfold State.contextUncorrectable
  split
  · rfl
  · exact (State.endJob_sorrel ..).trans (State.eventDM_sorrel ..)

/-! ## Sequencers -/

theorem State.vacateSeq_sorrel (q : Nat) : (s.vacateSeq q).sorrel = s.sorrel := by
  unfold State.vacateSeq
  dsimp only
  repeat' split
  all_goals simp

theorem State.suspendSeq_ue (q : Nat) : (s.suspendSeq q).sorrel.ue = s.sorrel.ue := by
  unfold State.suspendSeq
  split
  · rw [State.vacateSeq_sorrel, State.unitEvent_sorrel]
    rfl
  · rfl

theorem State.endSeq_ue (q : Nat) (ok : Bool) : (s.endSeq q ok).sorrel.ue = s.sorrel.ue := by
  unfold State.endSeq
  dsimp only
  repeat' split
  all_goals simp [State.vacateSeq_sorrel, State.setSeq]

theorem State.restartOp_sorrel (q : Nat) (o : Op) (votes : List (Nat × BitVec 64)) : (s.restartOp q o votes).sorrel = s.sorrel := by
  unfold State.restartOp
  dsimp only
  split
  · exact (State.endJob_sorrel ..).trans State.clearOp_sorrel
  · exact State.clearOp_sorrel

theorem State.failOp_sorrel (q : Nat) : (s.failOp q).sorrel = s.sorrel := by
  unfold State.failOp
  split
  · rfl
  · split
    · split <;> rfl
    · exact State.restartOp_sorrel ..

theorem State.seqCheckFails_ue (q : Nat) : (s.seqCheckFails q).sorrel.ue = s.sorrel.ue := by
  unfold State.seqCheckFails
  split
  · rw [State.suspendSeq_ue, State.failOp_sorrel]
  · split
    · exact State.suspendSeq_ue ..
    · split
      · exact State.suspendSeq_ue ..
      · rfl

/-! ## Lanes, ports and key-bus lanes -/

theorem State.refill_sorrel (p : Nat) : (s.refill p).1.sorrel = s.sorrel := by
  unfold State.refill
  dsimp only
  repeat' split
  all_goals rfl

theorem State.takeOut_sorrel (ls : List Nat) (alone : Bool) : (s.takeOut ls alone).sorrel = s.sorrel := by
  unfold State.takeOut
  extract_lets ps u
  have hu : u.sorrel = s.sorrel := foldl_keeps State.sorrel _ (by intros; rfl) ps s
  split
  next v dark hfold =>
    have hv : v.sorrel = s.sorrel := by
      have hkept : (v, dark).1.sorrel = s.sorrel := by
        rw [← hfold]
        refine List.foldlRecOn (motive := fun a : State × List Nat => a.1.sorrel = s.sorrel) ps _ hu fun a ha p _ => ?_
        dsimp only
        rw [← ha, ← a.1.refill_sorrel p]
        split
        · split
          · exact State.unitEvent_sorrel ..
          · rfl
        · rfl
      exact hkept
    dsimp only
    rw [State.checkDegraded_sorrel]
    split
    · exact hv
    · exact (State.capacityEvent_sorrel ..).trans hv

theorem State.bunchOver_ue (b : Nat) : (s.bunchOver b).sorrel.ue = s.sorrel.ue := by
  unfold State.bunchOver
  dsimp only
  split
  · rfl
  · rw [State.unitEvent_sorrel]
    exact foldl_keeps (fun u : State => u.sorrel.ue) _ (by intros; rfl) _ s

theorem State.returnLane_ue (l : Nat) : (s.returnLane l).sorrel.ue = s.sorrel.ue := by
  unfold State.returnLane
  split
  · rfl
  · dsimp only
    repeat' split
    all_goals simp [State.bunchOver_ue, State.setLane]

theorem State.retireLane_ue (l : Nat) : (s.retireLane l).sorrel.ue = s.sorrel.ue := by
  unfold State.retireLane
  split
  · rfl
  · dsimp only
    repeat' split
    all_goals simp [State.bunchOver_ue, State.takeOut_sorrel, State.setLane]

theorem State.endDill_ue (l : Nat) (ok : Bool) : (s.endDill l ok).sorrel.ue = s.sorrel.ue := by
  unfold State.endDill
  dsimp only
  repeat' split
  all_goals simp [State.setDillLane]

theorem State.portTested_ue (p : Nat) (pass : Bool) : (s.portTested p pass).sorrel.ue = s.sorrel.ue := by
  unfold State.portTested
  split
  · dsimp only
    rw [State.unitEvent_sorrel]
    rfl
  · rfl

@[simp] theorem State.askAll_sorrel : s.askAll.sorrel = s.sorrel := by
  refine foldl_keeps State.sorrel _ (fun s x => ?_) _ s
  unfold State.askUses
  repeat' split
  all_goals simp

@[simp] theorem State.kbAgain_sorrel (r : KbReq) (n : Nat) : (s.kbAgain r n).sorrel = s.sorrel := by
  unfold State.kbAgain
  split
  · rfl
  · exact State.kbRaise_sorrel ..

theorem State.endKb_ue (l : Nat) (pass : Bool) : (s.endKb l pass).sorrel.ue = s.sorrel.ue := by
  unfold State.endKb
  dsimp only
  split
  · rw [foldl_keeps State.sorrel _ (fun s r => s.kbAgain_sorrel r r.errors), State.askAll_sorrel, State.unitEvent_sorrel]
    rfl
  · rw [State.unitEvent_sorrel]
    rfl

/-! ## Tests -/

theorem State.setThymeHalf_ue (second : Bool) (x : Half) : (s.setThymeHalf second x).sorrel.ue = s.sorrel.ue := by
  unfold State.setThymeHalf
  dsimp only
  rw [State.unitEvent_sorrel]
  rfl

theorem State.finishTest_ue (t : SelfTest) (pass : Bool) : (s.finishTest t pass).sorrel.ue = s.sorrel.ue := by
  unfold State.finishTest
  extract_lets i held fewer lane
  have hlane (u : State) (l : Nat) : (lane u l).sorrel.ue = u.sorrel.ue := by
    simp only [lane]
    repeat' split
    · rfl
    · exact u.returnLane_ue l
    · exact u.retireLane_ue l
  clear_value lane
  split
  · exact hlane s i
  · exact foldl_keeps (fun u : State => u.sorrel.ue) lane hlane _ s
  · split
    · rfl
    · exact State.endDill_ue ..
  · split
    · exact State.endSeq_ue ..
    · rfl
  · exact State.portTested_ue ..
  · split
    · rw [State.setSage_sorrel]
    · rw [State.event_sorrel, State.setSage_sorrel]
  · exact State.setThymeHalf_ue ..
  · split
    · exact State.endKb_ue ..
    · rfl
  · split
    · rfl
    · rw [State.unitEvent_sorrel]

theorem State.logTest_ue (t : SelfTest) (n : Nat) : (s.logTest t n).sorrel.ue = s.sorrel.ue := by
  unfold State.logTest
  dsimp only
  rw [State.adminOk, State.endJob_sorrel]
  rfl

theorem State.testResult_ue (u : LaneKind) (l : Nat) : (s.testResult u l false).sorrel.ue = s.sorrel.ue := by
  cases u with
  | chive => exact s.retireLane_ue l
  | dill => exact s.endDill_ue l false

theorem State.testRomFails_ue (k i : Nat) : (s.testRomFails k i).sorrel.ue = s.sorrel.ue := by
  unfold State.testRomFails
  split
  · rw [State.logTest_ue, State.finishTest_ue]
  · dsimp only
    repeat' split
    · exact State.testResult_ue ..
    · rfl
    · exact State.testResult_ue ..
    · rfl
    · exact State.endSeq_ue ..
    · rfl
    · rfl

/-- Whatever an element's answer is, it counts no uncorrectable word (R376). -/
theorem State.elementLost_ue (e : Element) : (s.elementLost e).sorrel.ue = s.sorrel.ue := by
  cases e <;> unfold State.elementLost
  case keySlot => exact congrArg Sorrel.ue (State.slotUncorrectable_sorrel ..)
  case useBlock => exact congrArg Sorrel.ue (State.slotUncorrectable_sorrel ..)
  case counterRecord => exact congrArg Sorrel.ue (State.counterUncorrectable_sorrel ..)
  case jobState => exact congrArg Sorrel.ue (State.endJob_sorrel ..)
  case context => exact congrArg Sorrel.ue (State.contextUncorrectable_sorrel ..)
  case thymeState half =>
    obtain ⟨hs, hsorrel, -⟩ := s.leavePair_keeps .thyme (!half) half
    exact (congrArg Sorrel.ue hsorrel :)
  case basilMemory => exact State.seqCheckFails_ue ..
  case verifierRom => exact State.seqCheckFails_ue ..
  case curveEntry n => exact foldl_keeps (fun u : State => u.sorrel.ue) _ (fun u q => u.seqCheckFails_ue q) _ s
  case testRom => exact State.testRomFails_ue ..
  case registerFifo => dsimp only; split <;> rfl
  all_goals rfl

end

end Sys2Proof.Machine
end

section
/-! PROOF. Faults inside the block (R265, R376 to R378, R381, R382, R393 to R395, R499, Table 12.2): what an unblamed mismatch, an uncorrectable word, a scrub, a failed cell and the clock monitor do, and the statement FaultRule. -/

namespace Sys2Proof.Machine

section
variable {s : State}

/-! ## Halves -/

theorem State.repeatWork_halvesOf (u v : LockUnit) : (s.repeatWork u).halvesOf v = s.halvesOf v := by
  unfold State.repeatWork
  split <;> rfl

/-- A unit whose halves neither check blames repeats its work, whichever halves then leave (R381, R382). -/
theorem State.repeatWork_leavePair (u : LockUnit) (a b : Bool) :
    (u = .thyme → ((s.repeatWork u).leavePair u a b).thyme.idle = true) ∧
      (u ≠ .thyme → u ∈ ((s.repeatWork u).leavePair u a b).sorrel.repeating) := by
  obtain ⟨hs, hsorrel, hidle⟩ := (s.repeatWork u).leavePair_keeps u a b
  refine ⟨fun hu => ?_, fun hu => ?_⟩
  · rw [hidle, hu]
    rfl
  · rw [hsorrel, State.repeatWork, if_neg (by simp [hu])]
    exact List.mem_append_right _ List.mem_cons_self

/-! ## Uncorrectable words -/

/-- A word of an element in use is answered by its element, and counted while SORREL runs (R376). -/
theorem exec_uncorrectableError {e : Element} (h : s.elementRuns e = true) :
    exec (.uncorrectableError e) s = .next ((if s.mainRuns then s.countUe else s).elementLost e).flow := by
  change execUncorrectableError e s = _
  rw [execUncorrectableError, guarded, if_pos h]
  rfl

/-- A job whose state is lost ends POISONED (Table 12.2). -/
theorem State.elementLost_jobState {q c : Nat} {j : Job} (hj : s.job? q (BitVec.ofNat 17 c) = some j) (hs : j.status = none) :
    (s.elementLost (.jobState q c)).endedWith q (BitVec.ofNat 17 c) .poisoned :=
  State.endJob_ends (State.statusOf_open hj hs) .poisoned

/-- A curve entry that is lost is empty (R273). -/
theorem State.elementLost_curveEntry (n : Nat) : ∀ x ∈ (s.elementLost (.curveEntry n)).basil.curves, x.1 ≠ n := by
  intro x hx
  simpa using (List.mem_filter.1 hx).2

/-! ## Scrubs, cells and clocks -/

section
variable (hm : s.mainRuns = true)
include hm

/-- A word that needs no correction is forgotten (R377). -/
theorem exec_scrub_clean (m w : Nat) : exec (.scrub m w false) s =
    .next { s with sorrel := { s.sorrel with scrubSeen := s.sorrel.scrubSeen.filter fun v => v != (m, w) } } := by
  change execScrub m w false s = _
  simp [execScrub, guarded, done, hm]

/-- A corrected word is counted; the second time in a row its memory gives it a spare row, as long as there is one (R377). -/
theorem exec_scrub_corrected (m w : Nat) :
    let x := { s.sorrel with ce := satInc s.sorrel.ce }
    let rest := s.sorrel.scrubSeen.filter fun v => v != (m, w)
    exec (.scrub m w true) s = .next
      (if s.sorrel.scrubSeen.contains (m, w) = true ∧ (s.sorrel.spareRows.filter fun v => v.1 == m).length < 4 then
        State.addChange { s with sorrel := { x with scrubSeen := rest } } (.spareRow m w)
      else { s with sorrel := { x with scrubSeen := rest ++ [(m, w)] } }) := by
  change execScrub m w true s = _
  simp [execScrub, guarded, done, hm]

/-- A noise cell that fails is disconnected, with the events that this asks for (R265, R393). -/
theorem exec_entropyHealthFail {i : Nat} (hcell : s.sorrel.cells[i]? = some true) :
    ∃ t : State, exec (.entropyHealthFail i) s = .next t ∧ t.sorrel = { s.sorrel with cells := s.sorrel.cells.set i false } := by
  change ∃ t : State, execEntropyHealthFail i s = _ ∧ _
  rw [execEntropyHealthFail, guarded, if_pos (by simp [hm, hcell])]
  refine ⟨_, rfl, ?_⟩
  dsimp only
  split
  · exact State.unitEvent_sorrel ..
  · exact (State.event_sorrel ..).trans (State.unitEvent_sorrel ..)

theorem exec_registerInterfaceFail : exec .registerInterfaceFail s = .next { s with sorrel := { s.sorrel with regIfFailed := true } } := by
  change execRegisterInterfaceFail s = _
  rw [execRegisterInterfaceFail, guarded, if_pos hm]
  rfl

end

theorem State.applyChange_spareRow {m : Nat} (h : (s.sorrel.spareRows.filter fun v => v.1 == m).length < 4) (w : Nat) :
    s.applyChange (.spareRow m w) = { s with sorrel := { s.sorrel with
      spareRows := s.sorrel.spareRows ++ [(m, w)], spared := satInc s.sorrel.spared } } := if_pos h

/-- The PLL of a clock that does not run: of ck_core or of ck_time (R394). -/
def State.standbyPll (s : State) (core : Bool) : Bool × Bool := (core, !(if core then s.sorrel.pllCore else s.sorrel.pllTime))

/-- The clock monitor changes to the other PLL of a pair that runs, unless start-up has retired it (R394, R429). -/
theorem exec_pllSwitch {core : Bool} (hrun : (if core then s.mainRuns else s.mode.timeOn) = true) :
    exec (.pllSwitch core) s = .next (if s.standbyPll core ∈ s.sorrel.pllBad then s else s.addChange (.pll core)) := by
  change execPllSwitch core s = _
  by_cases h : s.standbyPll core ∈ s.sorrel.pllBad <;> rw [State.standbyPll] at h
  · simp [execPllSwitch, State.standbyPll, guarded, done, h]
  · simp [execPllSwitch, State.standbyPll, guarded, done, h, hrun]

end

/-- Settles O54: halves by what leaves and returns, an uncorrectable word by its element, a scrub by what its word's last one found, and each other fault by its one effect. -/
theorem faultRule : Obligations.FaultRule := by
  unfold Obligations.FaultRule
  refine ⟨fun u a b s hm => ?mismatch, fun u pass s hm hfree => ?rejoin, fun e s hrun => ?word, fun m w s hm => ?scrub,
    fun i s hm hcell => exec_entropyHealthFail hm hcell, fun s => ?clocks⟩
  case mismatch =>
    refine ⟨fun y h => ⟨_, exec_lockstepMismatch hm .., ?_⟩, fun x h => ⟨_, exec_lockstepMismatch hm .., ?_⟩,
      fun h => ⟨_, exec_lockstepMismatch hm .., ?_, State.repeatWork_leavePair u a b⟩⟩
    · rw [State.leavePair_halvesOf, h]
      rfl
    · rw [State.leavePair_halvesOf, h]
      rfl
    · rw [State.leavePair_halvesOf, State.repeatWork_halvesOf, h]
      cases a <;> cases b <;> rfl
  case rejoin =>
    refine ⟨fun y h => ⟨_, exec_halfRejoin hm (by rw [h]; rfl) hfree, ?_⟩, fun x h => ⟨_, exec_halfRejoin hm (by rw [h]; rfl) hfree, ?_⟩⟩
    · rw [State.setHalves_halvesOf, h]
      rfl
    · rw [State.setHalves_halvesOf, h]
      rfl
  case word =>
    refine ⟨fun hm => ?_, fun hm => ?_, s.countUe.elementLost_ue e, fun q c j he hj hs => ?_, fun n he => ?_⟩
    · rw [exec_uncorrectableError hrun, hm]
      rfl
    · rw [exec_uncorrectableError hrun, hm]
      rfl
    · rw [he]
      exact State.elementLost_jobState (s := s.countUe) hj hs
    · rw [he]
      exact State.elementLost_curveEntry n
  case scrub =>
    refine ⟨exec_scrub_clean hm m w, fun hfree => ⟨?_, State.applyChange_spareRow hfree.2 w⟩, fun hused => ?_⟩
    · rw [exec_scrub_corrected hm, if_pos hfree]
    · rw [exec_scrub_corrected hm, if_neg hused]
  case clocks =>
    refine ⟨fun hm => ?_, fun ht => ?_, rfl, rfl, fun hm => exec_registerInterfaceFail hm⟩
    · rw [exec_pllSwitch (core := true) hm]
      exact ⟨fun h => congrArg _ (if_neg h), fun h => congrArg _ (if_pos h)⟩
    · rw [exec_pllSwitch (core := false) ht]
      exact ⟨fun h => congrArg _ (if_neg h), fun h => congrArg _ (if_pos h)⟩

end Sys2Proof.Machine
end

section
/-! PROOF. What the messages of the pipeline form from T0 to T3 (R305 to R307): the outcome of each of the five commands, and the statement MessagesFormed. -/

namespace Sys2Proof.Machine

/-- The outcome that a message is formed with stands on every entry of its count in the pipeline. -/
theorem State.formed_result {s : State} {c : BitVec 17} {st : Status} {out : Bytes} {x : PipeMsg}
    (hx : x ∈ (s.formed c st out).sage.pipe) (hc : x.count = c) : x.result = some (st, out) := by
  obtain ⟨m, -, rfl⟩ := List.mem_map.1 hx
  by_cases hm : m.count = c
  · simp [hm]
  · simp [hm] at hc

section
variable {c : BitVec 17} {s : State} {j : Job} {m : PipeMsg} {k : TimeKey} {icv id : Nat}

/-! ## PTP -/

/-- The message of a PTP egress with its times of T0, by the time mode of its entry (R305). -/
def Job.ptpStamped (j : Job) (m : PipeMsg) : Option Bytes :=
  ptpStamp (j.timeByte 1) m.launch16 (timeOf (sub (eTimeParam j.entry) 4 12) / 2 ^ 24) j.message

/-- A correctionField that leaves its range makes the message MALFORMED (R305). -/
theorem exec_ptpEgress_unstamped (h : s.inPipe c 0x01 = some (j, m)) (hb : j.ptpStamped m = none) :
    exec (.ptpEgress c) s = .next (s.formed c .malformed []) := by
  rw [Job.ptpStamped] at hb
  refine (onSome_of_eq h s _).trans ?_
  simp only [hb]

/-- The ICV of an egress message is made over its stamped bytes (R306). -/
theorem exec_ptpEgress_authenticated (h : s.inPipe c 0x01 = some (j, m)) {x : Bytes} (hb : j.ptpStamped m = some x)
    (hk : m.entry = some k) (hf : ptpForm x = .auth icv id) :
    exec (.ptpEgress c) s = .next (s.formed c .ok (putAt x icv (s.icvOf j k x icv))) := by
  rw [Job.ptpStamped] at hb
  refine (onSome_of_eq h s _).trans ?_
  simp only [hb, hk, hf]

/-- An egress message without an entry passes unauthenticated (R306). -/
theorem exec_ptpEgress_plain (h : s.inPipe c 0x01 = some (j, m)) {x : Bytes} (hb : j.ptpStamped m = some x) (hk : m.entry = none) :
    exec (.ptpEgress c) s = .next (s.formed c .ok x) := by
  rw [Job.ptpStamped] at hb
  refine (onSome_of_eq h s _).trans ?_
  simp only [hb, hk]

/-- A verify that fails its comparison ends AUTH_FAIL (R306). -/
theorem exec_ptpIngressVerify_authenticated (h : s.inPipe c 0x02 = some (j, m)) (hk : m.entry = some k)
    (hf : ptpForm j.message = .auth icv id) :
    exec (.ptpIngressVerify c) s =
      .next (s.formed c (if s.icvOf j k j.message icv = sub j.message icv 16 then .ok else .authFail) []) := by
  refine (onSome_of_eq h s _).trans ?_
  simp only [hk, hf, beq_iff_eq]

/-- A message that no entry verifies ends KEY_DENIED (R306). -/
theorem exec_ptpIngressVerify_unkeyed (h : s.inPipe c 0x02 = some (j, m)) (hk : m.entry = none) :
    exec (.ptpIngressVerify c) s = .next (s.formed c .keyDenied []) := by
  refine (onSome_of_eq h s _).trans ?_
  simp only [hk]

/-! ## NTS -/

/-- A client request by the nonce it draws: RESOURCE_BUSY without one, else the stamped request with nonce and tag at its end (R307). -/
theorem exec_ntsClientRequest (h : s.inPipe c 0x03 = some (j, m)) {u : State} {n : Option Bytes} :
    s.nextNonce j.domain = (u, n) → exec (.ntsClientRequest c) s = .next (match n with
      | none => u.formed c .resourceBusy []
      | some n =>
        let b := putAt j.message 40 (ntpTime m.launch16 m.utc)
        u.formed c .ok (b ++ n ++ sivSeal (u.entryKey j m.entry) (requestAad b) n [])) := by
  intro hn
  refine (onSome_of_eq h s _).trans ?_
  cases n <;> simp only [hn, PipeMsg.stampNtp]

/-- A client response by the field that authenticates it, under the entry's second key (R301, R307). -/
theorem exec_ntsClientResponseVerify (h : s.inPipe c 0x04 = some (j, m)) (hk : m.entry = some k) :
    exec (.ntsClientResponseVerify c) s = .next (match ntsAuth j.message with
      | none => s.formed c .authFail []
      | some a => match sivOpen (s.matOf j.domain k.handle2) (j.message.take a.off) a.nonce a.ct with
        | some p => s.formed c .ok p
        | none => s.formed c .authFail (Machine.zeros (a.ct.length - 16))) := by
  refine (onSome_of_eq h s _).trans ?_
  cases ha : ntsAuth j.message with
  | none => simp only [ha]
  | some a =>
    cases ho : sivOpen (s.matOf j.domain k.handle2) (j.message.take a.off) a.nonce a.ct <;>
      simp only [ha, hk, Option.map_some, Option.getD_some, ho]

/-- A server exchange: AUTH_FAIL when the request does not open, RESOURCE_BUSY when either nonce is refused, the cookie's or the response's; else the response under both, with the new cookie sealed in it (R307, Table 9.8, notes/assumptions/39). -/
theorem exec_ntsServerExchange (h : s.inPipe c 0x05 = some (j, m)) :
    exec (.ntsServerExchange c) s = .next (match openRequest (s.entryKey j m.entry) j.exchange.1 with
      | none => s.formed c .authFail []
      | some (c2s, s2c, uid) => match s.nextNonce j.domain with
        | (u, none) => u.formed c .resourceBusy []
        | (u, some n1) => match u.nextNonce j.domain with
          | (v, none) => v.formed c .resourceBusy []
          | (v, some n2) =>
            let cookie := sealCookie ((m.sealer.map (·.keyId)).getD 0) (v.entryKey j m.sealer) n1 c2s s2c
            let received := timeOf (sub (eTimeParam j.entry) 4 12) / 2 ^ 24
            let aad := putAt (putAt j.exchange.2 32 (ntpTime received m.utc)) 40 (ntpTime m.launch16 m.utc) ++ uid
            v.formed c .ok (aad ++ authField n2 (sivSeal s2c aad n2 (beBytes 2 0x0204 ++ beBytes 2 108 ++ cookie)))) := by
  refine (onSome_of_eq h s _).trans ?_
  cases ho : openRequest (s.entryKey j m.entry) j.exchange.1 with
  | none => simp only [ho]
  | some opened =>
    obtain ⟨c2s, s2c, uid⟩ := opened
    rcases hu : s.nextNonce j.domain with ⟨u, n1⟩
    cases n1 with
    | none => simp only [ho, hu]
    | some n1 =>
      rcases hv : u.nextNonce j.domain with ⟨v, n2⟩
      cases n2 <;> simp only [ho, hu, hv, PipeMsg.stampNtp]

end

/-- Settles O34: a PTP message by its stamp, its entry and its form; an NTS message by what opens and by the nonces it draws. -/
theorem messagesFormed : Obligations.MessagesFormed := by
  unfold Obligations.MessagesFormed
  refine ⟨fun c s j m h => ⟨exec_ptpEgress_unstamped h, fun x hb =>
      ⟨fun k icv id => exec_ptpEgress_authenticated h hb, exec_ptpEgress_plain h hb⟩⟩,
    fun c s j m h => ⟨fun k icv id => exec_ptpIngressVerify_authenticated h, exec_ptpIngressVerify_unkeyed h⟩,
    fun c s j m h u n => exec_ntsClientRequest h, fun c s j m k => exec_ntsClientResponseVerify,
    fun c s j m => exec_ntsServerExchange, fun c s st out x => State.formed_result⟩

end Sys2Proof.Machine
end

section
/-! PROOF. Set Features and Migration control (R331, R333, R335, R338, R344, R349, R367): how an admin command ends, what a migration action says of its target, and the statement AdminSettings. -/

namespace Sys2Proof.Machine

/-! ## Ends of admin commands -/

section
variable {s : State} {c : BitVec 17} {j : Job} {i : Instr}

theorem State.adminEnds_fail (h : s.job? 0 c = some j) (hs : j.status = none) {st : Status} {off : Nat}
    (hexec : exec i s = .next (s.adminFail c st off).flow) : s.adminEnds i c st s :=
  ⟨_, hexec, State.adminFail_ends h hs st off⟩

theorem State.adminEnds_refuse (h : s.job? 0 c = some j) (hs : j.status = none) {st : Status}
    (hexec : exec i s = .next (s.adminRefuse c st).flow) : s.adminEnds i c st s :=
  ⟨_, hexec, State.adminRefuse_ends h hs st⟩

/-- A command that has made u of the state ends OK. -/
theorem State.adminEnds_ok {u : State} (h : u.job? 0 c = some j) (hs : j.status = none) {r : Nat}
    (hexec : exec i s = .next (u.adminOk c r).flow) : s.adminEnds i c .ok u :=
  ⟨_, hexec, State.adminOk_ends h hs r⟩

theorem State.onTarget_none (h : s.domain? j.target = none) (f : Domain → State) : s.onTarget j f = s.adminFail j.count .malformed 24 := by
  rw [State.onTarget, h]

theorem State.onTarget_some {x : Domain} (h : s.domain? j.target = some x) (f : Domain → State) : s.onTarget j f = f x := by
  rw [State.onTarget, h]

theorem State.onQueue_noTarget (h : s.domain? j.target = none) (off : Nat) (f : Queue → State) :
    s.onQueue j off f = s.adminFail j.count .malformed 24 := State.onTarget_none h _

/-- The queue that an entry names is one of its target's (R349). -/
theorem State.namedQueue_own {off : Nat} {q : Queue} (hq : s.queue? (fieldLe j.entry off 2) = some q) (hd : q.domain = j.target) :
    s.namedQueue j off = some q := by
  simp [State.namedQueue, hq, hd, Option.filter]

/-- Any other queue, or none, is not (R349). -/
theorem State.namedQueue_foreign {off : Nat} (hq : ∀ q, s.queue? (fieldLe j.entry off 2) = some q → q.domain ≠ j.target) :
    s.namedQueue j off = none := by
  simpa [State.namedQueue, Option.filter_eq_none_iff] using hq

section
variable {x : Domain} (hx : s.domain? j.target = some x) {off : Nat} (f : Queue → State)
include hx

theorem State.onQueue_own {q : Queue} (hq : s.queue? (fieldLe j.entry off 2) = some q) (hd : q.domain = j.target) :
    s.onQueue j off f = f q := by
  rw [State.onQueue, State.onTarget_some hx, State.namedQueue_own hq hd]

theorem State.onQueue_foreign (hq : ∀ q, s.queue? (fieldLe j.entry off 2) = some q → q.domain ≠ j.target) :
    s.onQueue j off f = s.adminFail j.count .malformed off := by
  rw [State.onQueue, State.onTarget_some hx, State.namedQueue_foreign hq]

end

/-! ## Set Features -/

theorem exec_setFeaturesInterruptCoalescing (h : s.adminJob c 0x04 (· == 1) = some j) :
    exec (.setFeaturesInterruptCoalescing c) s = .next (s.onQueue j 32 fun q => (s.addChange (.interrupts q.num
      (BitVec.ofNat 16 (fieldLe j.entry 36 2)) (byteAt j.entry 38) (BitVec.ofNat 16 (fieldLe j.entry 40 2))
      ((byteAt j.entry 39).getLsbD 0))).adminOk c 0).flow := State.adminDo_of h

theorem exec_setFeaturesEventQueue_noTarget (h : s.adminJob c 0x04 (· == 2) = some j) (hx : s.domain? j.target = none) :
    exec (.setFeaturesEventQueue c) s = .next (s.adminFail j.count .malformed 24).flow :=
  (State.adminDo_of h).trans (by rw [State.onTarget_none hx])

section
variable (h : s.adminJob c 0x04 (· == 2) = some j) {x : Domain} (hx : s.domain? j.target = some x)
include h hx

theorem exec_setFeaturesEventQueue_accepted {ch : Change} (hch : eventSettings x.num j.entry 32 true = some ch) :
    exec (.setFeaturesEventQueue c) s = .next ((s.addChange ch).adminOk c 0).flow :=
  (State.adminDo_of h).trans (by rw [State.onTarget_some hx, hch])

theorem exec_setFeaturesEventQueue_malformed (hch : eventSettings x.num j.entry 32 true = none) :
    exec (.setFeaturesEventQueue c) s = .next (s.adminFail c .malformed 32).flow :=
  (State.adminDo_of h).trans (by rw [State.onTarget_some hx, hch])

end

/-! ## Migration control -/

/-- A migration as LOG_START begins it, with its ring (R331). -/
def Migration.begun (m : Migration) (base k : Nat) : Migration :=
  { m with state := .logging, base := base, k := k, head := 0, tail := 0, overflow := false, overflowed := false, paused := false,
           marker := .none, ending := false }

section
variable (h : s.adminJob c 0x04 (· == 3) = some j) {n : Nat} {f : Job → Domain → State}
  (hi : exec i s = s.migrationDo c n f) (hn : (byteAt j.entry 32).toNat = n)
include h hi hn

/-- A migration action whose turn has come does what its target says. -/
theorem exec_migration : exec i s =
    .next (s.onTarget j fun x => if x.num = 0 then s.adminFail c .malformed 24 else f j x).flow := by
  have turn : (s.adminJob c 0x04 (· == 3)).filter (fun j => (byteAt j.entry 32).toNat == n) = some j := by
    simp [h, hn, Option.filter]
  exact hi.trans (onSome_of_eq turn s _)

theorem exec_migration_noTarget (hx : s.domain? j.target = none) : exec i s = .next (s.adminFail j.count .malformed 24).flow := by
  rw [exec_migration h hi hn, State.onTarget_none hx]

variable {x : Domain} (hx : s.domain? j.target = some x)
include hx

/-- Domain 0 is never migrated (R317). -/
theorem exec_migration_domain0 (h0 : x.num = 0) : exec i s = .next (s.adminFail c .malformed 24).flow := by
  rw [exec_migration h hi hn, State.onTarget_some hx, if_pos h0]

theorem exec_migration_target (h0 : x.num ≠ 0) : exec i s = .next (f j x).flow := by
  rw [exec_migration h hi hn, State.onTarget_some hx, if_neg h0]

end

section
variable (h : s.adminJob c 0x04 (· == 3) = some j) {x : Domain} (hx : s.domain? j.target = some x) (h0 : x.num ≠ 0)
include h hx h0

/-- LOG_START by its target, its ring and the target's state, in that order (R331). -/
theorem exec_logStart (ha : (byteAt j.entry 32).toNat = 1) : exec (.logStart c) s = .next (State.flow
    (if s.q1Owner == x.num then s.adminRefuse c .unsupported
    else if fieldLe j.entry 40 8 % 4096 != 0 then s.adminFail c .malformed 40
    else if (byteAt j.entry 48).toNat < 8 || 20 < (byteAt j.entry 48).toNat then s.adminFail c .malformed 48
    else if x.mig.state != .normal then s.adminRefuse c .resourceBusy
    else s.migrationSet c x (x.mig.begun (fieldLe j.entry 40 8) (byteAt j.entry 48).toNat))) := by
  rw [exec_migration_target h rfl ha hx h0]
  rfl

theorem exec_stop (ha : (byteAt j.entry 32).toNat = 2) : exec (.stop c) s = .next (State.flow
    (if x.mig.state == .logging then s.migrationSet c x { x.mig with state := .stopping } else s.adminRefuse c .resourceBusy)) := by
  rw [exec_migration_target h rfl ha hx h0]

theorem exec_logEnd (ha : (byteAt j.entry 32).toNat = 3) : exec (.logEnd c) s = .next (State.flow
    (if x.mig.state == .normal then s.adminRefuse c .resourceBusy else s.migrationSet c x x.mig.logOff)) := by
  rw [exec_migration_target h rfl ha hx h0]

theorem exec_restoreCount_foreign (ha : (byteAt j.entry 32).toNat = 4)
    (hq : ∀ q, s.queue? (fieldLe j.entry 34 2) = some q → q.domain ≠ j.target) :
    exec (.restoreCount c) s = .next (s.adminFail c .malformed 34).flow :=
  (exec_migration_target h rfl ha hx h0).trans (by rw [State.namedQueue_foreign hq])

theorem exec_restoreCount_own (ha : (byteAt j.entry 32).toNat = 4) {q : Queue} (hq : s.queue? (fieldLe j.entry 34 2) = some q)
    (hd : q.domain = j.target) : exec (.restoreCount c) s = .next (State.flow
      (if x.mig.state != .normal || q.head != 0 || q.tail != 0 || q.used then s.adminRefuse c .resourceBusy
      else (s.setQueue q.num (·.restored (BitVec.ofNat 17 (fieldLe j.entry 36 4)))).adminOk c x.mig.stopSeq.toNat)) :=
  (exec_migration_target h rfl ha hx h0).trans (by rw [State.namedQueue_own hq hd])

end

/-! ## The clauses of the statement -/

section
variable (hj : s.job? 0 c = some j) (hp : j.phase = .command) (hs : j.status = none) (hr : s.plansRun = true) (ho : eOp j.entry = 0x04)
include hj hp hs hr ho

/-- A Set Features entry whose turn has come. -/
theorem State.setFeatures_turn {sub : Nat} (hsub : eSub j.entry = sub) : s.adminJob c 0x04 (· == sub) = some j :=
  State.adminJob_of (p := (· == sub)) hj hp hs hr ho (beq_iff_eq.2 hsub)

/-- A target that does not exist is MALFORMED (R344). -/
theorem State.settings_noTarget (hx : s.domain? j.target = none) :
    ∀ p ∈ [(1, 0, Instr.setFeaturesInterruptCoalescing c), (2, 0, .setFeaturesEventQueue c),
      (3, 1, .logStart c), (3, 2, .stop c), (3, 3, .logEnd c), (3, 4, .restoreCount c)], eSub j.entry = p.1 →
      (p.1 = 3 → (byteAt j.entry 32).toNat = p.2.1) → s.adminEnds p.2.2 c .malformed s := by
  have turn {sub : Nat} (hsub : eSub j.entry = sub) := State.setFeatures_turn hj hp hs hr ho hsub
  obtain ⟨-, rfl⟩ := State.job?_num s hj
  intro p hm hsub ha
  simp only [List.mem_cons, List.not_mem_nil, or_false] at hm
  refine State.adminEnds_fail (off := 24) hj hs ?_
  rcases hm with rfl | rfl | rfl | rfl | rfl | rfl
  · rw [exec_setFeaturesInterruptCoalescing (turn hsub), State.onQueue_noTarget hx]
  · exact exec_setFeaturesEventQueue_noTarget (turn hsub) hx
  all_goals exact exec_migration_noTarget (turn hsub) rfl (ha rfl) hx

variable {x : Domain} (hx : s.domain? j.target = some x)
include hx

theorem State.interruptSettings_end (hsub : eSub j.entry = 1) :
    (∀ q, s.queue? (fieldLe j.entry 32 2) = some q → q.domain = j.target → s.adminEnds (.setFeaturesInterruptCoalescing c) c .ok
      (s.addChange (.interrupts q.num (BitVec.ofNat 16 (fieldLe j.entry 36 2)) (byteAt j.entry 38)
        (BitVec.ofNat 16 (fieldLe j.entry 40 2)) ((byteAt j.entry 39).getLsbD 0)))) ∧
    ((∀ q, s.queue? (fieldLe j.entry 32 2) = some q → q.domain ≠ j.target) →
      s.adminEnds (.setFeaturesInterruptCoalescing c) c .malformed s) := by
  have hexec := exec_setFeaturesInterruptCoalescing (State.setFeatures_turn hj hp hs hr ho hsub)
  obtain ⟨-, rfl⟩ := State.job?_num s hj
  refine ⟨fun q hq hd => State.adminEnds_ok (r := 0) hj hs ?_, fun hq => State.adminEnds_fail (off := 32) hj hs ?_⟩
  · rw [hexec, State.onQueue_own hx _ hq hd]
  · rw [hexec, State.onQueue_foreign hx _ hq]

theorem State.logStart_end (h0 : x.num ≠ 0) (hsub : eSub j.entry = 3) (ha : (byteAt j.entry 32).toNat = 1) :
    let base := fieldLe j.entry 40 8
    let k := (byteAt j.entry 48).toNat
    (s.q1Owner = x.num → s.adminEnds (.logStart c) c .unsupported s) ∧
    (s.q1Owner ≠ x.num → (base % 4096 ≠ 0 ∨ k < 8 ∨ 20 < k) → s.adminEnds (.logStart c) c .malformed s) ∧
    (s.q1Owner ≠ x.num → base % 4096 = 0 → 8 ≤ k → k ≤ 20 →
      (x.mig.state ≠ .normal → s.adminEnds (.logStart c) c .resourceBusy s) ∧
      (x.mig.state = .normal → s.adminEnds (.logStart c) c .ok (s.setDomain x.num fun y => { y with mig := x.mig.begun base k }))) := by
  have hexec := exec_logStart (State.setFeatures_turn hj hp hs hr ho hsub) hx h0 ha
  intro base k
  refine ⟨fun hown => State.adminEnds_refuse hj hs ?_, fun hown hbad => ?ring, fun hown hb hlo hhi => ?taken⟩
  · rw [hexec, if_pos (beq_iff_eq.2 hown)]
  case ring =>
    rw [if_neg (by simpa using hown)] at hexec
    by_cases hb : base % 4096 = 0
    · have hk : (k < 8 || 20 < k : Bool) = true := by simpa [hb] using hbad
      exact State.adminEnds_fail hj hs (hexec.trans (by rw [if_neg (by simpa using hb), if_pos hk]))
    · exact State.adminEnds_fail hj hs (hexec.trans (by rw [if_pos (by simpa using hb)]))
  case taken =>
    have hk : ¬(k < 8 || 20 < k : Bool) = true := by simp [hlo, hhi]
    rw [if_neg (by simpa using hown), if_neg (by simpa using hb), if_neg hk] at hexec
    refine ⟨fun hm => ?_, fun hm => ?_⟩
    · rw [if_pos (by simpa using hm)] at hexec
      exact State.adminEnds_refuse hj hs hexec
    · rw [if_neg (by simpa using hm)] at hexec
      exact State.adminEnds_ok hj hs hexec

theorem State.restoreCount_end (h0 : x.num ≠ 0) (hsub : eSub j.entry = 3) (ha : (byteAt j.entry 32).toNat = 4) :
    ((∀ q, s.queue? (fieldLe j.entry 34 2) = some q → q.domain ≠ j.target) → s.adminEnds (.restoreCount c) c .malformed s) ∧
    (∀ q, s.queue? (fieldLe j.entry 34 2) = some q → q.domain = j.target →
      let fresh : Prop := x.mig.state = .normal ∧ q.head = 0 ∧ q.tail = 0 ∧ q.used = false
      (fresh → s.adminEnds (.restoreCount c) c .ok (s.setQueue q.num (·.restored (BitVec.ofNat 17 (fieldLe j.entry 36 4))))) ∧
      (¬fresh → s.adminEnds (.restoreCount c) c .resourceBusy s)) := by
  have turn := State.setFeatures_turn hj hp hs hr ho hsub
  refine ⟨fun hq => State.adminEnds_fail hj hs (exec_restoreCount_foreign turn hx h0 ha hq), fun q hq hd => ?_⟩
  have hexec := exec_restoreCount_own turn hx h0 ha hq hd
  intro fresh
  refine ⟨fun ⟨hm, hh, ht, hu⟩ => ?_, fun hused => State.adminEnds_refuse hj hs (hexec.trans ?_)⟩
  · rw [if_neg (by simp [hm, hh, ht, hu])] at hexec
    exact State.adminEnds_ok hj hs hexec
  · rw [if_pos]
    simpa only [fresh, Classical.not_and_iff_not_or_not, Bool.not_eq_false, Bool.or_eq_true, bne_iff_ne, ne_eq, or_assoc] using hused

end

end

/-- Settles O41: each command ends as its target, its settings and the migration state say, and only an accepted one changes the state. -/
theorem adminSettings : Obligations.AdminSettings := by
  unfold Obligations.AdminSettings
  refine ⟨fun c s j hj hp hs hr ho hx => State.settings_noTarget hj hp hs hr ho hx, fun c s j x hj hp hs hr ho hx => ?_⟩
  have turn {sub : Nat} (hsub : eSub j.entry = sub) := State.setFeatures_turn hj hp hs hr ho hsub
  refine ⟨State.interruptSettings_end hj hp hs hr ho hx, fun hsub => ⟨fun ch hch => ?_, fun hch => ?_⟩, fun hsub h0 => ?domain0,
    fun hsub h0 => State.logStart_end hj hp hs hr ho hx h0 hsub, fun hsub h0 ha => ?stop, fun hsub h0 ha => ?logEnd,
    fun hsub h0 => State.restoreCount_end hj hp hs hr ho hx h0 hsub⟩
  · exact State.adminEnds_ok hj hs (exec_setFeaturesEventQueue_accepted (turn hsub) hx hch)
  · exact State.adminEnds_fail hj hs (exec_setFeaturesEventQueue_malformed (turn hsub) hx hch)
  case domain0 =>
    intro p hm ha
    simp only [List.mem_cons, List.not_mem_nil, or_false] at hm
    refine State.adminEnds_fail (off := 24) hj hs ?_
    rcases hm with rfl | rfl | rfl | rfl <;> exact exec_migration_domain0 (turn hsub) rfl ha hx h0
  case stop =>
    have hexec := exec_stop (turn hsub) hx h0 ha
    refine ⟨fun hm => ?_, fun hm => ?_⟩
    · rw [if_pos (by simpa using hm)] at hexec
      exact State.adminEnds_ok hj hs hexec
    · rw [if_neg (by simpa using hm)] at hexec
      exact State.adminEnds_refuse hj hs hexec
  case logEnd =>
    have hexec := exec_logEnd (turn hsub) hx h0 ha
    refine ⟨fun hm => ?_, fun hm => ?_⟩
    · rw [if_neg (by simpa using hm)] at hexec
      exact State.adminEnds_ok hj hs hexec
    · rw [if_pos (by simpa using hm)] at hexec
      exact State.adminEnds_refuse hj hs hexec

end Sys2Proof.Machine
end

section
/-! PROOF. Domain Create, Resize, Reset and Delete (R317 to R321, R327, R345, R348): what a domain keeps beside the block's own progress, the answers of the commands, and the statement DomainAdmin. -/

namespace Sys2Proof.Machine

/-! ## Domains and the still part of a state -/

/-- A change of a domain is found under its number. -/
theorem State.domain?_setDomain_same {s : State} {d : Nat} {x : Domain} (h : s.domain? d = some x) (f : Domain → Domain)
    (hf : ∀ y, (f y).num = y.num) : (s.setDomain d f).domain? d = some (f x) := by
  have hnum := State.domain?_num s h
  rw [State.domain?_setDomain _ _ _ _ hf, h]
  simp [hnum]

/-- States that differ in work in progress alone have the same domains, but for the deferred-error mark. -/
theorem State.domain?_of_still {s t : State} (h : t.still = s.still) {d : Nat} {x : Domain} (hx : s.domain? d = some x) :
    ∃ y, t.domain? d = some y ∧ y.still = x.still := by
  have hdomains : t.domains.map Domain.still = s.domains.map Domain.still := congrArg State.domains h
  have hfind (u : State) : (u.domains.map Domain.still).find? (·.num == d) = (u.domain? d).map Domain.still := List.find?_map
  have hy : (t.domain? d).map Domain.still = some x.still := by rw [← hfind, hdomains, hfind, hx, Option.map_some]
  exact Option.map_eq_some_iff.1 hy

/-! ## Resets -/

section
variable (s : State)

@[simp] theorem State.adminReset_still (c : BitVec 17) : (s.adminReset c).still = s.still := by
  unfold State.adminReset
  split
  · rfl
  · split
    · exact s.setJob_still ..
    · exact s.endJob_still ..

/-- A triggered reset marks its domain, and a second one is none (R327); beside that it moves work in progress alone. -/
theorem State.triggerReset_still {d : Nat} {x : Domain} (hx : s.domain? d = some x) (hd : d ≠ 0) (t : Nat) :
    (s.triggerReset d t).still = if x.resetting.isSome then s.still else (s.setDomain d fun y => { y with resetting := some t }).still := by
  have hd' : decide (d = 0) = false := decide_eq_false hd
  unfold State.triggerReset
  rw [hx]
  cases hr : x.resetting.isSome
  case true => simp [hr]
  case false =>
    simp only [hr, hd', Bool.or_self, Bool.false_eq_true, if_false]
    exact foldl_keeps State.still _ (fun s j => s.adminReset_still _) _ _

end

/-! ## The commands -/

/-- A domain of these settings can be created under a number: neither a domain nor a record has it, the plan admits the record, and the slots fit (R318). -/
def State.createFits (s : State) (d : Nat) (x : DomainSettings) : Prop :=
  (s.soon.domain? d).isSome = false ∧ (s.thyme.plan.lookup d).isSome = false ∧ s.thyme.staged.any (·.domain == d) = false ∧
    s.wouldAdmit d x.plan = true ∧ s.soon.otherSlots d + x.slotRes ≤ 65536

theorem State.not_createFits_iff {s : State} {d : Nat} {x : DomainSettings} : ¬s.createFits d x ↔
    (((s.soon.domain? d).isSome || (s.thyme.plan.lookup d).isSome || s.thyme.staged.any (·.domain == d))
      || !s.wouldAdmit d x.plan || 65536 < s.soon.otherSlots d + x.slotRes : Bool) = true := by
  simp only [State.createFits, Classical.not_and_iff_not_or_not, Bool.not_eq_false, Bool.not_eq_true, Nat.not_le, Bool.or_eq_true, Bool.not_eq_true',
    decide_eq_true_eq, or_assoc]

/-- A domain can be resized to these settings: the plan admits the record, the slots fit and hold what is pinned, and no context record is saved (R320, R348, Table 10.2). -/
def State.resizeFits (s : State) (d : Nat) (x : DomainSettings) : Prop :=
  s.wouldAdmit d x.plan = true ∧ s.soon.otherSlots d + x.slotRes ≤ 65536 ∧ s.pinnedOf d ≤ x.slotRes ∧ s.holdsSaved d = false

theorem State.not_resizeFits_iff {s : State} {d : Nat} {x : DomainSettings} : ¬s.resizeFits d x ↔
    (!s.wouldAdmit d x.plan || 65536 < s.soon.otherSlots d + x.slotRes || x.slotRes < s.pinnedOf d || s.holdsSaved d : Bool) = true := by
  simp only [State.resizeFits, Classical.not_and_iff_not_or_not, Bool.not_eq_false, Bool.not_eq_true, Nat.not_le, Bool.or_eq_true, Bool.not_eq_true',
    decide_eq_true_eq, or_assoc]

section
variable {s : State} {c : BitVec 17} {j : Job}

section
variable (h : s.adminJob c 0x0C (· == 0) = some j)
include h

/-- Domain 0 is not created (R317). -/
theorem exec_domainCreate_zero (hd : j.target = 0) : exec (.domainCreate c) s = .next (s.adminFail c .malformed 24).flow :=
  (State.adminDo_of h).trans (by rw [if_pos hd])

variable (hd : j.target ≠ 0)
include hd

theorem exec_domainCreate_malformed {off : Nat} (hset : domainSettings j.target j.entry true = .inr off) :
    exec (.domainCreate c) s = .next (s.adminFail c .malformed off).flow :=
  (State.adminDo_of h).trans (by rw [if_neg hd, hset])

/-- Settings in range create the domain when its number is free, the plan admits it and its slots fit (R318). -/
theorem exec_domainCreate_inRange {x : DomainSettings} {ev : EventQ} (hset : domainSettings j.target j.entry true = .inl x)
    (hev : eventQOf x.events s.thyme.tick = some ev) : exec (.domainCreate c) s = .next (State.flow
      (if ((s.soon.domain? j.target).isSome || (s.thyme.plan.lookup j.target).isSome || s.thyme.staged.any (·.domain == j.target))
          || !s.wouldAdmit j.target x.plan || 65536 < s.soon.otherSlots j.target + x.slotRes then s.adminRefuse c .resourceBusy
      else ((s.stageRecord j.target x.plan).addChange (.addDomain (newDomain j.target x) ev)).adminOk c s.effectEpoch)) :=
  (State.adminDo_of h).trans (by simp only [if_neg hd, hset, hev])

end

section
variable (h : s.adminJob c 0x0D (· == 0) = some j)
include h

theorem exec_domainResize_noTarget (hx : s.domain? j.target = none) :
    exec (.domainResize c) s = .next (s.adminFail j.count .malformed 24).flow :=
  (State.adminDo_of h).trans (by rw [State.onTarget_none hx])

variable {y : Domain} (hy : s.domain? j.target = some y)
include hy

theorem exec_domainResize_malformed {off : Nat} (hset : domainSettings y.num j.entry false = .inr off) :
    exec (.domainResize c) s = .next (s.adminFail c .malformed off).flow :=
  (State.adminDo_of h).trans (by simp only [State.onTarget_some hy, hset])

/-- Settings in range resize the domain when the plan admits them and its slots fit, unless it holds a saved context record (R320, R348, Table 10.2). -/
theorem exec_domainResize_inRange {x : DomainSettings} (hset : domainSettings y.num j.entry false = .inl x) :
    exec (.domainResize c) s = .next (State.flow
      (if !s.wouldAdmit y.num x.plan || 65536 < s.soon.otherSlots y.num + x.slotRes || x.slotRes < s.pinnedOf y.num
          || s.holdsSaved y.num then s.adminRefuse c .resourceBusy
      else (((s.stageRecord y.num x.plan).addChange
        (.settings y.num x.nsBase x.nsLog2 x.slotRes x.saveBase x.saveCount)).addChange x.events).adminOk c s.effectEpoch)) :=
  (State.adminDo_of h).trans (by simp only [State.onTarget_some hy, hset])

end

section
variable {del : Bool} (h : s.adminJob c 0x0E (· == if del then 1 else 0) = some j) (hm : j.resetMark = false) {i : Instr}
  (hi : exec i s = s.adminResetDomain c del)
include h hm hi

/-- A Domain Reset whose turn has come does what its target says. -/
theorem exec_domainReset : exec i s = .next (s.onTarget j fun x =>
    if x.num = 0 then s.adminFail c .malformed 24
    else ((s.setJob 0 c fun j => { j with resetMark := true }).setDomain x.num
      fun x => { x with deleting := x.deleting || del }).triggerReset x.num s.thyme.tick).flow := by
  have turn : (s.adminJob c 0x0E (· == if del then 1 else 0)).filter (fun j => !j.resetMark) = some j := by
    simp [h, hm, Option.filter]
  exact hi.trans (onSome_of_eq turn s _)

theorem exec_domainReset_noTarget (hx : s.domain? j.target = none) : exec i s = .next (s.adminFail j.count .malformed 24).flow := by
  rw [exec_domainReset h hm hi, State.onTarget_none hx]

variable {x : Domain} (hx : s.domain? j.target = some x)
include hx

/-- Domain 0 is neither reset nor deleted (R317). -/
theorem exec_domainReset_zero (h0 : x.num = 0) : exec i s = .next (s.adminFail c .malformed 24).flow := by
  rw [exec_domainReset h hm hi, State.onTarget_some hx, if_pos h0]

/-- Any other target is marked, and its reset is triggered in this tick unless one is under way (R321, R327). -/
theorem exec_domainReset_triggers (h0 : x.num ≠ 0) : ∃ t : State, exec i s = .next t ∧
    t.domainNow j.target fun y => y.deleting = (x.deleting || del) ∧
      y.resetting = if x.resetting.isSome = true then x.resetting else some s.thyme.tick := by
  have hnum := State.domain?_num s hx
  rw [exec_domainReset h hm hi, State.onTarget_some hx, if_neg h0, hnum]
  rw [hnum] at h0
  refine ⟨_, rfl, ?_⟩
  have hmarked : ((s.setJob 0 c fun j => { j with resetMark := true }).setDomain j.target
      fun x => { x with deleting := x.deleting || del }).domain? j.target = some { x with deleting := x.deleting || del } :=
    State.domain?_setDomain_same hx _ fun _ => rfl
  have hstill := (State.flow_still _).trans (State.triggerReset_still _ hmarked h0 s.thyme.tick)
  cases hr : x.resetting.isSome
  case true =>
    rw [if_pos hr] at hstill
    obtain ⟨y, hy, hyx⟩ := State.domain?_of_still hstill hmarked
    exact ⟨y, hy, (congrArg Domain.deleting hyx :), (congrArg Domain.resetting hyx :)⟩
  case false =>
    rw [if_neg (by simp [hr])] at hstill
    obtain ⟨y, hy, hyx⟩ := State.domain?_of_still hstill (State.domain?_setDomain_same hmarked _ fun _ => rfl)
    exact ⟨y, hy, (congrArg Domain.deleting hyx :), (congrArg Domain.resetting hyx :)⟩

end

end

/-- Settles O43: each command ends as its target and its settings say; an accepted one leaves its record and its changes staged, and a reset leaves its mark, which the block's own progress keeps. -/
theorem domainAdmin : Obligations.DomainAdmin := by
  unfold Obligations.DomainAdmin
  intro c s j hj hp hs hr e d
  refine ⟨fun ho hsub => ?create, fun ho hsub hx => ?noDomain, fun ho hsub y hy => ?resize, fun ho hm => ?reset⟩
  case create =>
    have turn := State.adminJob_of (p := (· == 0)) hj hp hs hr ho (beq_iff_eq.2 hsub)
    refine ⟨fun hd => State.adminEnds_fail hj hs (exec_domainCreate_zero turn hd),
      fun hd off hset => State.adminEnds_fail hj hs (exec_domainCreate_malformed turn hd hset), fun hd x ev hset hev => ?_⟩
    have hexec := exec_domainCreate_inRange turn hd hset hev
    refine ⟨fun hno => ?_, fun hfree => ?_⟩
    · rw [if_pos (State.not_createFits_iff.1 hno)] at hexec
      exact State.adminEnds_refuse hj hs hexec
    · rw [if_neg fun hc => State.not_createFits_iff.2 hc hfree] at hexec
      exact State.adminEnds_ok hj hs hexec
  case noDomain =>
    have turn := State.adminJob_of (p := (· == 0)) hj hp hs hr ho (beq_iff_eq.2 hsub)
    obtain ⟨-, rfl⟩ := State.job?_num s hj
    exact State.adminEnds_fail hj hs (exec_domainResize_noTarget turn hx)
  case resize =>
    have turn := State.adminJob_of (p := (· == 0)) hj hp hs hr ho (beq_iff_eq.2 hsub)
    refine ⟨fun off hset => State.adminEnds_fail hj hs (exec_domainResize_malformed turn hy hset), fun x hset => ?_⟩
    have hexec := exec_domainResize_inRange turn hy hset
    refine ⟨fun hno => ?_, fun hfits => ?_⟩
    · rw [if_pos (State.not_resizeFits_iff.1 hno)] at hexec
      exact State.adminEnds_refuse hj hs hexec
    · rw [if_neg fun hc => State.not_resizeFits_iff.2 hc hfits] at hexec
      exact State.adminEnds_ok hj hs hexec
  case reset =>
    have ends {i : Instr} {del : Bool} (hsub : eSub j.entry = if del then 1 else 0) (hi : exec i s = s.adminResetDomain c del) :
        (s.domain? d = none → s.adminEnds i c .malformed s) ∧
        (∀ x, s.domain? d = some x → x.num = 0 → s.adminEnds i c .malformed s) ∧
        (∀ x, s.domain? d = some x → x.num ≠ 0 → ∃ t : State, exec i s = .next t ∧
          t.domainNow d (fun y => y.deleting = (x.deleting || del) ∧
            y.resetting = if x.resetting.isSome = true then x.resetting else some s.thyme.tick)) := by
      have turn := State.adminJob_of (p := (· == if del then 1 else 0)) hj hp hs hr ho (beq_iff_eq.2 hsub)
      obtain ⟨-, rfl⟩ := State.job?_num s hj
      exact ⟨fun hx => State.adminEnds_fail hj hs (exec_domainReset_noTarget turn hm hi hx),
        fun x hx h0 => State.adminEnds_fail hj hs (exec_domainReset_zero turn hm hi hx h0),
        fun x hx h0 => exec_domainReset_triggers turn hm hi hx h0⟩
    intro p hmem hsub
    simp only [List.mem_cons, List.not_mem_nil, or_false] at hmem
    rcases hmem with rfl | rfl
    · exact ends (del := false) hsub rfl
    · exact ends (del := true) hsub rfl

end Sys2Proof.Machine
end

section
/-! PROOF. Mailbox pages (R322 to R325, R329, R336): what events and requests leave of the domains, who reaches a field, what each write of a page does, and the statement MailboxRule. -/

namespace Sys2Proof.Machine

/-! ## What leaves the domains alone -/

section
variable (s : State)

@[simp] theorem State.event_domains (d t p a : Nat) (data : Bytes) : (s.event d t p a data).domains = s.domains :=
  congrArg (·.domains) (s.event_unposted ..)

@[simp] theorem State.sendAll_domains : s.sendAll.domains = s.domains := by
  unfold State.sendAll
  split <;> rfl

@[simp] theorem State.issue_domains (op : RurenOp) (cls : TClass) (d a n : Nat) (data : Bytes) (mk : Nat → Purpose) :
    (s.issue op cls d a n data mk).domains = s.domains := by
  unfold State.issue State.issueAt
  exact foldl_keeps State.domains _ (by intros; rfl) _ _

theorem State.domain?_of_domains {s t : State} (h : t.domains = s.domains) (d : Nat) : t.domain? d = s.domain? d := by
  rw [State.domain?, h, State.domain?]

end

/-- A change of a domain on two states with the same domains, which differ in work in progress alone. -/
theorem State.setDomain_still_of {s t : State} (h : t.still = s.still) (hd : t.domains = s.domains) (d : Nat) (f : Domain → Domain) :
    (t.setDomain d f).still = (s.setDomain d f).still := by
  have hput (u : State) : (u.setDomain d f).still = { u.still with domains := (u.setDomain d f).domains.map Domain.still } := rfl
  rw [hput, hput, h, State.setDomain, hd, State.setDomain]

/-- The return of a STOPPED domain reads and writes the domains alone, but for its event (R336). -/
theorem State.reenter_still_of {s t : State} (h : t.still = s.still) (hd : t.domains = s.domains) (d : Nat) :
    (t.reenter d).still = (s.reenter d).still := by
  unfold State.reenter
  rw [State.domain?_of_domains hd]
  split
  · exact h
  · split
    · rw [State.event_still, State.event_still, State.setDomain_still_of h hd]
    · exact h

/-! ## Access to a page -/

section
variable {s : State} {src : From}

/-- A post arrives while the pages are open and nothing holds it (R369, R433). -/
theorem State.mailboxPost_open (ho : s.pagesOpen = true) (hh : s.writeHeld src.domain = false) (f : State → State) :
    s.mailboxPost src f = .next (f s).flow := by
  simp [State.mailboxPost, guarded, done, ho, hh]

/-- Any other write of a page arrives while the pages are open and no event hold keeps it (R369). -/
theorem State.mailboxWrite_open (ho : s.pagesOpen = true) (hh : s.eventHold src.domain = false) (f : State → State) :
    s.mailboxWrite src f = .next (f s).flow := by
  simp [State.mailboxWrite, guarded, done, ho, hh]

/-- A write of a field by any other domain than its writer moves work in progress alone (R322). -/
theorem State.mailboxField_still {page off : Nat} {side : Side} {f : Domain → State → State} (hd : src.domain ≠ side.domain page) :
    (s.mailboxField src page off side f).still = s.still := by
  cases hr : s.resetting src.domain with
  | true => rw [State.mailboxField, if_pos hr]
  | false =>
    rw [State.mailboxField_foreign hr hd]
    exact State.mailboxAccess_still ..

end

/-! ## What a write does -/

/-- A write with the disable bit set (R325). -/
theorem getLsbD_or_two (w : BitVec 32) : (w ||| 2).getLsbD 1 = true ∧ (w ||| 2).getLsbD 0 = w.getLsbD 0 := by
  rw [BitVec.getLsbD_or, BitVec.getLsbD_or]
  exact ⟨Bool.or_true _, Bool.or_false _⟩

/-- A write with the enable bit set (R325). -/
theorem getLsbD_or_one (w : BitVec 32) : (w ||| 1).getLsbD 0 = true ∧ (w ||| 1).getLsbD 1 = w.getLsbD 1 := by
  rw [BitVec.getLsbD_or, BitVec.getLsbD_or]
  exact ⟨Bool.or_true _, Bool.or_false _⟩

section
variable (s : State) (page : Nat) (x : Domain)

/-- A discarded write sets the sender's error bit (R323, R324). -/
theorem State.mailboxError_still (side : Side) (why : Nat) :
    (s.mailboxError page side why).still = (s.setMailbox page (·.setErr side)).still := State.event_still ..

/-- A post of w can be taken: an enabled mailbox, and a length of 1 to 1,024 bytes (R323). -/
def Mailbox.takes (m : Mailbox) (w : BitVec 32) : Prop :=
  m.enabled = true ∧ 1 ≤ (w.setWidth 11 : BitVec 11).toNat ∧ (w.setWidth 11 : BitVec 11).toNat ≤ 1024

/-- The mailbox once a side has posted w (R323). -/
def Mailbox.posted (m : Mailbox) (side : Side) (w : BitVec 32) : Mailbox :=
  m.setFull side true (BitVec.ofNat 16 (w.toNat / 65536)) (w.setWidth 11)

section
variable {x} {side : Side} {w : BitVec 32}

theorem State.post_taken (hg : x.mailbox.takes w) (hf : x.mailbox.full side = false) : (s.post page side w x).still =
    (if side = .tenant then (s.setMailbox page (·.posted side w)).reenter page else s.setMailbox page (·.posted side w)).still := by
  obtain ⟨he, hmin, hmax⟩ := hg
  simp only [State.post, he, hf, hmin, hmax, Bool.not_false, Bool.and_self, decide_true, if_true, beq_iff_eq]
  split
  · exact State.reenter_still_of (State.event_still ..) (State.event_domains ..) page
  · exact State.event_still ..

theorem State.post_discarded (h : ¬(x.mailbox.takes w ∧ x.mailbox.full side = false)) :
    (s.post page side w x).still = (s.setMailbox page (·.setErr side)).still := by
  have hcond : ¬(x.mailbox.enabled && !x.mailbox.full side && 1 ≤ (w.setWidth 11 : BitVec 11).toNat
      && (w.setWidth 11 : BitVec 11).toNat ≤ 1024 : Bool) = true := by
    simpa [Mailbox.takes, and_assoc, and_comm, and_left_comm] using h
  rw [State.post, if_neg hcond, State.mailboxError_still]

end

/-- An ack empties a full area; of an empty one it sets the acker's error bit (R324, R329). -/
theorem State.ack_still (side : Side) : (s.ack page side x).still =
    (if x.mailbox.full side = true then s.setMailbox page fun m => (m.setFull side false 0 0).settled
    else s.setMailbox page (·.setErr side.other)).still := by
  unfold State.ack
  split
  · exact State.event_still ..
  · rw [State.event_still, State.mailboxError_still]

/-- A write of an area lands in one that is not full; of a full one it is discarded (R324). -/
theorem State.areaWrite_still (side : Side) (why : Nat) (f : Mailbox → Mailbox) :
    (if x.mailbox.full side then s.mailboxError page side why else s.setMailbox page f).still =
      (if x.mailbox.full side = true then s.setMailbox page (·.setErr side) else s.setMailbox page f).still := by
  split
  · exact State.mailboxError_still ..
  · rfl

/-- The disable bit alone disables the mailbox, at once when both areas are empty (R325). -/
theorem State.mailboxControl_disable {w : BitVec 32} (h1 : w.getLsbD 1 = true) (h0 : w.getLsbD 0 = false) :
    s.mailboxControl page w x = s.setMailbox page fun m => { m with enabled := false, disabling := m.t2mFull || m.m2tFull } := by
  simp only [State.mailboxControl, h1, h0]
  congr 1
  funext m
  cases ht : m.t2mFull || m.m2tFull <;> simp [Mailbox.settled, ht]

/-- The enable bit alone enables an idle disabled mailbox, and is refused else (R325). -/
theorem State.mailboxControl_enable {w : BitVec 32} (h1 : w.getLsbD 1 = false) (h0 : w.getLsbD 0 = true) :
    s.mailboxControl page w x =
      if x.mailbox.t2mFull = false ∧ x.mailbox.m2tFull = false ∧ x.mailbox.enabled = false ∧ x.mailbox.disabling = false
      then s.setMailbox page fun m => { m with enabled := true } else s.setMailbox page (·.setErr .manager) := by
  simp only [State.mailboxControl, h1, h0, Bool.and_eq_true, Bool.not_eq_true', and_assoc]

/-- Both bits are refused (R325). -/
theorem State.mailboxControl_both {w : BitVec 32} (h1 : w.getLsbD 1 = true) (h0 : w.getLsbD 0 = true) :
    s.mailboxControl page w x = s.setMailbox page (·.setErr .manager) := by
  simp only [State.mailboxControl, h1, h0]

end

/-! ## The commands -/

section
variable {s : State} {src : From} {page : Nat}

/-- A command answers a state with the still part of u. -/
def State.answers (s : State) (i : Instr) (u : State) : Prop := ∃ t : State, exec i s = .next t ∧ t.still = u.still

theorem State.answers_of {i : Instr} {u v : State} (h : exec i s = .next v.flow) (hv : v.still = u.still) : s.answers i u :=
  ⟨_, h, v.flow_still.trans hv⟩

section
variable (hp : s.pagesOpen = true)
include hp

theorem exec_mbT2mDb (hh : s.writeHeld src.domain = false) (w : BitVec 32) : exec (.mbT2mDb src page w) s =
    .next (s.mailboxField src page 0x800 .tenant fun x s => s.post page .tenant w x).flow := by
  change execMbT2mDb src page w s = _
  rw [execMbT2mDb, State.mailboxPost_open hp hh]

theorem exec_mbM2tDb (hh : s.writeHeld src.domain = false) (w : BitVec 32) : exec (.mbM2tDb src page w) s =
    .next (s.mailboxField src page 0x804 .manager fun x s => s.post page .manager w x).flow := by
  change execMbM2tDb src page w s = _
  rw [execMbM2tDb, State.mailboxPost_open hp hh]

variable (hh : s.eventHold src.domain = false)
include hh

theorem exec_t2mAck : exec (.t2mAck src page) s =
    .next (s.mailboxField src page 0x808 .manager fun x s => s.ack page .tenant x).flow := by
  change execT2mAck src page s = _
  rw [execT2mAck, State.mailboxWrite_open hp hh]

theorem exec_m2tAck : exec (.m2tAck src page) s =
    .next (s.mailboxField src page 0x808 .tenant fun x s => s.ack page .manager x).flow := by
  change execM2tAck src page s = _
  rw [execM2tAck, State.mailboxWrite_open hp hh]

theorem exec_mailboxDisable (w : BitVec 32) : exec (.mailboxDisable src page w) s =
    .next (s.mailboxField src page 0x80C .manager fun x s => s.mailboxControl page (w ||| 2) x).flow := by
  change execMailboxDisable src page w s = _
  rw [execMailboxDisable, State.mailboxWrite_open hp hh]

theorem exec_mailboxEnable (w : BitVec 32) : exec (.mailboxEnable src page w) s =
    .next (s.mailboxField src page 0x80C .manager fun x s => s.mailboxControl page (w ||| 1) x).flow := by
  change execMailboxEnable src page w s = _
  rw [execMailboxEnable, State.mailboxWrite_open hp hh]

theorem exec_overflowClear : exec (.overflowClear src page) s = .next (s.mailboxField src page 0x828 .manager fun _ s =>
    if (s.domain? page).any (·.mig.overflow) then
      (s.setDomain page fun x => { x with mig := { x.mig with overflow := false, paused := true } }).addChange (.resumeLog page)
    else s).flow := by
  change execOverflowClear src page s = _
  rw [execOverflowClear, State.mailboxWrite_open hp hh]

section
variable {off : Nat} {data : Bytes}

theorem exec_mailboxAreaWrite_astride (h : areaSide off data.length = none) :
    exec (.mailboxAreaWrite src page off data) s = .next (s.mailboxAccess src page off).flow := by
  change execMailboxAreaWrite src page off data s = _
  rw [execMailboxAreaWrite, State.mailboxWrite_open hp hh, h]

theorem exec_mailboxAreaWrite_side {side : Side} (h : areaSide off data.length = some side) :
    exec (.mailboxAreaWrite src page off data) s = .next (s.mailboxField src page off side fun x s =>
      if x.mailbox.full side then s.mailboxError page side 2
      else s.setMailbox page fun m => { m with area := memWrite m.area off data }).flow := by
  change execMailboxAreaWrite src page off data s = _
  rw [execMailboxAreaWrite, State.mailboxWrite_open hp hh, h]

end

end

end

/-- Settles O39: each write reaches its field from the writer that R322 names, and then does what the lemmas above say; from any other domain it is an event. -/
theorem mailboxRule : Obligations.MailboxRule := by
  unfold Obligations.MailboxRule
  intro src page s x hp hh hw hx tenant manager is m put
  have fromTenant (ht : tenant) {off : Nat} (f : Domain → State → State) : s.mailboxField src page off .tenant f = f x s := by
    obtain ⟨h0, h1, hd, hr⟩ := ht
    exact State.mailboxField_own (hd ▸ hr) hx h0 h1 hd
  have fromManager (hm : manager) {off : Nat} (f : Domain → State → State) : s.mailboxField src page off .manager f = f x s := by
    obtain ⟨h0, h1, hd, hr⟩ := hm
    exact State.mailboxField_own (hd ▸ hr) hx h0 h1 hd
  refine ⟨fun w => ?controls, fun hm => ?t2mAck, fun ht => ?m2tAck, fun off data => ?area, fun hd w => ?notTenant, fun hd w => ?notManager⟩
  case controls =>
    intro tag len good
    refine ⟨fun ht => ⟨fun ⟨hg, hf⟩ => ?_, fun hno => ?_⟩, fun hm => ⟨fun ⟨hg, hf⟩ => ?_, fun hno => ?_⟩, fun hm => ?mbCtl⟩
    · exact State.answers_of (exec_mbT2mDb hp hw w) (by rw [fromTenant ht, State.post_taken s page (side := .tenant) hg hf, if_pos rfl]; rfl)
    · exact State.answers_of (exec_mbT2mDb hp hw w) (by rw [fromTenant ht, State.post_discarded s page (side := .tenant) hno]; rfl)
    · exact State.answers_of (exec_mbM2tDb hp hw w) (by rw [fromManager hm, State.post_taken s page (side := .manager) hg hf, if_neg nofun]; rfl)
    · exact State.answers_of (exec_mbM2tDb hp hw w) (by rw [fromManager hm, State.post_discarded s page (side := .manager) hno]; rfl)
    case mbCtl =>
      obtain ⟨hd1, hd0⟩ := getLsbD_or_two w
      obtain ⟨he0, he1⟩ := getLsbD_or_one w
      refine ⟨fun h0 => ?_, fun h0 => ?_, fun h1 => ?_, fun h1 => ?_⟩
      · exact State.answers_of (exec_mailboxDisable hp hh w) (by rw [fromManager hm, s.mailboxControl_disable page x hd1 (hd0.trans h0)])
      · exact State.answers_of (exec_mailboxDisable hp hh w) (by rw [fromManager hm, s.mailboxControl_both page x hd1 (hd0.trans h0)]; rfl)
      · exact State.answers_of (exec_mailboxEnable hp hh w) (by rw [fromManager hm, s.mailboxControl_enable page x (he1.trans h1) he0]; rfl)
      · exact State.answers_of (exec_mailboxEnable hp hh w) (by rw [fromManager hm, s.mailboxControl_both page x (he1.trans h1) he0]; rfl)
  case t2mAck => exact State.answers_of (exec_t2mAck hp hh) (by rw [fromManager hm, State.ack_still]; rfl)
  case m2tAck => exact State.answers_of (exec_m2tAck hp hh) (by rw [fromTenant ht, State.ack_still]; rfl)
  case area =>
    refine ⟨fun ht hlen => ?_, fun hm hlo hoff hlen => ?_, fun hout => ?_⟩
    · have hside : areaSide off data.length = some .tenant := by rw [areaSide, if_pos hlen]
      exact State.answers_of (exec_mailboxAreaWrite_side hp hh hside) (by rw [fromTenant ht, State.areaWrite_still]; rfl)
    · have hside : areaSide off data.length = some .manager := by
        rw [areaSide, if_neg (by omega), if_pos (by simp [hoff, hlen])]
      exact State.answers_of (exec_mailboxAreaWrite_side hp hh hside) (by rw [fromManager hm, State.areaWrite_still]; rfl)
    · have hside : areaSide off data.length = none := by
        rw [areaSide, if_neg (by omega), if_neg (by simp; omega)]
      exact State.answers_of (exec_mailboxAreaWrite_astride hp hh hside) (State.mailboxAccess_still ..)
  case notTenant =>
    exact ⟨State.answers_of (exec_mbT2mDb hp hw w) (State.mailboxField_still hd), State.answers_of (exec_m2tAck hp hh) (State.mailboxField_still hd)⟩
  case notManager =>
    exact ⟨State.answers_of (exec_mbM2tDb hp hw w) (State.mailboxField_still hd),
      State.answers_of (exec_t2mAck hp hh) (State.mailboxField_still hd),
      State.answers_of (exec_mailboxDisable hp hh w) (State.mailboxField_still hd),
      State.answers_of (exec_mailboxEnable hp hh w) (State.mailboxField_still hd),
      State.answers_of (exec_overflowClear hp hh) (State.mailboxField_still hd)⟩

end Sys2Proof.Machine
end

section
/-! PROOF. The dirty log and the stop of a migrating domain (R333 to R335): what requests keep when they go out, what one record's write does, and the statement MigrationRule. -/

namespace Sys2Proof.Machine

/-! ## Requests that are sent -/

/-- What a request asks for, whichever port and tag it goes out under. -/
def Txn.asked (t : Txn) : Purpose × Nat × RurenOp := (t.purpose, t.iova, t.op)

theorem State.sendOne_asked (s : State) (ts : List Txn) (i : Nat) : (s.sendOne ts i).map Txn.asked = ts.map Txn.asked := by
  unfold State.sendOne
  split
  next => rfl
  next t ht =>
    dsimp only
    split
    · split
      · refine List.ext_getElem? fun k => ?_
        by_cases hk : i = k
        · subst hk
          obtain ⟨hi, rfl⟩ := List.getElem?_eq_some_iff.1 ht
          simp [hi, Txn.asked]
        · simp [List.getElem?_set_ne hk]
      · rfl
    · rfl

theorem State.sendClass_asked (s : State) (cls : TClass) (ts : List Txn) : (s.sendClass cls ts).map Txn.asked = ts.map Txn.asked := by
  unfold State.sendClass
  generalize waitingOf cls ts = places
  induction places generalizing ts with
  | nil => rfl
  | cons i places ih => rw [List.foldl_cons, ih, State.sendOne_asked]

/-- Requests keep what they ask for when they go out. -/
theorem State.sendAll_asked (s : State) : s.sendAll.txns.map Txn.asked = s.txns.map Txn.asked := by
  unfold State.sendAll
  split
  · rfl
  · simp only [State.sendClass_asked]

/-- A transfer that is issued begins with a request at its address. -/
theorem State.issue_asks (s : State) (op : RurenOp) (cls : TClass) (d a n : Nat) (data : Bytes) (mk : Nat → Purpose) :
    (mk 0, a % 2 ^ 52, op) ∈ (s.issue op cls d a n data mk).txns.map Txn.asked := by
  have hfirst : ∃ m rest, split4k (splitFuel n) a n = (a, m) :: rest := by
    unfold splitFuel split4k
    dsimp only
    split
    · exact ⟨_, _, rfl⟩
    · exact ⟨_, _, rfl⟩
  obtain ⟨m, rest, hsplit⟩ := hfirst
  unfold State.issue State.issueAt
  rw [hsplit, List.foldl_cons]
  refine List.foldlRecOn rest _ (motive := fun u : State => (mk 0, a % 2 ^ 52, op) ∈ u.txns.map Txn.asked) ?_ fun u hu x _ => ?_
  · simp [Txn.asked]
  · simp only [List.map_append]
    exact List.mem_append_left _ hu

/-! ## One record of the dirty log -/

section
variable {s : State} {d : Nat} {x : Domain} (hx : s.domain? d = some x) (page run kind : Nat) (p : Purpose)
include hx

/-- A full ring drops the record, and every closed run, with overflow (R334). -/
theorem State.dirtyWrite_full (hf : x.mig.full = true) : (s.dirtyWrite d page run kind p).domain? d =
    some { x with mig := { x.mig with overflow := true, overflowed := true, closed := [] } } := by
  simp only [State.dirtyWrite, hx, hf, if_true]
  rw [State.domain?_of_domains (State.event_domains ..)]
  exact State.domain?_setDomain_same hx _ fun _ => rfl

variable (hf : x.mig.full = false)
include hf

/-- Else the tail advances (R333). -/
theorem State.dirtyWrite_room : (s.dirtyWrite d page run kind p).domain? d =
    some { x with mig := { x.mig with tail := x.mig.tail + 1 } } := by
  simp only [State.dirtyWrite, hx, hf, Bool.false_eq_true, if_false]
  exact State.domain?_setDomain_same ((State.domain?_of_domains (State.issue_domains ..) d).trans hx) _ fun _ => rfl

/-- And a write of the record goes to its place in the ring. -/
theorem State.dirtyWrite_asks : (p, (x.mig.base + 8 * (x.mig.tail.toNat % x.mig.ring)) % 2 ^ 52, RurenOp.write) ∈
    (s.dirtyWrite d page run kind p).txns.map Txn.asked := by
  simp only [State.dirtyWrite, hx, hf, Bool.false_eq_true, if_false]
  exact State.issue_asks ..

end

/-! ## The commands -/

/-- s without the oldest closed run of domain d, rs being those behind it; logging that has been turned off ends with the last one (R333). -/
def State.takeRun (s : State) (d : Nat) (rs : List (Nat × Nat)) : State :=
  s.setDomain d fun x => { x with mig := { x.mig with closed := rs, ending := x.mig.ending && !rs.isEmpty } }

section
variable {s : State} {d : Nat} {x : Domain} (hx : s.domain? d = some x)
include hx

theorem exec_dirtyLogRecordWrite {a n : Nat} {rs : List (Nat × Nat)} (hc : x.mig.closed = (a, n) :: rs) :
    exec (.dirtyLogRecordWrite d) s = .next (State.sendAll
      (if x.mig.overflow then s.takeRun d rs else (s.takeRun d rs).dirtyWrite d a (n - 1) 0 (.dirty d))) := by
  change execDirtyLogRecordWrite d s = _
  simp only [execDirtyLogRecordWrite, guarded, done, hx, Option.any_some, hc, List.isEmpty_cons, Bool.not_false, if_true,
    State.dirtyStep, State.takeRun]

theorem State.takeRun_domain? (rs : List (Nat × Nat)) : (s.takeRun d rs).domain? d =
    some { x with mig := { x.mig with closed := rs, ending := x.mig.ending && !rs.isEmpty } } :=
  State.domain?_setDomain_same hx _ fun _ => rfl

end

/-- A migration that has stopped under a stop_seq (R335). -/
def Migration.stoppedAt (m : Migration) (n : BitVec 32) : Migration := { m with state := .stopped, stopSeq := n, marker := .none }

section
variable {s : State} {d : Nat} {x : Domain} (hx : s.domain? d = some x) (hr : s.stopReady x = true)
include hx hr

theorem exec_stopped : exec (.stopped d) s = match x.mig.marker with
    | .none => .next (s.writeMarker x).sendAll
    | .issued => .next s
    | .confirmed => .next ((s.setDomain d fun y => { y with mig := y.mig.stoppedAt (x.mig.stopSeq + 1) }).event 0 0x1A 1 d (leBytes 1 3 ++ Machine.zeros 3 ++ leBytes 4 (x.mig.stopSeq + 1).toNat)) := by
  have hready : (s.domain? d).filter s.stopReady = some x := by rw [hx, Option.filter, if_pos hr]
  refine (onSome_of_eq hready s _).trans ?_
  cases x.mig.marker <;> rfl

/-- The stop marker waits while overflow is set, and is issued else (R335). -/
theorem State.writeMarker_domain? (hm : x.mig.marker = .none) : (s.writeMarker x).domainNow d fun y =>
    (x.mig.full = true → y.mig.overflow = true ∧ y.mig.marker = .none) ∧ (x.mig.full = false → y.mig.marker = .issued) := by
  have ho : x.mig.overflow = false := by
    simp only [State.stopReady, Bool.and_eq_true, Bool.not_eq_true'] at hr
    exact hr.2
  obtain rfl := State.domain?_num s hx
  unfold State.writeMarker
  dsimp only
  cases hf : x.mig.full with
  | true => exact ⟨_, State.domain?_setDomain_same (State.dirtyWrite_full hx _ _ _ _ hf) _ fun y => by split <;> rfl, by simp [hm]⟩
  | false => exact ⟨_, State.domain?_setDomain_same (State.dirtyWrite_room hx _ _ _ _ hf) _ fun y => by split <;> rfl, by simp [ho]⟩

end

section
variable {s : State} {src : From} {page : Nat} {x : Domain} (hx : s.domain? page = some x)
include hx

/-- The manager's write of overflow to an open page (R334). -/
theorem exec_overflowClear_manager (ho : s.pagesOpen = true) (hh : s.eventHold src.domain = false) (hp : page ≠ 0) (h1 : src.port ≠ .p1)
    (hd : src.domain = 0) (hr : s.resetting 0 = false) : exec (.overflowClear src page) s = .next (State.flow
      (if x.mig.overflow then (s.setDomain page fun y => { y with mig := { y.mig with overflow := false, paused := true } }).addChange
        (.resumeLog page) else s)) := by
  rw [exec_overflowClear ho hh, State.mailboxField_own (side := .manager) (hd ▸ hr) hx hp h1 hd, hx, Option.any_some]

end

/-- From the next boundary the runs of a domain are recorded again (R334). -/
theorem State.resumeLog_domain? {s : State} {d : Nat} {x : Domain} (hx : s.domain? d = some x) :
    (s.applyChange (.resumeLog d)).domain? d = some { x with mig := { x.mig with paused := false } } :=
  State.domain?_setDomain_same hx _ fun _ => rfl

/-- Settles O38: the oldest run leaves the log, with its record where there is room and no overflow; the manager's clear pauses the log until the next boundary; and a STOPPING domain goes on by its marker. -/
theorem migrationRule : Obligations.MigrationRule := by
  unfold Obligations.MigrationRule
  refine ⟨fun d s x a n rs hx hc => ?record, fun src page s x ho hh hp h1 hd hr hx => ?clear, fun d s x hx hr => ?stop⟩
  case record =>
    have htaken := State.takeRun_domain? hx rs
    intro m
    refine ⟨_, exec_dirtyLogRecordWrite hx hc, fun hov => ?_, fun hov hf => ?_, fun hov hf => ⟨?_, ?_⟩⟩
    · rw [if_pos hov]
      exact ⟨_, (State.domain?_of_domains (State.sendAll_domains _) d).trans htaken, rfl⟩
    all_goals rw [if_neg (by simp [hov])]
    · exact ⟨_, (State.domain?_of_domains (State.sendAll_domains _) d).trans (State.dirtyWrite_full htaken _ _ _ _ hf), rfl⟩
    · exact ⟨_, (State.domain?_of_domains (State.sendAll_domains _) d).trans (State.dirtyWrite_room htaken _ _ _ _ hf), rfl⟩
    · have hasks := State.dirtyWrite_asks htaken a (n - 1) 0 (.dirty d) hf
      rw [← State.sendAll_asked] at hasks
      obtain ⟨w, hw, hasked⟩ := List.mem_map.1 hasks
      simp only [Txn.asked, Prod.mk.injEq] at hasked
      exact ⟨w, hw, hasked⟩
  case clear =>
    intro u
    have hpaused : u.domain? page = some { x with mig := { x.mig with overflow := false, paused := true } } :=
      State.domain?_setDomain_same hx _ fun _ => rfl
    exact ⟨exec_overflowClear_manager hx ho hh hp h1 hd hr, _, State.resumeLog_domain? hpaused, rfl⟩
  case stop =>
    have hexec := exec_stopped hx hr
    refine ⟨fun hm => ?_, fun hm => ?_, fun hm => ?_⟩ <;> rw [hm] at hexec
    · obtain ⟨y, hy, hsays⟩ := State.writeMarker_domain? hx hr hm
      exact ⟨_, hexec, y, (State.domain?_of_domains (State.sendAll_domains _) d).trans hy, hsays⟩
    · exact hexec
    · exact ⟨_, hexec, State.event_still ..⟩

end Sys2Proof.Machine
end

section
/-! PROOF. The Deferred Error page (R357, R358): the read that is due, where its name is its own, and a state with two reads of one name, in which the statement AdminReads fails. -/

namespace Sys2Proof.Machine

/-! ## The page that is due -/

/-- Where no other entry has its name, the read of the Deferred Error page that is due takes the load numbers of the part that it asks for, and that part of the page (R357, R358). -/
theorem State.pageDue_deferred {s : State} {c : BitVec 17} {j : Job} (hj : s.job? 0 c = some j) (hp : j.phase = .command)
    (hs : j.status = none) (hsub : eSub j.entry = 1) (hdue : s.admin.page = some c)
    (hone : ∀ k ∈ s.fennel.jobs, k.queue = 0 → k.count = c → k = j) :
    s.pageDue = (State.setJob { s with admin := { s.admin with page := none } } 0 c
      fun k => { k with deliveredIdx := s.deferredRead j }).writePage j (s.deferredPage j.target) := by
  have hfound : (State.job? { s with admin := { s.admin with page := none } } 0 c).filter
      (fun j => j.phase == .command && j.status.isNone) = some j := by
    rw [show State.job? { s with admin := { s.admin with page := none } } 0 c = some j from hj]
    simp [hp, hs, Option.filter]
  have hsame : State.setJob { s with admin := { s.admin with page := none } } 0 c (fun k => { k with deliveredIdx := s.deferredRead k }) =
      State.setJob { s with admin := { s.admin with page := none } } 0 c fun k => { k with deliveredIdx := s.deferredRead j } :=
    State.setJob_congr fun k hk hq hc => by rw [hone k hk hq hc]
  rw [← hsame]
  simp only [State.pageDue, hdue, hfound, hsub, beq_self_eq_true, if_true, State.logPage]
  rfl

/-! ## Two reads of one name -/

/-- A Get Log Page of the Deferred Error page of domain 0, at queue 0 and count 0, that asks for the first len bytes. -/
def deferredReader (len : Byte) : Job :=
  { newJob (newQueue 0 0 .b 4 0x1000 []) 0 (padTo 128 [0, 0, 0, 0, 2, 1, 0, 0, len]) false 0 with phase := .command }

/-- An entry of the Deferred Error log: load 1 of domain 0. -/
def firstLoadError : DefErr := { load := 1, domain := 0, status := .keyDenied, count := 0, tag := 0, handle := 0, kek := 0, tick := 0 }

/-- Two reads of one name in Quiesce, of the bytes that hold the log's one entry and of none; their page is due. -/
def twoReaders : State :=
  { State.reset with
    mode := { State.reset.mode with mode := .quiesce }
    fennel := { Fennel.reset with jobs := [deferredReader 48, deferredReader 0] }
    admin := { Admin.reset with defLog := [firstLoadError], page := some 0 } }

/-- The load numbers that every job has put into its page, in the order of the jobs. -/
def State.pagesGiven (s : State) : List (List Nat) := s.fennel.jobs.map (·.deliveredIdx)

/-- The page that is due gives each of the two what it asks for itself. -/
theorem pageDue_twoReaders : twoReaders.pageDue.pagesGiven = [[1], []] := by decide +kernel

/-- Refutes O40: where two entries have one name, the command gives each the load numbers of its own part of the Deferred Error page, and the statement gives both those of the first. -/
theorem not_adminReads : ¬Obligations.AdminReads := by
  unfold Obligations.AdminReads
  rintro ⟨hreads, -⟩
  obtain ⟨-, -, -, hpage, -⟩ := hreads 0 twoReaders (deferredReader 48) (by decide +kernel) rfl rfl (by decide +kernel)
  obtain ⟨hdeferred, -⟩ := hpage (by decide +kernel) rfl
  have hgiven := congrArg State.pagesGiven (hdeferred (by decide +kernel))
  rw [pageDue_twoReaders] at hgiven
  exact absurd hgiven (by decide +kernel)

end Sys2Proof.Machine
end

section
/-! PROOF. The queue of commands and the state after power-on reset (R439, Table 14.6; notes/assumptions/8): the statements StepRunsFrontCommand and ResetState. -/

namespace Sys2Proof.Machine

theorem State.idle_awake {s : State} (h : s.mode.mode ≠ .deepSleep) : s.idle = s := by simp [State.idle, h]

theorem State.idle_deepSleep {s : State} (h : s.mode.mode = .deepSleep) :
    s.idle = { s with aon := { s.aon with aonCount := s.aon.aonCount + 1 } } := by simp [State.idle, h]

theorem step_front {s : State} {c : Instr} {rest : List Instr} (h : s.pending = c :: rest) : step s = exec c { s with pending := rest } := by
  simp only [step, h]

theorem step_empty {s : State} (h : s.pending = []) : step s = .next s.idle := by simp only [step, h]

/-- Settles O1: by the two forms of the queue. -/
theorem stepRunsFrontCommand : Obligations.StepRunsFrontCommand := by
  unfold Obligations.StepRunsFrontCommand
  exact ⟨fun _ _ _ h => step_front h, fun _ h => ⟨step_empty h, State.idle_awake, State.idle_deepSleep⟩⟩

/-- A key that no entry with another value has finds the default. -/
theorem assocD_eq_default {κ ν : Type} [BEq κ] [LawfulBEq κ] {l : List (κ × ν)} {k : κ} {d : ν} (h : ∀ x ∈ l, x.1 = k → x.2 = d) :
    assocD l k d = d := by
  induction l with
  | nil => rfl
  | cons x l ih =>
    obtain ⟨hx, hl⟩ := List.forall_mem_cons.1 h
    unfold assocD
    rw [List.lookup_cons]
    split
    · rename_i hk
      simpa using hx (beq_iff_eq.1 hk).symm
    · exact ih hl

/-- The registers whose Reset column is not zero: those of the tables by their address, and of the channels the first one of each. -/
theorem regsReset_nonzero : ∀ x ∈ regsReset, x.1 ∈ [0x001C, 0x0120, 0x20010, 0x20014, 0x4000C, 0x70018, 0x7001C, 0x70020, 0x70024, 0x70028,
    0x7002C, 0x70030, 0x70034, 0x70040, 0x70048, 0x80080] ∨ (∃ c < 18, x.1 = 0x70100 + 0x20 * c) ∨ x.2 = 0 := by decide +kernel

/-- Settles O3: each cell by its place in the table of Reset columns, and every other field of reset by its definition. -/
theorem resetState : Obligations.ResetState := by
  unfold Obligations.ResetState
  have hzero (a : Nat) (ha : a ∉ [0x001C, 0x0120, 0x20010, 0x20014, 0x4000C, 0x70018, 0x7001C, 0x70020, 0x70024, 0x70028, 0x7002C, 0x70030,
      0x70034, 0x70040, 0x70048, 0x80080]) (hc : ∀ c < 18, a ≠ 0x70100 + 0x20 * c) : State.reset.reg a = 0 := by
    refine assocD_eq_default fun x hx hxa => ?_
    rcases regsReset_nonzero x hx with hl | ⟨c, hlt, he⟩ | hv
    · exact absurd (hxa ▸ hl) ha
    · exact absurd (hxa ▸ he) (hc c hlt)
    · exact hv
  have hchannels : ∀ c < 18, State.reset.reg (0x70100 + 0x20 * c) = 8 := by decide +kernel
  have hblank (w : Nat) : State.reset.lovage.readMono w = 0 ∧ State.reset.lovage.readVal w = some 0 ∧ State.reset.lovage.valBlank w = true :=
    ⟨(by decide : OtpMono.blank.read = 0), rfl, rfl⟩
  refine ⟨rfl, rfl, rfl, rfl, ?_, ?_, ?_, ?_, ?_, ?_, ?_, ?_, ?_, ?_, ?_, ?_, ?_, ?_, ?_, hchannels, ?_, hzero, rfl, rfl, hblank,
    rfl, rfl, rfl, rfl, rfl, rfl⟩ <;> decide +kernel

end Sys2Proof.Machine
end

section
/-! PROOF. The alarm latch (R413, R417): a write of LC_ALARM that comes as REGISTER_WRITE clears it too, and with it the statement AlarmLatchStays fails. -/

namespace Sys2Proof.Machine

/-- A P3 write of bit 31 of LC_ALARM, with no access before it, clears the latch as ALARM_CLEAR does (R417, R475). -/
theorem exec_registerWrite_clearAlarm {s : State} {src : From} (h : s.unitWrite src = true) (hf : s.dill.rp.held = []) {v : BitVec 64}
    (hv : v.getLsbD 31 = true) : exec (.registerWrite src false 0x80088 4 v) s = .next s.clearAlarm := by
  rw [exec_registerWrite_command h hf (by decide) (by decide +kernel) (by decide) v]
  simp [State.writeCommand, hv]

/-- Alarm, with the latch set and the ports at rest. -/
def latchedAlarm : State :=
  { State.reset with
    mode := { State.reset.mode with mode := .alarm }
    aon := { State.reset.aon with alarmLatched := true } }

/-- Refutes O57: in Alarm, domain 0's REGISTER_WRITE of LC_ALARM with bit 31 set clears the latch, and it is not one of the commands that the statement leaves out. -/
theorem not_alarmLatchStays : ¬Obligations.AlarmLatchStays := by
  unfold Obligations.AlarmLatchStays
  intro hstays
  have hcleared : exec (.registerWrite ⟨.p3, 0, 0⟩ false 0x80088 4 0x80000000) latchedAlarm = .next latchedAlarm.clearAlarm :=
    exec_registerWrite_clearAlarm (by decide +kernel) rfl (by decide)
  obtain ⟨hlatched, -⟩ := hstays _ _ _ hcleared rfl (by simp) (by simp) (by simp)
  exact absurd hlatched (by decide +kernel)

end Sys2Proof.Machine
end

section
/-! PROOF. What the statements about every command speak of (R399, R491, notes/assumptions/11): the queue of commands, OTP's copies, the borrowing credits and the mailbox areas. Most operations of the model leave that part as it was. -/

namespace Sys2Proof.Machine

/-- The area of a domain that a change adds. -/
def Change.area? : Change → Option Memory
  | .addDomain x _ => some x.mailbox.area
  | _ => none

/-- What the invariants of every command speak of. -/
structure Kept where
  pending : List Instr
  mono : List (Nat × OtpMono)
  vals : List (Nat × OtpVal)
  chive : List (Nat × Int)
  dill : List (Nat × Int)
  areas : List Memory
  coming : List Memory

def State.kept (s : State) : Kept :=
  ⟨s.pending, s.lovage.mono, s.lovage.vals, s.thyme.chiveCredit, s.thyme.dillCredit, s.domains.map (·.mailbox.area),
    s.admin.changes.filterMap Change.area?⟩

/-- The kept part of a state written out, field by field; not a rewrite by rfl, so that it may be used under foldl_kept's condition. -/
theorem State.kept_mk (mode : ModeUnit) (regs : RegFile) (aon : Aon) (l : Lovage) (sage : Sage) (t : Thyme) (x : Sorrel) (fennel : Fennel)
    (txns : List Txn) (bay : Bay) (kb : KeyBus) (mint : Mint) (dill : Dill) (basil : Basil) (p : Parsley) (ds : List Domain) (a : Admin)
    (shown : List (Nat × Nat)) (out : List Output) (free : Nat) (pending : List Instr) :
    State.kept ⟨mode, regs, aon, l, sage, t, x, fennel, txns, bay, kb, mint, dill, basil, p, ds, a, shown, out, free, pending⟩ =
      ⟨pending, l.mono, l.vals, t.chiveCredit, t.dillCredit, ds.map (·.mailbox.area), a.changes.filterMap Change.area?⟩ := by rfl

theorem State.kept_eta (s : State) : Kept.mk s.pending s.lovage.mono s.lovage.vals s.thyme.chiveCredit s.thyme.dillCredit
    (s.domains.map (·.mailbox.area)) (s.admin.changes.filterMap Change.area?) = s.kept := by rfl

theorem State.still_kept (s : State) : s.still.kept = s.kept := by
  simp only [State.kept, State.still, List.map_map]
  rfl

theorem State.kept_of_still {s t : State} (h : t.still = s.still) : t.kept = s.kept := by
  rw [← t.still_kept, h, s.still_kept]

theorem State.foldl_kept {α : Type} {f : State → α → State} (h : ∀ s x, (f s x).kept = s.kept) (l : List α) (s : State) :
    (l.foldl f s).kept = s.kept := foldl_keeps State.kept f h l s

theorem State.setDomain_kept (s : State) (d : Nat) (f : Domain → Domain) (h : ∀ x, (f x).mailbox.area = x.mailbox.area) :
    (s.setDomain d f).kept = s.kept := by
  simp only [State.kept, State.setDomain, List.map_map]
  congr 1
  exact List.map_congr_left fun x _ => by simp only [Function.comp]; split <;> simp [h]

theorem State.setLovage_kept (s : State) (f : Lovage → Lovage) (hm : ∀ l, (f l).mono = l.mono) (hv : ∀ l, (f l).vals = l.vals) :
    (s.setLovage f).kept = s.kept := by
  simp only [State.kept, State.setLovage, hm, hv]

theorem State.addChange_kept (s : State) (x : Change) (h : x.area? = none) : (s.addChange x).kept = s.kept := by
  simp [State.kept, State.addChange, h]

theorem Change.area?_of_isDebug {c : Change} (h : c.isDebug = true) : c.area? = none := by
  cases c with
  | debug _ _ => rfl
  | _ => cases h

theorem State.filterChanges_kept (s : State) (p : Change → Bool) (h : ∀ c, p c = false → c.area? = none) :
    State.kept { s with admin := { s.admin with changes := s.admin.changes.filter p } } = s.kept := by
  simp only [State.kept, List.filterMap_filter]
  congr 2
  funext c
  cases hc : p c <;> simp [h, hc]

/-! ## Ops -/

theorem State.setReg_kept (s : State) (a : Nat) (v : BitVec 64) : (s.setReg a v).kept = s.kept := by
  simp only [State.setReg, State.kept_mk, State.kept_eta]

theorem State.setQueue_kept (s : State) (q : Nat) (f : Queue → Queue) : (s.setQueue q f).kept = s.kept := by
  simp only [State.setQueue, State.kept_mk, State.kept_eta]

theorem State.setJob_kept (s : State) (q : Nat) (c : BitVec 17) (f : Job → Job) : (s.setJob q c f).kept = s.kept := by
  simp only [State.setJob, State.kept_mk, State.kept_eta]

theorem State.addJob_kept (s : State) (j : Job) : (s.addJob j).kept = s.kept := State.kept_of_still (State.addJob_still ..)

theorem State.dropJob_kept (s : State) (q : Nat) (c : BitVec 17) : (s.dropJob q c).kept = s.kept := State.kept_of_still (State.dropJob_still ..)

theorem State.setEvq_kept (s : State) (d : Nat) (f : EventQ → EventQ) : (s.setEvq d f).kept = s.kept := by
  simp only [State.setEvq, State.kept_mk, State.kept_eta]

theorem State.emit_kept (s : State) (o : Output) : (s.emit o).kept = s.kept := State.kept_of_still (State.emit_still ..)

theorem State.irq_kept (s : State) (d : Nat) (v : BitVec 16) : (s.irq d v).kept = s.kept := by
  unfold State.irq
  split <;> simp only [State.emit_kept]

theorem State.useFree_kept (s : State) (n : Nat) : (s.useFree n).kept = s.kept := by
  simp only [State.useFree, State.kept_mk, State.kept_eta]

theorem State.endRecovery_kept (s : State) (d : Nat) : (s.endRecovery d).kept = s.kept := State.kept_of_still (State.endRecovery_still ..)

theorem State.checkHold_kept (s : State) (d : Nat) : (s.checkHold d).kept = s.kept := State.kept_of_still (State.checkHold_still ..)

theorem State.releaseHolds_kept (s : State) : s.releaseHolds.kept = s.kept := State.kept_of_still (State.releaseHolds_still ..)

theorem State.postEvent_kept (s : State) (d : Nat) (e : Event) : (s.postEvent d e).kept = s.kept := State.kept_of_still (State.postEvent_still ..)

theorem State.event_kept (s : State) (d typ prio arg : Nat) (data : Bytes) : (s.event d typ prio arg data).kept = s.kept :=
  State.kept_of_still (State.event_still ..)

theorem State.eventDM_kept (s : State) (d typ prio arg : Nat) (data : Bytes) : (s.eventDM d typ prio arg data).kept = s.kept :=
  State.kept_of_still (State.eventDM_still ..)

theorem State.eventO_kept (s : State) (typ prio arg : Nat) (data : Bytes) : (s.eventO typ prio arg data).kept = s.kept :=
  State.kept_of_still (State.eventO_still ..)

theorem State.setPort_kept (s : State) (p : Nat) (f : PortState → PortState) : (s.setPort p f).kept = s.kept := by
  simp only [State.setPort, State.kept_mk, State.kept_eta]

theorem State.sendAll_kept (s : State) : s.sendAll.kept = s.kept := State.kept_of_still (State.sendAll_still ..)

theorem State.issueAt_kept (pos : Nat) (s : State) (op : RurenOp) (cls : TClass) (domain iova len : Nat) (data : Bytes) (mk : Nat → Purpose) :
    (State.issueAt pos s op cls domain iova len data mk).kept = s.kept := by
  simp only [State.issueAt, State.kept_mk, State.kept_eta, State.foldl_kept, implies_true]

theorem State.lastTxn_kept (s : State) (f : Txn → Txn) : (s.lastTxn f).kept = s.kept := by
  simp only [State.lastTxn, State.kept_mk, State.kept_eta]

theorem State.issue_kept (s : State) (op : RurenOp) (cls : TClass) (domain iova len : Nat) (data : Bytes) (mk : Nat → Purpose) :
    (s.issue op cls domain iova len data mk).kept = s.kept := by
  simp only [State.issue, State.issueAt_kept]

theorem State.endTxn_kept (s : State) (port tag : Nat) : (s.endTxn port tag).kept = s.kept := State.kept_of_still (State.endTxn_still ..)

theorem State.killTxns_kept (s : State) (p : Txn → Bool) : (s.killTxns p).kept = s.kept := by
  simp only [State.killTxns, State.kept_mk, State.kept_eta]

theorem State.cutWrites_kept (s : State) (p : Txn → Bool) : (s.cutWrites p).kept = s.kept := by
  unfold State.cutWrites
  refine State.foldl_kept (fun u t => ?_) _ _
  split
  · simp only [apply_ite State.kept, State.useFree_kept, State.emit_kept, ite_self]
  · rfl

theorem State.setLine_kept (s : State) (d n : Nat) (f : WbLine → WbLine) : (s.setLine d n f).kept = s.kept := by
  simp only [State.setLine, State.kept_mk, State.kept_eta]

theorem State.holdAccess_kept (s : State) (w : PortAccess) : (s.holdAccess w).kept = s.kept := by
  simp only [State.holdAccess, State.kept_mk, State.kept_eta]

theorem State.inTurn_kept (s : State) (w : PortAccess) (f : State → State) (h : (f s).kept = s.kept) : (s.inTurn w f).kept = s.kept := by
  simp only [State.inTurn, apply_ite State.kept, State.holdAccess_kept, h, ite_self]

/-! ## OtpRun -/

theorem State.otpStart_kept (s : State) (k : OtpKind) (steps : List OtpStep) : (s.otpStart k steps).kept = s.kept := by
  simp only [State.otpStart, implies_true, State.setLovage_kept]

theorem State.ucodeEvent_kept (s : State) (bankB : Bool) (code : Nat) (extra : Bytes) : (s.ucodeEvent bankB code extra).kept = s.kept :=
  State.kept_of_still (State.ucodeEvent_still ..)

theorem State.dropOldBanks_kept (s : State) : s.dropOldBanks.kept = s.kept := by
  unfold State.dropOldBanks
  dsimp only
  split <;> simp only [State.kept_mk, State.kept_eta]

theorem State.commitStart_kept (s : State) (bankB : Bool) : (s.commitStart bankB).kept = s.kept := by
  unfold State.commitStart
  dsimp only
  repeat' split
  all_goals simp only [State.ucodeEvent_kept, State.otpStart_kept]

theorem State.confirmStart_kept (s : State) : s.confirmStart.kept = s.kept := by
  unfold State.confirmStart
  repeat' split
  all_goals simp only [implies_true, State.otpStart_kept, State.setLovage_kept]

/-! ## Keys -/

theorem State.setSlot_kept (s : State) (d h : Nat) (f : KeySlot → KeySlot) : (s.setSlot d h f).kept = s.kept := by
  simp only [State.setSlot, State.kept_mk, State.kept_eta]

theorem State.dropSlot_kept (s : State) (d h : Nat) : (s.dropSlot d h).kept = s.kept := State.kept_of_still (State.dropSlot_still ..)

theorem State.kbRaise_kept (s : State) (kind : KbKind) (d h : Nat) (dest : KbFor) (avoid : Option Nat) (errors : Nat) :
    (s.kbRaise kind d h dest avoid errors).kept = s.kept :=
  State.kept_of_still (State.kbRaise_still ..)

theorem State.kbFrame_kept (s : State) (l : Nat) : (s.kbFrame l).kept = s.kept := State.kept_of_still (State.kbFrame_still ..)

theorem State.kbSend_kept (s : State) : s.kbSend.kept = s.kept := State.kept_of_still (State.kbSend_still ..)

theorem State.kbEnd_kept (s : State) (n : Nat) : (s.kbEnd n).kept = s.kept := State.kept_of_still (State.kbEnd_still ..)

theorem State.startLoad_kept (s : State) (d h : Nat) : (s.startLoad d h).kept = s.kept := State.kept_of_still (State.startLoad_still ..)

theorem State.touchSlot_kept (s : State) (d h : Nat) : (s.touchSlot d h).kept = s.kept := State.kept_of_still (State.touchSlot_still ..)

theorem State.askUses_kept (s : State) (d h : Nat) : (s.askUses d h).kept = s.kept := by
  unfold State.askUses
  repeat' split
  all_goals simp only [State.setSlot_kept, State.kbRaise_kept]

theorem State.checkSlot_kept (s : State) (d h : Nat) (n : Bool) : (s.checkSlot d h n).1.kept = s.kept := State.kept_of_still (s.checkSlot_still d h n)

theorem State.fillSlot_kept (s : State) (d h : Nat) (r : KeyRec) : (s.fillSlot d h r).kept = s.kept := by
  unfold State.fillSlot
  dsimp only
  split <;> simp only [State.setSlot_kept, State.event_kept, State.askUses_kept]

theorem State.charge_kept (s : State) (d h : Nat) : (s.charge d h).kept = s.kept := by
  simp only [State.charge, State.setSlot_kept, State.askUses_kept]

theorem State.sweepRevoked_kept (s : State) : s.sweepRevoked.kept = s.kept := State.kept_of_still (State.sweepRevoked_still ..)

/-! ## Contexts -/

theorem State.setCtx_kept (s : State) (q : Nat) (c : BitVec 17) (older : Bool) (f : Ctx → Ctx) : (s.setCtx q c older f).kept = s.kept := by
  simp only [State.setCtx, State.kept_mk, State.kept_eta]

theorem State.saveCtx_kept (s : State) (c : Ctx) : (s.saveCtx c).kept = s.kept := State.kept_of_still (State.saveCtx_still ..)

theorem State.dropCtxs_kept (s : State) (q : Nat) (c : BitVec 17) : (s.dropCtxs q c).kept = s.kept := State.kept_of_still (State.dropCtxs_still ..)

theorem State.startRestore_kept (s : State) (q : Nat) (c : BitVec 17) : (s.startRestore q c).kept = s.kept :=
  State.kept_of_still (State.startRestore_still ..)

/-! ## Journal -/

theorem State.presentJournal_kept (s : State) : s.presentJournal.kept = s.kept := by
  unfold State.presentJournal
  split <;> simp only [State.kept_mk, State.kept_eta]

theorem State.setMint_kept (s : State) (f : Mint → Mint) : (s.setMint f).kept = s.kept := by
  simp only [State.setMint, State.kept_mk, State.kept_eta]

theorem State.jWrite_kept (s : State) (t : JTarget) (off : Nat) (data : Bytes) : (s.jWrite t off data).kept = s.kept :=
  State.kept_of_still (State.jWrite_still ..)

theorem State.setCtrRec_kept (s : State) (d h : Nat) (f : CtrRec → CtrRec) : (s.setCtrRec d h f).kept = s.kept := by
  simp only [State.setCtrRec, State.setMint_kept]

theorem State.pumpAppends_kept (s : State) : s.pumpAppends.kept = s.kept := State.kept_of_still (State.pumpAppends_still ..)

theorem State.startCompaction_kept (s : State) : s.startCompaction.kept = s.kept := State.kept_of_still (State.startCompaction_still ..)

theorem State.stuckEvent_kept (s : State) : s.stuckEvent.kept = s.kept := State.kept_of_still (State.stuckEvent_still ..)

theorem State.reserve_kept (s : State) (d h : Nat) : (s.reserve d h).kept = s.kept := State.kept_of_still (State.reserve_still ..)

theorem State.mintOnLoad_kept (s : State) (d h : Nat) : (s.mintOnLoad d h).kept = s.kept := by
  unfold State.mintOnLoad
  repeat' split
  all_goals simp only [State.setSlot_kept, State.reserve_kept]

theorem State.newRecord_kept (s : State) (d h ceiling : Nat) (removal : Bool) : (s.newRecord d h ceiling removal).kept = s.kept :=
  State.kept_of_still (State.newRecord_still ..)

theorem State.confirmAppend_kept (s : State) (a : Append) : (s.confirmAppend a).kept = s.kept := by
  unfold State.confirmAppend
  dsimp only
  repeat' split
  all_goals simp only [State.setMint_kept, State.setCtrRec_kept, State.setSlot_kept, State.startCompaction_kept, State.stuckEvent_kept,
    State.pumpAppends_kept]

theorem State.appendToNew_kept (s : State) : s.appendToNew.kept = s.kept := by
  unfold State.appendToNew
  split <;> simp only [State.jWrite_kept, State.setMint_kept]

theorem State.appendReturned_kept (s : State) : s.appendReturned.kept = s.kept := by
  unfold State.appendReturned
  repeat' split
  all_goals simp only [State.setMint_kept, State.appendToNew_kept, State.confirmAppend_kept]

theorem State.writeTable_kept (s : State) (t : JTarget) (table : Bytes) : (s.writeTable t table).kept = s.kept := by
  simp only [State.writeTable, State.foldl_kept, implies_true, State.jWrite_kept]

theorem State.compactNext_kept (s : State) (c : Compaction) : (s.compactNext c).kept = s.kept := by
  unfold State.compactNext
  dsimp only
  repeat' split
  all_goals simp only [State.setMint_kept, State.kbRaise_kept, State.jWrite_kept, State.appendToNew_kept, State.writeTable_kept]

theorem State.jRead_kept (s : State) (t : JTarget) (off len : Nat) : (s.jRead t off len).kept = s.kept := by
  simp only [State.jRead, State.kbRaise_kept]

theorem State.reread_kept (s : State) (t : JTarget) (off : Nat) (data : Bytes) : (s.reread t off data).kept = s.kept := by
  unfold State.reread
  dsimp only
  repeat' split
  all_goals simp only [State.setCtrRec_kept, State.mintOnLoad_kept]

theorem State.recoveryDone_kept (s : State) : s.recoveryDone.kept = s.kept := by
  unfold State.recoveryDone
  dsimp only
  split <;> simp only [State.kept_mk, State.kept_eta, State.setMint_kept, State.startCompaction_kept, State.stuckEvent_kept]

theorem State.scanOn_kept (s : State) (b : Bool) (n : Nat) : (s.scanOn b n).kept = s.kept := by
  simp only [State.scanOn, State.setMint_kept, State.jRead_kept]

theorem State.recoverMap_kept (s : State) : s.recoverMap.kept = s.kept := by
  unfold State.recoverMap
  dsimp only
  split <;> simp only [State.recoveryDone_kept, State.setMint_kept, State.kbRaise_kept]

theorem State.recoverTidy_kept (s : State) : s.recoverTidy.kept = s.kept := by
  unfold State.recoverTidy
  dsimp only
  repeat' split
  all_goals simp only [State.setMint_kept, State.kbRaise_kept, State.scanOn_kept, State.recoverMap_kept]

theorem State.journalLost_kept (s : State) : s.journalLost.kept = s.kept := by
  simp only [State.journalLost, State.setMint_kept, State.event_kept, State.recoveryDone_kept]

theorem State.recoverNone_kept (s : State) : s.recoverNone.kept = s.kept := by
  unfold State.recoverNone
  dsimp only
  repeat' split
  all_goals simp only [State.kept_mk, State.kept_eta, State.journalLost_kept, State.scanOn_kept]

theorem State.recoverNext_kept (s : State) : s.recoverNext.kept = s.kept := by
  unfold State.recoverNext
  dsimp only
  repeat' split
  all_goals simp only [State.recoverNone_kept, State.setMint_kept, State.jRead_kept, State.recoverTidy_kept]

theorem State.recoverBytes_kept (s : State) (t : JTarget) (off : Nat) (data : Bytes) : (s.recoverBytes t off data).kept = s.kept := by
  unfold State.recoverBytes
  split <;> simp only [State.setMint_kept, State.recoverNext_kept]

theorem State.recoverStart_kept (s : State) : s.recoverStart.kept = s.kept := by
  unfold State.recoverStart
  split <;> simp only [State.recoveryDone_kept, State.setMint_kept, State.jRead_kept]

theorem State.formatJournal_kept (s : State) : s.formatJournal.kept = s.kept := by
  simp only [State.formatJournal, State.kept_mk, State.kept_eta, State.setMint_kept, State.jWrite_kept, State.kbRaise_kept]

theorem State.recoverErased_kept (s : State) (t : JTarget) : (s.recoverErased t).kept = s.kept := by
  unfold State.recoverErased
  split <;> simp only [State.jWrite_kept, State.recoverMap_kept]

/-! ## Jobs -/

theorem State.readBeat_kept (s : State) (x : Queue) (cs : List (BitVec 17)) (prefetch again : Bool) :
    (s.readBeat x cs prefetch again).kept = s.kept :=
  State.kept_of_still (State.readBeat_still ..)

theorem State.readEntries_kept (s : State) (x : Queue) (cs : List (BitVec 17)) (prefetch : Bool) : (s.readEntries x cs prefetch).kept = s.kept :=
  State.kept_of_still (State.readEntries_still ..)

theorem State.fetchQueue_kept (s : State) (q : Nat) : (s.fetchQueue q).kept = s.kept := State.kept_of_still (State.fetchQueue_still ..)

theorem State.writeDstAt_kept (pos : Nat) (s : State) (j : Job) (cls : TClass) (off : Nat) (data : Bytes) (mk : Nat → Purpose) :
    (State.writeDstAt pos s j cls off data mk).kept = s.kept := by
  simp only [State.writeDstAt, State.foldl_kept, implies_true, State.issueAt_kept]

theorem State.writeDst_kept (s : State) (j : Job) (cls : TClass) (off : Nat) (data : Bytes) (mk : Nat → Purpose) :
    (s.writeDst j cls off data mk).kept = s.kept := by
  simp only [State.writeDst, State.writeDstAt_kept]

theorem State.issueCompletions_kept (s : State) (q : Nat) : (s.issueCompletions q).kept = s.kept :=
  State.kept_of_still (State.issueCompletions_still ..)

theorem State.clearLog_kept (s : State) (j : Job) : (s.clearLog j).kept = s.kept := State.kept_of_still (State.clearLog_still ..)

theorem State.settle_kept (s : State) (q : Nat) (c : BitVec 17) : (s.settle q c).kept = s.kept := State.kept_of_still (State.settle_still ..)

theorem State.dropOuts_kept (s : State) (q : Nat) (c : BitVec 17) : (s.dropOuts q c).kept = s.kept := State.kept_of_still (State.dropOuts_still ..)

theorem State.dropIssues_kept (s : State) (q : Nat) (c : BitVec 17) : (s.dropIssues q c).kept = s.kept :=
  State.kept_of_still (State.dropIssues_still ..)

theorem State.endJobZ_kept (s : State) (q : Nat) (c : BitVec 17) (st : Status) (zeroTo : Nat) : (s.endJobZ q c st zeroTo).kept = s.kept :=
  State.kept_of_still (State.endJobZ_still ..)

theorem State.endJob_kept (s : State) (q : Nat) (c : BitVec 17) (st : Status) : (s.endJob q c st).kept = s.kept :=
  State.kept_of_still (State.endJob_still ..)

theorem State.checkKeys_kept (s : State) (d op : Nat) (ks : List JobKey) (r : KeyStep) : (State.checkKeys d op ks s r).1.kept = s.kept :=
  State.kept_of_still (s.checkKeys_still d op ks r)

theorem State.askLast_kept (s : State) (q : Nat) (c : BitVec 17) : (s.askLast q c).kept = s.kept := State.kept_of_still (State.askLast_still ..)

theorem State.takeCtxs_kept (s : State) (j : Job) : (s.takeCtxs j).1.kept = s.kept := State.kept_of_still (s.takeCtxs_still j)

theorem State.readSource_kept (s : State) (j : Job) (i : Nat) (r : Nat × Nat) : (s.readSource j i r).kept = s.kept :=
  State.kept_of_still (State.readSource_still ..)

theorem State.drawIv_kept (s : State) (q : Nat) (c : BitVec 17) : (s.drawIv q c).kept = s.kept := State.kept_of_still (State.drawIv_still ..)

theorem State.sliceStaged_kept (s : State) (q : Nat) (c : BitVec 17) (i : Nat) : (s.sliceStaged q c i).kept = s.kept :=
  State.kept_of_still (State.sliceStaged_still ..)

theorem State.stageJob_kept (s : State) (q : Nat) (c : BitVec 17) (n : Nat) : (State.stageJob q c n s).kept = s.kept :=
  State.kept_of_still (s.stageJob_still q c n)

theorem State.askRecord_kept (s : State) (q : Nat) (c : BitVec 17) : (s.askRecord q c).kept = s.kept := State.kept_of_still (State.askRecord_still ..)

theorem State.stageBasil_kept (s : State) (q : Nat) (c : BitVec 17) : (s.stageBasil q c).kept = s.kept :=
  State.kept_of_still (State.stageBasil_still ..)

theorem State.stageAll_kept (s : State) : s.stageAll.kept = s.kept := State.kept_of_still (State.stageAll_still ..)

theorem State.enterRun_kept (s : State) (q : Nat) (c : BitVec 17) : (s.enterRun q c).kept = s.kept := State.kept_of_still (State.enterRun_still ..)

theorem State.keyProgress_kept (s : State) (q : Nat) (c : BitVec 17) : (s.keyProgress q c).kept = s.kept :=
  State.kept_of_still (State.keyProgress_still ..)

theorem State.retryCtx_kept (s : State) (j : Job) : (s.retryCtx j).kept = s.kept := by
  unfold State.retryCtx
  have h := s.takeCtxs_kept j
  generalize s.takeCtxs j = p at h ⊢
  obtain ⟨u, g⟩ := p
  cases g <;> simp only [apply_ite State.kept, State.setJob_kept, State.endJob_kept, h, ite_self]

theorem State.retryCtxs_kept (s : State) : s.retryCtxs.kept = s.kept := by
  simp only [State.retryCtxs, State.foldl_kept, implies_true, State.retryCtx_kept]

theorem State.takeLast_kept (s : State) (j : Job) : (s.takeLast j).kept = s.kept := by
  unfold State.takeLast
  split <;> simp only [State.keyProgress_kept, State.checkKeys_kept, State.retryCtx_kept, State.stageJob_kept, State.drawIv_kept]

theorem State.retryAsked_kept (s : State) : s.retryAsked.kept = s.kept := by
  simp only [State.retryAsked, State.kept_mk, State.kept_eta, State.foldl_kept, implies_true, State.takeLast_kept]

theorem State.enterKeys_kept (s : State) (q : Nat) (c : BitVec 17) : (s.enterKeys q c).kept = s.kept := State.kept_of_still (State.enterKeys_still ..)

theorem State.readTable_kept (s : State) (j : Job) (dst : Bool) : (s.readTable j dst).kept = s.kept := State.kept_of_still (State.readTable_still ..)

theorem State.enterFrags_kept (s : State) (q : Nat) (c : BitVec 17) : (s.enterFrags q c).kept = s.kept :=
  State.kept_of_still (State.enterFrags_still ..)

theorem State.curveBlock_kept (s : State) (j : Job) : (s.curveBlock j).kept = s.kept := by
  unfold State.curveBlock
  split <;> simp only [State.enterKeys_kept, State.endJob_kept]

theorem State.abortOut_kept (s : State) (q : Nat) (c : BitVec 17) : (s.abortOut q c).kept = s.kept := by
  unfold State.abortOut
  split <;> simp only [State.setJob_kept, State.writeDst_kept, State.settle_kept]

theorem State.abortTable_kept (s : State) (j : Job) (data : Bytes) : (s.abortTable j data).kept = s.kept := by
  unfold State.abortTable
  dsimp only
  split <;> simp only [State.setJob_kept, State.settle_kept, State.readTable_kept, State.abortOut_kept]

theorem State.tableUnsound_kept (s : State) (j : Job) (dst : Bool) : (s.tableUnsound j dst).kept = s.kept := by
  unfold State.tableUnsound
  split <;> simp only [State.endJob_kept, State.setJob_kept, State.readTable_kept, State.lastTxn_kept]

theorem State.tableBytes_kept (s : State) (q : Nat) (c : BitVec 17) (dst : Bool) (data : Bytes) (port : Nat) :
    (s.tableBytes q c dst data port).kept = s.kept := by
  unfold State.tableBytes
  dsimp only
  repeat' split
  all_goals simp only [State.abortTable_kept, State.tableUnsound_kept, State.setJob_kept, State.endJob_kept, State.readTable_kept,
    State.enterFrags_kept]

theorem State.auxBytes_kept (s : State) (q : Nat) (c : BitVec 17) (data : Bytes) : (s.auxBytes q c data).kept = s.kept := by
  unfold State.auxBytes
  dsimp only
  repeat' split
  all_goals simp only [State.setJob_kept, State.endJob_kept, State.enterFrags_kept]

theorem State.startJob_kept (s : State) (x : Queue) (c : BitVec 17) (link : Nat) : (s.startJob x c link).kept = s.kept :=
  State.kept_of_still (State.startJob_still ..)

theorem State.copyUnsound_kept (s : State) (x : Queue) (e : EntryCopy) : (s.copyUnsound x e).kept = s.kept := by
  simp only [State.copyUnsound, State.setQueue_kept, State.readBeat_kept, State.lastTxn_kept]

theorem State.pumpAll_kept (s : State) : s.pumpAll.kept = s.kept := State.kept_of_still (State.pumpAll_still ..)

theorem State.fetchAll_kept (s : State) : s.fetchAll.kept = s.kept := State.kept_of_still (State.fetchAll_still ..)

theorem State.restoreAll_kept (s : State) : s.restoreAll.kept = s.kept := State.kept_of_still (State.restoreAll_still ..)

theorem State.fennelFlow_kept (s : State) : s.fennelFlow.kept = s.kept := State.kept_of_still (State.fennelFlow_still ..)

theorem State.keyFlow_kept (s : State) : s.keyFlow.kept = s.kept := State.kept_of_still (State.keyFlow_still ..)

theorem State.flow_kept (s : State) : s.flow.kept = s.kept := State.kept_of_still (State.flow_still ..)

theorem State.rebuildQueue_kept (s : State) (q : Nat) : (s.rebuildQueue q).kept = s.kept := by
  unfold State.rebuildQueue
  dsimp only
  repeat' split
  all_goals simp only [State.setQueue_kept, State.irq_kept, State.readEntries_kept, State.fetchQueue_kept]

/-! ## Crypt -/

theorem State.dillDeliver_kept (s : State) (j : Job) (keys : List Bytes) (i : Nat) (buf : Bytes) : (s.dillDeliver j keys i buf).kept = s.kept := by
  unfold State.dillDeliver
  repeat' split
  all_goals simp only [State.setCtx_kept, State.setJob_kept]

/-! ## Plan -/

theorem State.usePlan_kept (s : State) (p : List (Nat × PlanRec)) : (s.usePlan p).kept = s.kept := by
  simp only [State.usePlan, State.kept_mk, State.kept_eta]

theorem State.stagePlan_kept (s : State) (d : Nat) (r : Option PlanRec) : (s.stagePlan d r).kept = s.kept := by
  simp only [State.stagePlan, State.kept_mk, State.kept_eta]

theorem State.capacityEvent_kept (s : State) (ds : List Nat) : (s.capacityEvent ds).kept = s.kept := by
  simp only [State.capacityEvent, State.foldl_kept, apply_ite State.kept, ite_self, implies_true, State.event_kept]

theorem State.unitEvent_kept (s : State) (kind index action : Nat) : (s.unitEvent kind index action).kept = s.kept := by
  simp only [State.unitEvent, State.event_kept]

theorem State.checkDegraded_kept (s : State) : s.checkDegraded.kept = s.kept := by
  unfold State.checkDegraded
  repeat' split
  all_goals simp only [State.kept_mk, State.kept_eta]

theorem State.refill_kept (s : State) (p : Nat) : (s.refill p).1.kept = s.kept := by
  unfold State.refill
  dsimp only
  split
  · rfl
  · split
    · split <;> rfl
    · rfl

theorem State.setLane_kept (s : State) (l : Nat) (f : UnitState → UnitState) : (s.setLane l f).kept = s.kept := by
  simp only [State.setLane, State.kept_mk, State.kept_eta]

theorem State.setDillLane_kept (s : State) (l : Nat) (f : UnitState → UnitState) : (s.setDillLane l f).kept = s.kept := by
  simp only [State.setDillLane, State.kept_mk, State.kept_eta]

theorem State.setSeq_kept (s : State) (l : Nat) (f : UnitState → UnitState) : (s.setSeq l f).kept = s.kept := by
  simp only [State.setSeq, State.kept_mk, State.kept_eta]

theorem State.takeOut_kept (s : State) (ls : List Nat) (alone : Bool) : (s.takeOut ls alone).kept = s.kept := by
  unfold State.takeOut
  have hfold (ps : List Nat) (a : State × List Nat) : (ps.foldl (fun (a : State × List Nat) p =>
      let (s, lane, dark) := a.1.refill p
      let s := match lane with
        | some l => if alone then s.unitEvent 0x01 l 4 else s
        | none => s
      (s, a.2 ++ dark.toList)) a).1.kept = a.1.kept := by
    induction ps generalizing a with
    | nil => rfl
    | cons p ps ih =>
      rw [List.foldl_cons, ih]
      have h := a.1.refill_kept p
      generalize a.1.refill p = r at h ⊢
      obtain ⟨u, lane, dark⟩ := r
      cases lane <;> simp only [apply_ite State.kept, State.unitEvent_kept, h, ite_self]
  dsimp only at hfold ⊢
  simp only [State.checkDegraded_kept, apply_ite State.kept, State.capacityEvent_kept, ite_self]
  refine (hfold ..).trans ?_
  exact State.foldl_kept (f := fun s p => { s with thyme := { s.thyme with laneOf := s.thyme.laneOf.set p none } }) (fun _ _ => rfl) _ _

theorem State.suspendLane_kept (s : State) (l : Nat) : (s.suspendLane l).kept = s.kept := by
  unfold State.suspendLane
  split <;> simp only [State.setLane_kept, State.unitEvent_kept, State.takeOut_kept]

theorem State.suspendBunch_kept (s : State) (b : Nat) : (s.suspendBunch b).kept = s.kept := by
  unfold State.suspendBunch
  dsimp only
  split <;> simp only [State.foldl_kept, implies_true, State.setLane_kept, State.unitEvent_kept, State.takeOut_kept]

theorem State.bunchOver_kept (s : State) (b : Nat) : (s.bunchOver b).kept = s.kept := by
  unfold State.bunchOver
  dsimp only
  split <;> simp only [State.foldl_kept, implies_true, State.setLane_kept, State.unitEvent_kept]

theorem State.returnLane_kept (s : State) (l : Nat) : (s.returnLane l).kept = s.kept := by
  unfold State.returnLane
  dsimp only
  repeat' split
  all_goals simp only [State.kept_mk, State.kept_eta, State.setLane_kept, State.capacityEvent_kept, State.bunchOver_kept,
    State.unitEvent_kept, State.checkDegraded_kept]

theorem State.retireLane_kept (s : State) (l : Nat) : (s.retireLane l).kept = s.kept := by
  unfold State.retireLane
  repeat' split
  all_goals simp only [State.setLane_kept, State.bunchOver_kept, State.unitEvent_kept, State.takeOut_kept, State.checkDegraded_kept]

theorem State.suspendDill_kept (s : State) (l : Nat) : (s.suspendDill l).kept = s.kept := by
  unfold State.suspendDill
  split <;> simp only [State.setDillLane_kept, State.unitEvent_kept]

theorem State.endDill_kept (s : State) (l : Nat) (ok : Bool) : (s.endDill l ok).kept = s.kept := by
  unfold State.endDill
  dsimp only
  repeat' split
  all_goals simp only [State.kept_mk, State.kept_eta, State.setDillLane_kept, State.unitEvent_kept, State.capacityEvent_kept]

theorem State.vacateSeq_kept (s : State) (q : Nat) : (s.vacateSeq q).kept = s.kept := by
  unfold State.vacateSeq
  dsimp only
  repeat' split
  all_goals simp only [State.kept_mk, State.kept_eta, State.unitEvent_kept, State.capacityEvent_kept]

theorem State.suspendSeq_kept (s : State) (q : Nat) : (s.suspendSeq q).kept = s.kept := by
  unfold State.suspendSeq
  split <;> simp only [State.setSeq_kept, State.unitEvent_kept, State.vacateSeq_kept]

theorem State.endSeq_kept (s : State) (q : Nat) (ok : Bool) : (s.endSeq q ok).kept = s.kept := by
  unfold State.endSeq
  dsimp only
  repeat' split
  all_goals simp only [State.kept_mk, State.kept_eta, State.setSeq_kept, State.unitEvent_kept, State.capacityEvent_kept,
    State.vacateSeq_kept]

/-! ## SageCore -/

theorem State.setSage_kept (s : State) (f : Sage → Sage) : (s.setSage f).kept = s.kept := by
  simp only [State.setSage, State.kept_mk, State.kept_eta]

theorem State.requestFreq_kept (s : State) (f : Int) : (s.requestFreq f).kept = s.kept := by
  unfold State.requestFreq
  dsimp only
  split <;> simp only [State.setSage_kept, State.eventO_kept]

theorem State.servoTo_kept (s : State) (st : ServoState) : (s.servoTo st).kept = s.kept := by
  unfold State.servoTo
  split <;> simp only [State.setSage_kept, State.eventO_kept]

theorem State.servoStep_kept (s : State) (a : Nat) : (s.servoStep a).kept = s.kept := by
  unfold State.servoStep
  dsimp only
  repeat' split
  all_goals simp only [State.servoTo_kept, State.setSage_kept]

theorem State.resetModel_kept (s : State) : s.resetModel.kept = s.kept := by
  simp only [State.resetModel, State.setSage_kept]

theorem State.updateModel_kept (s : State) (o : Int) (freq : Int) (n : Nat) : (s.updateModel o freq n).kept = s.kept := by
  unfold State.updateModel
  dsimp only
  split <;> simp only [State.setSage_kept]

theorem State.acceptInput_kept (s : State) (o : Int) (a : Nat) (eFw : Option (BitVec 32)) : (s.acceptInput o a eFw).kept = s.kept := by
  unfold State.acceptInput
  dsimp only
  repeat' split
  all_goals simp only [State.setSage_kept, State.requestFreq_kept, State.servoStep_kept, State.updateModel_kept]

theorem State.applySample_kept (s : State) (o : Int) (eRef eAsym : BitVec 32) (refId : Bytes) : (s.applySample o eRef eAsym refId).kept = s.kept := by
  unfold State.applySample
  dsimp only
  split <;> simp only [State.setSage_kept, State.acceptInput_kept]

theorem State.applyTime_kept (s : State) (c : TimeChange) : (s.applyTime c).kept = s.kept := by
  unfold State.applyTime
  split <;> simp only [State.acceptInput_kept, State.requestFreq_kept, State.applySample_kept, State.setSage_kept]

theorem State.applyTimes_kept (s : State) : s.applyTimes.kept = s.kept := by
  simp only [State.applyTimes, State.foldl_kept, implies_true, State.setSage_kept, State.applyTime_kept]

theorem State.failCounter_kept (s : State) (b : Bool) : (s.failCounter b).kept = s.kept := by
  unfold State.failCounter
  split <;> simp only [State.setSage_kept, State.event_kept]

theorem State.compareCounters_kept (s : State) (a b d : Bool) : (s.compareCounters a b d).1.kept = s.kept := by
  simp only [State.compareCounters, apply_ite State.kept, State.setSage_kept, State.failCounter_kept, ite_self]

theorem State.repairCounters_kept (s : State) (aFails bFails disagree : Bool) : (s.repairCounters aFails bFails disagree).kept = s.kept := by
  unfold State.repairCounters
  dsimp only
  split <;> simp only [State.setSage_kept]

theorem State.shiftTimers_kept (s : State) (d : Int) : (s.shiftTimers d).kept = s.kept := by
  simp only [State.shiftTimers, State.kept, List.map_map]
  rfl

theorem State.applyStep_kept (s : State) (v : Nat) (eStep : Option (BitVec 32)) : (s.applyStep v eStep).kept = s.kept := by
  unfold State.applyStep
  dsimp only
  split <;> simp only [State.kept_mk, State.kept_eta, State.shiftTimers_kept, State.setSage_kept, State.postEvent_kept]

/-! ## Thyme -/

theorem State.firstAssign_kept (s : State) (q : Nat) (c : BitVec 17) (m : Nat) : (s.firstAssign q c m).1.kept = s.kept := by
  unfold State.firstAssign
  split
  · rfl
  · split
    · rfl
    · dsimp only
      split <;> simp only [State.endJob_kept, State.setJob_kept, State.foldl_kept, State.charge_kept, implies_true]

theorem State.creditAccount_kept (s : State) (d : Nat) : (s.creditAccount d).kept = s.kept := by
  unfold State.creditAccount
  dsimp only
  split <;> simp only [State.kept_mk, State.kept_eta]

theorem State.takeBeats_kept (s : State) (d : Nat) (b : Nat × Nat) : (s.takeBeats d b).kept = s.kept := by
  simp only [State.takeBeats, State.kept_mk, State.kept_eta]

theorem State.issueTo_kept (s : State) (c : Cand) (m lane pos : Nat) (role : Role) (partner : Option Nat) :
    (s.issueTo c m lane pos role partner).kept = s.kept := by
  unfold State.issueTo
  split <;> simp only [State.kept_mk, State.kept_eta, State.foldl_kept, implies_true, State.setCtx_kept, State.setJob_kept]

theorem State.issueTest_kept (s : State) (u : LaneKind) (lane m : Nat) : (s.issueTest u lane m).kept = s.kept := by
  simp only [State.issueTest, State.kept_mk, State.kept_eta]

theorem State.issuePair_kept (s : State) (c : Cand) (m : Nat) (at' : Nat × Nat) (mate : Option (Nat × Nat)) :
    (s.issuePair c m at' mate).kept = s.kept := by
  unfold State.issuePair
  dsimp only
  split <;> simp only [State.issueTo_kept]

theorem State.countBeats_kept (s : State) (u : LaneKind) (b : Nat × Nat) : (s.countBeats u b).kept = s.kept := by
  simp only [State.countBeats, State.kept_mk, State.kept_eta]

theorem State.placeFirst_kept (m : Nat) (charge : Bool) (allowed : State → Cand → Bool) (at' : Nat × Nat) (mate : Option (Nat × Nat))
    (cs : List Cand) (s : State) : (State.placeFirst m charge allowed at' mate cs s).1.kept = s.kept := by
  induction cs generalizing s with
  | nil => rfl
  | cons c cs ih =>
    unfold State.placeFirst
    split
    · exact ih s
    · have h := s.firstAssign_kept c.job.queue c.job.count m
      generalize s.firstAssign c.job.queue c.job.count m = p at h ⊢
      obtain ⟨u, ok⟩ := p
      dsimp only
      split
      · split <;> simp only [apply_ite State.kept, State.issuePair_kept, State.countBeats_kept, State.takeBeats_kept, h, ite_self]
      · exact (ih u).trans h

theorem State.placeZero_kept {s t : State} {d pos : Nat} {allowed : State → Nat × Nat → Bool} (h : s.placeZero d pos allowed = some t) :
    t.kept = s.kept := by
  unfold State.placeZero at h
  split at h
  · simp at h
  · split at h
    · simp at h
    · dsimp only at h
      split at h
      · simp at h
      · rw [← Option.some.inj h]
        simp only [State.writeDstAt_kept, State.setJob_kept, State.countBeats_kept, State.takeBeats_kept]

theorem State.regPathTick_kept (s : State) : s.regPathTick.kept = s.kept := by
  unfold State.regPathTick
  split <;> simp only [State.kept_mk, State.kept_eta]

theorem State.offer_kept (s : State) (d : Nat) (u : LaneKind) (m : Nat) (own : Bool) (at' : Nat × Nat) (mate : Option (Nat × Nat)) :
    (s.offer d u m own at' mate).1.kept = s.kept := by
  have hcredit : (if u == .chive then s.creditAccount d else s).kept = s.kept := by
    simp only [apply_ite State.kept, State.creditAccount_kept, ite_self]
  unfold State.offer
  dsimp only
  rw [← hcredit]
  generalize (if u == .chive then s.creditAccount d else s) = t
  generalize (if State.retryHere _ _ _ _ then _ else _ : List Cand) = retries
  have hretries := State.placeFirst_kept m (u == .chive) (fun s c => own || s.frameRoom m u c.beats) at' mate retries t
  generalize State.placeFirst m (u == .chive) (fun s c => own || s.frameRoom m u c.beats) at' mate retries t = p at hretries ⊢
  obtain ⟨v, taken⟩ := p
  dsimp only at hretries ⊢
  rw [← hretries]
  split
  · rfl
  · split
    · rename_i w hzero
      split at hzero
      · exact State.placeZero_kept hzero
      · simp at hzero
    · split
      · split
        · exact State.placeFirst_kept ..
        · exact (State.regPathTick_kept _).trans (State.placeFirst_kept ..)
      · exact State.placeFirst_kept ..

theorem State.countSlot_kept (s : State) (d : Nat) : (s.countSlot d).kept = s.kept := by
  simp only [State.countSlot, State.kept_mk, State.kept_eta]

theorem State.shadowOn_kept (s : State) (i : Issue) (lane : Nat) : (s.shadowOn i lane).kept = s.kept := by
  simp only [State.shadowOn, State.kept_mk, State.kept_eta, State.setJob_kept]

theorem State.noteEligible_kept (s : State) (m : Nat) : (s.noteEligible m).kept = s.kept := by
  simp only [State.noteEligible, State.kept_mk, State.kept_eta]

theorem State.setOp_kept (s : State) (q : Nat) (o : Option Op) : (s.setOp q o).kept = s.kept := by
  simp only [State.setOp, State.kept_mk, State.kept_eta]

theorem State.basilFirst_kept (s : State) (j : Job) (m : Nat) : (s.basilFirst j m).1.kept = s.kept := by
  unfold State.basilFirst
  split
  · exact s.endJob_kept ..
  · exact s.firstAssign_kept ..

theorem State.drbgRequest_kept (s : State) (i : Nat) : (s.drbgRequest i).1.kept = s.kept := by
  unfold State.drbgRequest
  split <;> rfl

theorem State.putOp_kept (s : State) (o : Op) (q : Nat) (q2 : Option Nat) : (s.putOp o q q2).kept = s.kept := by
  unfold State.putOp
  split <;> simp only [State.setOp_kept]

theorem State.startOp_kept (s : State) (j : Job) (q : Nat) (q2 : Option Nat) (m : Nat) : (s.startOp j q q2 m).kept = s.kept := by
  unfold State.startOp
  split
  · rfl
  · have h := s.basilFirst_kept j m
    generalize s.basilFirst j m = p at h ⊢
    obtain ⟨u, ok⟩ := p
    have hd := u.drbgRequest_kept q
    dsimp only
    generalize u.drbgRequest q = r at hd ⊢
    obtain ⟨v, served⟩ := r
    simp only [apply_ite State.kept, State.endJob_kept, State.setJob_kept, State.putOp_kept, State.useFree_kept, hd, h, ite_self]

theorem State.startHeld_kept (s : State) (m : Nat) : (s.startHeld m).kept = s.kept := by
  unfold State.startHeld
  refine State.foldl_kept (fun u x => State.foldl_kept (fun u j => ?_) _ _) _ _
  split
  · exact u.startOp_kept ..
  · rfl

theorem State.startUnheld_kept (m n : Nat) (s : State) : (State.startUnheld m n s).kept = s.kept := by
  induction n generalizing s with
  | zero => rfl
  | succ n ih =>
    unfold State.startUnheld
    split
    · rw [ih, State.startOp_kept]
    · rfl

theorem State.noteBasil_kept (s : State) (m : Nat) : (s.noteBasil m).kept = s.kept := by
  simp only [State.noteBasil, State.kept_mk, State.kept_eta]

theorem State.placeRestarts_kept (s : State) (m : Nat) : (s.placeRestarts m).kept = s.kept := by
  unfold State.placeRestarts
  refine State.foldl_kept (fun u o => ?_) _ _
  split
  · exact u.putOp_kept ..
  · rfl

theorem State.placeRom_kept (s : State) : s.placeRom.kept = s.kept := by
  unfold State.placeRom
  dsimp only
  rw [State.foldl_kept fun u x => ?_]
  · rfl
  · split <;> rfl

theorem State.basilShadows_kept (s : State) (m : Nat) : (s.basilShadows m).kept = s.kept := by
  unfold State.basilShadows
  refine State.foldl_kept (fun u p => ?_) _ _
  repeat' split
  all_goals rfl

theorem State.rested_kept (s : State) : s.rested.kept = s.kept := by
  simp only [State.rested, State.kept_mk, State.kept_eta]

theorem State.assignBasil_kept (s : State) (m : Nat) : (s.assignBasil m).kept = s.kept := by
  unfold State.assignBasil
  simp only [State.basilShadows_kept, State.startUnheld_kept, State.startHeld_kept, State.placeRom_kept, State.placeRestarts_kept,
    State.noteBasil_kept]

theorem State.clearOp_kept (s : State) (q : Nat) (o : Op) : (s.clearOp q o).kept = s.kept := by
  simp only [State.clearOp, State.foldl_kept, implies_true, State.setOp_kept]

theorem State.rest_kept (s : State) (qs : List Nat) : (s.rest qs).kept = s.kept := by
  simp only [State.rest, State.kept_mk, State.kept_eta]

theorem State.restartOp_kept (s : State) (q : Nat) (o : Op) (votes : List (Nat × BitVec 64)) : (s.restartOp q o votes).kept = s.kept := by
  unfold State.restartOp
  split <;> simp only [State.kept_mk, State.kept_eta, State.clearOp_kept, State.rest_kept, State.endJob_kept, State.setJob_kept]

theorem State.failOp_kept (s : State) (q : Nat) : (s.failOp q).kept = s.kept := by
  unfold State.failOp
  repeat' split
  all_goals simp only [State.setOp_kept, State.rest_kept, State.restartOp_kept]

theorem State.seqCheckFails_kept (s : State) (q : Nat) : (s.seqCheckFails q).kept = s.kept := by
  unfold State.seqCheckFails
  repeat' split
  all_goals simp only [State.kept_mk, State.kept_eta, State.failOp_kept, State.suspendSeq_kept]

theorem State.stagingFails_kept (s : State) (q : Nat) : (s.stagingFails q).kept = s.kept := by
  unfold State.stagingFails
  dsimp only
  repeat' split
  all_goals simp only [State.seqCheckFails_kept, State.setJob_kept, State.readSource_kept]

theorem State.compareOp_kept (s : State) (x : Nat × BitVec 64 × BitVec 64) : (s.compareOp x).kept = s.kept := by
  unfold State.compareOp
  dsimp only
  repeat' split
  all_goals simp only [State.foldl_kept, implies_true, State.restartOp_kept, State.suspendSeq_kept]

theorem State.basilCheckFails_kept (s : State) (qs : List Nat) : (s.basilCheckFails qs).kept = s.kept := by
  simp only [State.basilCheckFails, State.foldl_kept, apply_ite State.kept, ite_self, implies_true, State.endSeq_kept, State.seqCheckFails_kept]

theorem State.basilTests_kept (s : State) : s.basilTests.kept = s.kept := by
  unfold State.basilTests
  split
  · rfl
  · refine State.foldl_kept (fun u q => ?_) _ _
    split
    · simp only [apply_ite State.kept, State.endSeq_kept, State.setSeq_kept, ite_self]
    · rfl

theorem State.fillStatements_kept (s : State) : s.fillStatements.kept = s.kept := by
  unfold State.fillStatements
  refine State.foldl_kept (fun u o => ?_) _ _
  split
  · split
    · simp only [apply_ite State.kept, State.setJob_kept, ite_self]
    · rfl
  · rfl

theorem State.stepOverrun_kept (s : State) : s.stepOverrun.kept = s.kept := by
  unfold State.stepOverrun
  refine State.foldl_kept (fun u q => ?_) _ _
  split
  · simp only [apply_ite State.kept, State.setOp_kept, ite_self]
  · rfl

theorem State.keyRetry_kept (s : State) : s.keyRetry.kept = s.kept := State.kept_of_still (State.keyRetry_still ..)

/-! ## Banks -/

theorem State.setBank_kept (s : State) (isB : Bool) (f : Bank → Bank) : (s.setBank isB f).kept = s.kept := by
  cases isB <;> rfl

theorem State.bankDrained_kept (s : State) (isB : Bool) : (s.bankDrained isB).kept = s.kept := by
  unfold State.bankDrained
  dsimp only
  repeat' split
  all_goals simp only [State.kept_mk, State.kept_eta, State.setBank_kept, State.ucodeEvent_kept, State.commitStart_kept]

theorem State.banksDrained_kept (s : State) : s.banksDrained.kept = s.kept := by
  simp only [State.banksDrained, State.bankDrained_kept]

theorem State.activateBank_kept (s : State) (isB : Bool) : (s.activateBank isB).kept = s.kept := by
  simp only [State.activateBank, State.setBank_kept]

theorem State.drainBanks_kept (s : State) : s.drainBanks.kept = s.kept := by
  unfold State.drainBanks
  dsimp only
  split <;> simp only [State.kept_mk, State.kept_eta]

theorem State.switchBank_kept (s : State) : s.switchBank.kept = s.kept := by
  unfold State.switchBank
  dsimp only
  repeat' split
  all_goals simp only [State.kept_mk, State.kept_eta, State.drainBanks_kept, State.activateBank_kept, State.commitStart_kept,
    State.banksDrained_kept]

/-! ## Dirty -/

theorem State.logWrite_kept (s : State) (d iova : Nat) : (s.logWrite d iova).kept = s.kept := s.setDomain_kept _ _ fun x => by split <;> rfl

theorem State.logTxn_kept (s : State) (t : Txn) : (s.logTxn t).kept = s.kept := by
  unfold State.logTxn
  split <;> simp only [State.logWrite_kept]

theorem State.closeRuns_kept (s : State) : s.closeRuns.kept = s.kept := by
  simp only [State.closeRuns, State.kept, List.map_map]
  rfl

theorem State.dirtyWrite_kept (s : State) (d : Nat) (page run kind : Nat) (p : Purpose) : (s.dirtyWrite d page run kind p).kept = s.kept := by
  unfold State.dirtyWrite
  dsimp only
  repeat' split
  all_goals simp only [implies_true, State.setDomain_kept, State.event_kept, State.issue_kept]

theorem State.dirtyStep_kept (s : State) (d : Nat) : (s.dirtyStep d).kept = s.kept := by
  unfold State.dirtyStep
  repeat' split
  all_goals simp only [implies_true, State.setDomain_kept, State.dirtyWrite_kept]

theorem State.reenter_kept (s : State) (d : Nat) : (s.reenter d).kept = s.kept := by
  unfold State.reenter
  split
  · rfl
  · simp only [apply_ite State.kept, State.event_kept, State.setDomain_kept, implies_true, ite_self]

/-! ## Losses -/

theorem State.stopUnits_kept (s : State) (q : Nat) (c : BitVec 17) : (s.stopUnits q c).kept = s.kept := by
  simp only [State.stopUnits, State.kept_mk, State.kept_eta, State.dropCtxs_kept, State.rest_kept]

theorem State.clearOuts_kept (s : State) (q : Nat) (c : BitVec 17) : (s.clearOuts q c).kept = s.kept := by
  simp only [State.clearOuts, State.kept_mk, State.kept_eta]

theorem State.abandonJob_kept (s : State) (q : Nat) (c : BitVec 17) : (s.abandonJob q c).kept = s.kept := by
  simp only [State.abandonJob, State.killTxns_kept, State.dropIssues_kept, State.clearOuts_kept, State.stopUnits_kept, State.dropJob_kept]

theorem State.dropLoadJob_kept (s : State) (n : BitVec 32) : (s.dropLoadJob n).kept = s.kept := by
  simp only [State.dropLoadJob, State.abandonJob_kept]

theorem State.abandonQueue_kept (s : State) (q : Nat) : (s.abandonQueue q).kept = s.kept := by
  simp only [State.abandonQueue, State.foldl_kept, implies_true, State.abandonJob_kept, State.killTxns_kept]

theorem State.holdRange_kept (s : State) (d : Nat) (e : Event) : (s.holdRange d e).kept = s.kept := by
  simp only [State.holdRange, State.setEvq_kept]

theorem State.releaseRange_kept (s : State) (x : Queue) (later : Bool) : (s.releaseRange x later).kept = s.kept := by
  unfold State.releaseRange
  repeat' split
  all_goals simp only [State.abandonQueue_kept, State.setQueue_kept, State.postEvent_kept, State.holdRange_kept]

theorem State.dropLines_kept (s : State) (d : Nat) : (s.dropLines d).kept = s.kept := by
  simp only [State.dropLines, State.kept_mk, State.kept_eta, State.killTxns_kept]

theorem State.linkLost_kept (s : State) (d : Nat) : (s.linkLost d).kept = s.kept := by
  simp only [State.linkLost, State.foldl_kept, implies_true, State.setDomain_kept, State.setQueue_kept, State.releaseRange_kept,
    State.killTxns_kept, State.dropLines_kept, State.banksDrained_kept]

theorem State.adminReset_kept (s : State) (c : BitVec 17) : (s.adminReset c).kept = s.kept := State.kept_of_still (State.adminReset_still ..)

theorem State.triggerReset_kept (s : State) (d t : Nat) : (s.triggerReset d t).kept = s.kept := by
  unfold State.triggerReset
  split
  · rfl
  · simp only [apply_ite State.kept, State.foldl_kept, State.adminReset_kept, State.setDomain_kept, implies_true, ite_self]

theorem State.dropEventWrites_kept (s : State) (d : Nat) : (s.dropEventWrites d).kept = s.kept := by
  unfold State.dropEventWrites
  dsimp only
  split <;> simp only [State.kept_mk, State.kept_eta, State.setEvq_kept]

theorem State.clearEvents_kept (s : State) (d : Nat) : (s.clearEvents d).kept = s.kept := by
  simp only [State.clearEvents, State.setEvq_kept, State.checkHold_kept]

theorem State.dropArrivals_kept (s : State) (q : Nat → Bool) : (s.dropArrivals q).kept = s.kept := by
  simp only [State.dropArrivals, State.kept_mk, State.kept_eta]

theorem State.flushDirty_kept (s : State) (d : Nat) : (s.flushDirty d).kept = s.kept := by
  simp only [State.flushDirty, State.foldl_kept, implies_true, State.setDomain_kept, State.dirtyStep_kept]

/-! ## Events -/

theorem State.writeEvents_kept (s : State) (d : Nat) (byTimeout : Bool) : (s.writeEvents d byTimeout).kept = s.kept := by
  unfold State.writeEvents
  dsimp only
  repeat' split
  all_goals simp only [State.setEvq_kept, State.issue_kept, State.checkHold_kept, State.sendAll_kept]

theorem State.newRing_kept (s : State) (d base : Nat) : (s.newRing d base).kept = s.kept := by
  unfold State.newRing
  dsimp only
  split <;> simp only [State.killTxns_kept, State.setEvq_kept]

theorem State.headReads_kept (s : State) : s.headReads.kept = s.kept := by
  unfold State.headReads
  split <;> simp only [State.foldl_kept, implies_true, State.setEvq_kept, State.issue_kept]

theorem State.eventInt_kept (s : State) (d : Nat) : (s.eventInt d).kept = s.kept := by
  unfold State.eventInt
  repeat' split
  all_goals simp only [State.setEvq_kept, State.irq_kept]

theorem State.eventsLost_kept (s : State) (d first n : Nat) : (s.eventsLost d first n).kept = s.kept := by
  simp only [State.eventsLost, State.kept_mk, State.kept_eta, State.setEvq_kept]

/-! ## Queues -/

theorem State.foreignWrite_kept (s : State) (src : From) (q : Nat) : (s.foreignWrite src q).kept = s.kept :=
  State.kept_of_still (State.foreignWrite_still ..)

theorem State.pushDiscard_kept (s : State) (x : Queue) (reason : Nat) : (s.pushDiscard x reason).kept = s.kept := by
  simp only [State.pushDiscard, State.setQueue_kept, State.event_kept]

theorem State.dropHalf_kept (s : State) (x : Queue) (n : Nat) : (s.dropHalf x n).kept = s.kept := by
  unfold State.dropHalf
  simp only [apply_ite State.kept, State.pushDiscard_kept, State.setQueue_kept, ite_self]

theorem State.dbError_kept (s : State) (x : Queue) (w : BitVec 32) : (s.dbError x w).kept = s.kept := by
  simp only [State.dbError, State.setQueue_kept, State.event_kept]

theorem State.readStale_kept (s : State) (q : Nat) : (s.readStale q).kept = s.kept := State.kept_of_still (State.readStale_still ..)

theorem State.prefetch_kept (s : State) (q : Nat) : (s.prefetch q).kept = s.kept := State.kept_of_still (State.prefetch_still ..)

theorem State.disableIdle_kept (s : State) (q : Nat) : (s.disableIdle q).kept = s.kept := by
  simp only [State.disableIdle, State.setQueue_kept]

theorem State.disableQueue_kept (s : State) (x : Queue) (w : BitVec 32) : (s.disableQueue x w).kept = s.kept := by
  unfold State.disableQueue
  split <;> simp only [State.dbError_kept, State.setQueue_kept, State.killTxns_kept, State.disableIdle_kept]

theorem State.enableQueue_kept (s : State) (x : Queue) (w : BitVec 32) : (s.enableQueue x w).kept = s.kept := by
  unfold State.enableQueue
  split <;> simp only [State.setQueue_kept, State.dbError_kept]

theorem State.ringDoorbell_kept (s : State) (x : Queue) (w : BitVec 32) : (s.ringDoorbell x w).kept = s.kept := by
  unfold State.ringDoorbell
  dsimp only
  split <;> simp only [State.dbError_kept, State.setQueue_kept, State.reenter_kept]

theorem State.takeDoorbell_kept (s : State) (x : Queue) (w : BitVec 32) : (s.takeDoorbell x w).kept = s.kept := by
  unfold State.takeDoorbell
  dsimp only
  repeat' split
  all_goals simp only [State.dropHalf_kept, State.dbError_kept, State.disableQueue_kept, State.enableQueue_kept, State.ringDoorbell_kept]

theorem State.acceptDoorbell_kept (s : State) (x : Queue) (w : BitVec 32) : (s.acceptDoorbell x w).kept = s.kept := by
  simp only [State.acceptDoorbell, State.takeDoorbell_kept, State.readStale_kept, State.fetchQueue_kept, State.prefetch_kept]

theorem State.takeBells_kept (n : Nat) (s : State) : (State.takeBells n s).kept = s.kept := by
  induction n generalizing s with
  | zero => rfl
  | succ n ih =>
    unfold State.takeBells
    split
    · rw [ih]
      split
      · exact State.acceptDoorbell_kept ..
      · rfl
    · rfl

theorem State.acceptBells_kept (s : State) : s.acceptBells.kept = s.kept := by
  simp only [State.acceptBells, apply_ite State.kept, State.takeBells_kept, ite_self]

theorem State.arrive_kept (s : State) (a : Arrival) : (s.arrive a).kept = s.kept := by
  simp only [State.arrive, State.kept_mk, State.kept_eta]

theorem State.bell_kept (w : BitVec 32) (x : Queue) (s : State) : (State.bell w x s).kept = s.kept := by
  simp only [State.bell, State.arrive_kept, State.acceptBells_kept]

theorem State.pushWrite_kept (src : From) (offset : Nat) (data : Bytes) (x : Queue) (s : State) :
    (State.pushWrite src offset data x s).kept = s.kept := by
  unfold State.pushWrite
  repeat' split
  all_goals simp only [State.pushDiscard_kept, State.arrive_kept, State.dropHalf_kept, State.setQueue_kept]

theorem State.supersede_kept (s : State) (q : Nat) (c : BitVec 17) : (s.supersede q c).kept = s.kept := by
  simp only [State.supersede, State.kept_mk, State.kept_eta, State.setQueue_kept]

theorem State.takePush_kept (s : State) (x : Queue) (data : Bytes) (parityError : Bool) : (s.takePush x data parityError).kept = s.kept := by
  unfold State.takePush
  repeat' split
  all_goals simp only [State.setQueue_kept, State.pushDiscard_kept, State.supersede_kept, State.reenter_kept]

theorem State.acceptPush_kept (s : State) (x : Queue) (data : Bytes) (parityError : Bool) : (s.acceptPush x data parityError).kept = s.kept := by
  simp only [State.acceptPush, State.takePush_kept, State.readStale_kept, State.fetchQueue_kept]

/-! ## LogPages -/

theorem State.adminFail_kept (s : State) (c : BitVec 17) (st : Status) (off : Nat) : (s.adminFail c st off).kept = s.kept := by
  simp only [State.adminFail, State.setJob_kept, State.endJob_kept]

theorem State.adminRefuse_kept (s : State) (c : BitVec 17) (st : Status) : (s.adminRefuse c st).kept = s.kept := by
  simp only [State.adminRefuse, State.endJob_kept]

theorem State.adminOk_kept (s : State) (c : BitVec 17) (r0 : Nat) : (s.adminOk c r0).kept = s.kept := by
  simp only [State.adminOk, State.setJob_kept, State.endJob_kept]

theorem State.adminWrite_kept (s : State) (j : Job) (data : Bytes) (r0 r1 : Nat) : (s.adminWrite j data r0 r1).kept = s.kept := by
  simp only [State.adminWrite, State.issue_kept, State.setJob_kept, State.endJob_kept]

theorem State.writePage_kept (s : State) (j : Job) (page : Bytes) : (s.writePage j page).kept = s.kept := by
  simp only [State.writePage, State.adminWrite_kept]

theorem State.askPage_kept (s : State) (c : BitVec 17) : (s.askPage c).kept = s.kept := by
  simp only [State.askPage, State.kept_mk, State.kept_eta]

theorem State.pageDue_kept (s : State) : s.pageDue.kept = s.kept := by
  unfold State.pageDue
  dsimp only
  repeat' split
  all_goals simp only [State.kept_mk, State.kept_eta, State.setJob_kept, State.writePage_kept]

/-! ## RegPathOpen -/

theorem State.managerKeys_kept (s : State) (op h : Nat) : (s.managerKeys op h).1.kept = s.kept := by
  unfold State.managerKeys
  simp only [apply_ite Prod.fst, apply_ite State.kept, State.checkKeys_kept, ite_self]

theorem State.setRp_kept (s : State) (f : RegPath → RegPath) : (s.setRp f).kept = s.kept := by
  simp only [State.setRp, State.kept_mk, State.kept_eta]

theorem State.rpFail_kept (s : State) (st : Status) : (s.rpFail st).kept = s.kept := by
  simp only [State.rpFail, State.setRp_kept]

theorem State.rpContext_kept (s : State) : s.rpContext.1.kept = s.kept := by
  unfold State.rpContext
  repeat' split
  all_goals simp only [State.setRp_kept, State.saveCtx_kept]

theorem State.rpOpened_kept (s : State) (newer older : Option Bytes) : (s.rpOpened newer older).kept = s.kept := by
  simp only [State.rpOpened, State.setRp_kept]

theorem State.rpKeyed_kept (s : State) : s.rpKeyed.kept = s.kept := by
  unfold State.rpKeyed
  have h := s.managerKeys_kept 0x42 s.rpKey
  generalize s.managerKeys 0x42 s.rpKey = p at h ⊢
  obtain ⟨u, ks, r⟩ := p
  cases r with
  | wait => exact h
  | fail st => exact (u.rpFail_kept st).trans h
  | ok =>
    dsimp only
    repeat' split
    all_goals simp only [State.rpFail_kept, State.rpOpened_kept, State.foldl_kept, State.charge_kept, implies_true, h]

theorem State.openProgress_kept (s : State) : s.openProgress.kept = s.kept := by
  unfold State.openProgress
  split
  · rfl
  · have h : (if s.dill.rp.ctx then (s, CtxGrant.taken) else s.rpContext).1.kept = s.kept := by
      simp only [apply_ite Prod.fst, apply_ite State.kept, State.rpContext_kept, ite_self]
    generalize (if s.dill.rp.ctx then (s, CtxGrant.taken) else s.rpContext) = p at h ⊢
    obtain ⟨u, g⟩ := p
    cases g <;> simp only [apply_ite State.kept, State.rpKeyed_kept, State.rpOpened_kept, State.rpFail_kept, h, ite_self]

theorem State.rpEnd_kept (s : State) (st : Status) (result : Bytes) : (s.rpEnd st result).kept = s.kept := by
  simp only [State.rpEnd, State.setRp_kept]

theorem State.rpOpen_kept (s : State) (src : From) : (s.rpOpen src).kept = s.kept := by
  unfold State.rpOpen
  dsimp only
  repeat' split
  all_goals simp only [State.setRp_kept, State.rpFail_kept, State.openProgress_kept]

theorem State.rpData_kept (s : State) (word : BitVec 64) : (s.rpData word).kept = s.kept := by
  unfold State.rpData
  split <;> simp only [State.setRp_kept]

theorem State.rpLast_kept (s : State) (word : BitVec 64) (n : Nat) : (s.rpLast word n).kept = s.kept := by
  unfold State.rpLast
  repeat' split
  all_goals simp only [State.rpEnd_kept, State.setRp_kept]

theorem State.rpFinish_kept (s : State) (n : Nat) : (s.rpFinish n).kept = s.kept := by
  unfold State.rpFinish
  repeat' split
  all_goals simp only [State.rpEnd_kept, State.setRp_kept]

theorem State.rpClose_kept (s : State) (src : From) : (s.rpClose src).kept = s.kept := by
  simp only [State.rpClose, apply_ite State.kept, State.setRp_kept, State.event_kept, ite_self]

theorem State.rpCommand_kept (s : State) (src : From) (addr : Nat) (v : BitVec 64) : (s.rpCommand src addr v).kept = s.kept := by
  unfold State.rpCommand
  repeat' split
  all_goals simp only [State.rpOpen_kept, State.rpFinish_kept, State.rpClose_kept, State.rpData_kept, State.rpLast_kept]

theorem State.rpPort_kept (s : State) (src : From) (a n : Nat) (v : BitVec 64) : (s.rpPort src a n v).kept = s.kept := by
  refine s.inTurn_kept _ _ ?_
  simp only [apply_ite State.kept, State.holdAccess_kept, State.rpCommand_kept, ite_self]

/-! ## Ticks -/

theorem State.keepReg_kept (s : State) (a : Nat) (v : BitVec 64) : (s.keepReg a v).kept = s.kept := by
  simp only [State.keepReg, State.kept_mk, State.kept_eta]

theorem State.putSetup_kept (s : State) (a : Nat) (v : BitVec 64) : (s.putSetup a v).kept = s.kept := by
  unfold State.putSetup
  split <;> simp only [State.setReg_kept, State.keepReg_kept]

theorem State.moveLife_kept (s : State) (st : Life) (n : Nat) : (s.moveLife st n).kept = s.kept := by
  unfold State.moveLife
  dsimp only
  repeat' split
  all_goals simp only [State.kept_mk, State.kept_eta, implies_true, State.setLovage_kept]

theorem State.sweepWindows_kept (s : State) : s.sweepWindows.kept = s.kept := by
  simp only [State.sweepWindows, State.kept_mk, State.kept_eta]

theorem State.setSlice_kept (s : State) (q : Nat) (c : BitVec 17) (i : Nat) (f : Slice → Slice) : (s.setSlice q c i f).kept = s.kept := by
  simp only [State.setSlice, State.setJob_kept]

theorem State.dropSlice_kept (s : State) (q : Nat) (c : BitVec 17) (i : Nat) : (s.dropSlice q c i).kept = s.kept := by
  simp only [State.dropSlice, State.setJob_kept]

theorem State.writeSlice_kept (s : State) (j : Job) (i : Nat) (data : Bytes) (zeroed : Bool) : (s.writeSlice j i data zeroed).kept = s.kept := by
  unfold State.writeSlice
  split <;> simp only [State.dropSlice_kept, State.setJob_kept, State.setSlice_kept, State.writeDstAt_kept]

theorem State.writeLanes_kept (s : State) : s.writeLanes.kept = s.kept := by
  unfold State.writeLanes
  rw [State.foldl_kept fun u o => ?_]
  · rfl
  · split
    · exact u.writeSlice_kept ..
    · rfl

theorem State.xtsPump_kept (q : Nat) (c : BitVec 17) (n : Nat) (s : State) : (State.xtsPump q c n s).kept = s.kept := by
  induction n generalizing s with
  | zero => rfl
  | succ n ih =>
    unfold State.xtsPump
    repeat' split
    all_goals simp only [ih, State.endJob_kept, State.setJob_kept, State.writeSlice_kept]

theorem State.writeBack_kept (s : State) : s.writeBack.kept = s.kept := by
  simp only [State.writeBack, State.foldl_kept, State.xtsPump_kept, State.writeLanes_kept, implies_true]

theorem State.tryExchange_kept (s : State) : s.tryExchange.kept = s.kept := by
  unfold State.tryExchange
  repeat' split
  all_goals simp only [State.kept_mk, State.kept_eta]

theorem State.traceIssue_kept (s : State) (v : Option Verdict) (i : Issue) : (s.traceIssue v i).kept = s.kept := by
  unfold State.traceIssue
  split <;> simp only [State.emit_kept]

theorem State.endIssuesOfTick_kept (s : State) : s.endIssuesOfTick.kept = s.kept := by
  simp only [State.endIssuesOfTick, State.kept_mk, State.kept_eta, State.foldl_kept, implies_true, State.traceIssue_kept,
    State.setSlice_kept]

theorem State.frameStart_kept (s : State) (m : Nat) : (s.frameStart m).kept = s.kept := by
  unfold State.frameStart
  split <;> simp only [State.kept_mk, State.kept_eta]

theorem State.quietPath_kept (s : State) : s.quietPath.kept = s.kept := by
  unfold State.quietPath
  repeat' split
  all_goals simp only [State.regPathTick_kept]

theorem State.advance_kept (s : State) : s.advance.kept = s.kept := by
  simp only [State.advance, State.kept_mk, State.kept_eta, State.applyTimes_kept]

theorem State.abandonPipe_kept (s : State) : s.abandonPipe.kept = s.kept := by
  simp only [State.abandonPipe, State.setSage_kept]

theorem State.compareAll_kept (s : State) (c : TickChecks) : (s.compareAll c).kept = s.kept := by
  unfold State.compareAll
  have h := s.compareCounters_kept c.aFails c.bFails c.disagree
  generalize s.compareCounters c.aFails c.bFails c.disagree = p at h ⊢
  obtain ⟨u, b⟩ := p
  simp only [State.repairCounters_kept, apply_ite State.kept, State.abandonPipe_kept, h, ite_self]

theorem State.checkQuiet_kept (s : State) : s.checkQuiet.kept = s.kept := by
  unfold State.checkQuiet
  split <;> simp only [State.kept_mk, State.kept_eta]

theorem State.suspendFailed_kept (s : State) (l : List Nat) : (s.suspendFailed l).kept = s.kept := by
  unfold State.suspendFailed
  dsimp only
  rw [State.foldl_kept fun u x => ?_, State.foldl_kept State.suspendBunch_kept]
  · rfl
  · split <;> simp only [State.suspendLane_kept, State.suspendDill_kept]

theorem State.spoilHeld_kept (s : State) (xs : List (Nat × BitVec 17)) : (s.spoilHeld xs).kept = s.kept := by
  simp only [State.spoilHeld, State.foldl_kept, implies_true, State.setQueue_kept, State.setJob_kept]

theorem State.spoilLines_kept (s : State) (xs : List (Nat × Nat × Bool)) : (s.spoilLines xs).kept = s.kept := by
  simp only [State.spoilLines, State.foldl_kept, implies_true, State.setLine_kept]

theorem State.spoilAll_kept (s : State) (c : TickChecks) : (s.spoilAll c).kept = s.kept := by
  simp only [State.spoilAll, State.foldl_kept, implies_true, State.stagingFails_kept, State.spoilHeld_kept, State.spoilLines_kept]

theorem State.endTick_kept (s : State) (c : TickChecks) : (s.endTick c).kept = s.kept := by
  simp only [State.endTick, State.foldl_kept, implies_true, State.spoilAll_kept, State.quietPath_kept, State.endIssuesOfTick_kept,
    State.suspendFailed_kept, State.closeRuns_kept, State.basilCheckFails_kept, State.compareOp_kept, State.basilTests_kept]

theorem State.resumeUnits_kept (s : State) : s.resumeUnits.kept = s.kept := by
  simp only [State.resumeUnits, State.kept_mk, State.kept_eta]

theorem State.noteDrained_kept (s : State) : s.noteDrained.kept = s.kept := by
  simp only [State.noteDrained, State.kept_mk, State.kept_eta]

theorem State.enterMode_kept (s : State) : s.enterMode.kept = s.kept := by
  unfold State.enterMode
  repeat' split
  all_goals simp only [State.kept_mk, State.kept_eta, State.checkDegraded_kept, State.releaseHolds_kept, State.noteDrained_kept]

theorem State.activation_kept (s : State) (d : Nat) (rev : BitVec 32) : (s.activation d rev).kept = s.kept := by
  unfold State.activation
  split <;> simp only [State.event_kept]

theorem State.clearEpoch_kept (s : State) : s.clearEpoch.kept = s.kept := by
  simp only [State.clearEpoch, State.kept_mk, State.kept_eta]

theorem State.remap_kept (s : State) : s.remap.kept = s.kept := by
  simp only [State.remap, State.kept_mk, State.kept_eta, State.tryExchange_kept]

theorem State.activatePlan_kept (s : State) : s.activatePlan.kept = s.kept := by
  simp only [State.activatePlan, State.kept_mk, State.kept_eta, State.foldl_kept, implies_true, State.usePlan_kept,
    State.activation_kept]

theorem State.toSuspend_kept (s : State) (u : LaneKind) (l : Nat) (verdict : Bool) : (s.toSuspend u l verdict).kept = s.kept := by
  simp only [State.toSuspend, State.kept_mk, State.kept_eta]

theorem State.testResult_kept (s : State) (u : LaneKind) (l : Nat) (pass : Bool) : (s.testResult u l pass).kept = s.kept := by
  unfold State.testResult
  dsimp only
  repeat' split
  all_goals simp only [State.retireLane_kept, State.setLane_kept, State.returnLane_kept, State.endDill_kept, State.setDillLane_kept]

theorem State.readAgain_kept (s : State) (j : Job) (i : Nat) : (s.readAgain j i).kept = s.kept := State.kept_of_still (State.readAgain_still ..)

theorem State.restage_kept (s : State) (q : Nat) (c : BitVec 17) (i : Nat) : (s.restage q c i).kept = s.kept :=
  State.kept_of_still (State.restage_still ..)

theorem State.sliceFails_kept (s : State) (i : Issue) (n : Nat) (flit : Bool) (votes : List (Nat × BitVec 64)) :
    (s.sliceFails i n flit votes).kept = s.kept :=
  State.kept_of_still (State.sliceFails_still ..)

theorem State.afterPass_kept (s : State) (q : Nat) (c : BitVec 17) (i : Nat) : (s.afterPass q c i).kept = s.kept := by
  unfold State.afterPass
  dsimp only
  repeat' split
  all_goals simp only [State.setJob_kept, State.endJob_kept]

theorem State.countDelivered_kept (s : State) (i : Issue) : (s.countDelivered i).kept = s.kept := by
  simp only [State.countDelivered, State.setJob_kept]

theorem State.toDill_kept (s : State) (j : Job) (i : Nat) (out : Bytes) : (s.toDill j i out).kept = s.kept := by
  unfold State.toDill
  repeat' split
  all_goals simp only [State.setSlice_kept]

theorem State.releaseChive_kept (s : State) (i : Issue) (j : Job) (x : Slice) : (s.releaseChive i j x).kept = s.kept := by
  unfold State.releaseChive
  dsimp only
  repeat' split
  all_goals simp only [State.kept_mk, State.kept_eta, State.setJob_kept, State.setSlice_kept, State.countDelivered_kept,
    State.toDill_kept, State.dropSlice_kept, State.afterPass_kept]

theorem State.releaseDill_kept (s : State) (i : Issue) (j : Job) (x : Slice) : (s.releaseDill i j x).kept = s.kept := by
  simp only [State.releaseDill, State.dillDeliver_kept, State.countDelivered_kept, State.dropSlice_kept, State.afterPass_kept]

theorem State.release_kept (s : State) (i : Issue) : (s.release i).kept = s.kept := by
  unfold State.release
  repeat' split
  all_goals simp only [State.releaseDill_kept, State.releaseChive_kept]

theorem State.endIssues_kept (s : State) (i : Issue) : (s.endIssues i).kept = s.kept := by
  simp only [State.endIssues, State.kept_mk, State.kept_eta]

theorem State.referee_kept (s : State) (i : Issue) (sig : BitVec 64) (votes : List (Nat × BitVec 64)) : (s.referee i sig votes).kept = s.kept := by
  unfold State.referee
  split <;> simp only [State.foldl_kept, implies_true, State.toSuspend_kept, State.release_kept, State.sliceFails_kept]

theorem State.awaitSecond_kept (s : State) (i : Issue) (sig : BitVec 64) : (s.awaitSecond i sig).kept = s.kept := by
  simp only [State.awaitSecond, State.setSlice_kept]

theorem State.passes_kept (s : State) (i : Issue) (sig : BitVec 64) : (s.passes i sig).kept = s.kept := by
  unfold State.passes
  repeat' split
  all_goals simp only [State.referee_kept, State.awaitSecond_kept, State.release_kept]

theorem State.resolveOne_kept (s : State) (i : Issue) (v : Verdict) (sig : BitVec 64) : (s.resolveOne i v sig).kept = s.kept := by
  unfold State.resolveOne
  split <;> simp only [State.endIssues_kept, State.passes_kept, State.toSuspend_kept, State.sliceFails_kept]

theorem State.resolveTwo_kept (s : State) (a b : Issue) (va vb : Verdict) (sa sb : BitVec 64) : (s.resolveTwo a b va vb sa sb).kept = s.kept := by
  unfold State.resolveTwo
  repeat' split
  all_goals simp only [State.foldl_kept, implies_true, State.endIssues_kept, State.toSuspend_kept, State.passes_kept, State.sliceFails_kept]

/-! ## Symmetric -/

theorem State.writeAux_kept (s : State) (j : Job) (off : Nat) (data : Bytes) : (s.writeAux j off data).kept = s.kept := by
  simp only [State.writeAux, State.issue_kept]

theorem State.placeTag_kept (s : State) (j : Job) (tag : Bytes) : (s.placeTag j tag).kept = s.kept := by
  unfold State.placeTag
  repeat' split
  all_goals simp only [State.writeDst_kept, State.writeAux_kept, State.setJob_kept]

theorem State.placeIv_kept (s : State) (j : Job) : (s.placeIv j).kept = s.kept := by
  unfold State.placeIv
  repeat' split
  all_goals simp only [State.writeAux_kept]

theorem State.finishPlain_kept (s : State) (j : Job) : (s.finishPlain j).kept = s.kept := by
  unfold State.finishPlain
  split <;> simp only [State.endJob_kept, State.flow_kept]

theorem State.finishTag_kept (s : State) (j : Job) : (s.finishTag j).kept = s.kept := by
  simp only [State.finishTag, State.placeTag_kept, State.placeIv_kept, State.endJob_kept, State.flow_kept]

theorem State.finishVerify_kept (s : State) (j : Job) : (s.finishVerify j).kept = s.kept := by
  unfold State.finishVerify
  dsimp only
  split <;> simp only [State.setJob_kept, State.endJob_kept, State.flow_kept]

theorem State.judgeOut_kept (s : State) (j : Job) (ok : Bool) : (s.judgeOut j ok).kept = s.kept := by
  unfold State.judgeOut
  split <;> simp only [State.kept_mk, State.kept_eta]

theorem State.finishDecrypt_kept (s : State) (j : Job) : (s.finishDecrypt j).kept = s.kept := by
  unfold State.finishDecrypt
  dsimp only
  split <;> simp only [State.judgeOut_kept, State.setJob_kept, State.endJob_kept, State.flow_kept, State.endJobZ_kept]

theorem State.finishHash_kept (s : State) (j : Job) : (s.finishHash j).kept = s.kept := by
  simp only [State.finishHash, State.writeDst_kept, State.endJob_kept, State.flow_kept]

theorem State.finishWrap_kept (s : State) (j : Job) : (s.finishWrap j).kept = s.kept := by
  simp only [State.finishWrap, State.setJob_kept, State.writeDst_kept, State.endJob_kept, State.flow_kept]

theorem State.readyKey_kept (s : State) (d h : Nat) (m : Bytes) : (s.readyKey d h m).kept = s.kept := by
  simp only [State.readyKey, State.setSlot_kept]

theorem State.finishUnwrap_kept (s : State) (j : Job) : (s.finishUnwrap j).kept = s.kept := by
  unfold State.finishUnwrap
  repeat' split
  all_goals simp only [State.endJob_kept, State.flow_kept, State.setJob_kept, State.readyKey_kept]

/-! ## Basil -/

theorem State.deliverPk_kept (s : State) (x : Nat × Op × Job) : (s.deliverPk x).kept = s.kept := by
  unfold State.deliverPk
  repeat' split
  all_goals simp only [State.failOp_kept, State.suspendSeq_kept, State.setOp_kept]

theorem State.installCurve_kept (s : State) (j : Job) : (s.installCurve j).kept = s.kept := by
  unfold State.installCurve
  split <;> simp only [State.kept_mk, State.kept_eta]

theorem State.storeSecret_kept (s : State) (j : Job) (k : Option Bytes) : (s.storeSecret j k).1.kept = s.kept := by
  unfold State.storeSecret
  repeat' split
  all_goals simp only [State.readyKey_kept]

theorem State.endPk_kept (s : State) (j : Job) (o : Op) (st : Status) (res : Bytes) : (s.endPk j o st res).kept = s.kept := by
  unfold State.endPk
  have h := s.storeSecret_kept j o.secret
  generalize s.storeSecret j o.secret = p at h ⊢
  obtain ⟨u, b⟩ := p
  simp only [State.endJob_kept, State.setJob_kept, State.writeDst_kept, apply_ite State.kept, State.installCurve_kept, h, ite_self]

theorem State.startVerify_kept (s : State) (isB : Bool) (admin : Option (BitVec 17)) (active : Bool) (base len : Nat) :
    (s.startVerify isB admin active base len).kept = s.kept :=
  (State.issue_kept ..).trans (s.setBank_kept isB fun _ => { Bank.none with state := .verifying })

theorem State.setVerify_kept (s : State) (isB : Bool) (f : Verify → Verify) : (s.setVerify isB f).kept = s.kept := by
  simp only [State.setVerify, State.kept_mk, State.kept_eta]

theorem State.packageBytes_kept (s : State) (isB : Bool) (iova : Nat) (data : Bytes) : (s.packageBytes isB iova data).kept = s.kept := by
  unfold State.packageBytes
  dsimp only
  repeat' split
  all_goals simp only [State.setVerify_kept, State.issue_kept]

theorem State.packageFails_kept (s : State) (isB : Bool) (st : Status) : (s.packageFails isB st).kept = s.kept := by
  simp only [State.packageFails, State.killTxns_kept, State.setVerify_kept]

theorem State.endUnbanked_kept (s : State) : s.endUnbanked.kept = s.kept := State.foldl_kept (fun u _ => u.endJob_kept ..) _ s

theorem State.reloadEnd_kept (s : State) (wanted : Bool) (failed : Option Bool) : (s.reloadEnd wanted failed).kept = s.kept := by
  unfold State.reloadEnd
  repeat' split
  all_goals simp only [State.kept_mk, State.kept_eta, State.activateBank_kept, State.ucodeEvent_kept, State.endUnbanked_kept]

theorem State.verified_kept (s : State) (v : Verify) (r : Option Status) : (s.verified v r).kept = s.kept := by
  unfold State.verified
  dsimp only
  repeat' split
  all_goals simp only [State.kept_mk, State.kept_eta, State.setBank_kept, State.setJob_kept, State.endJob_kept, State.flow_kept,
    State.reloadEnd_kept]

theorem State.reloadBank_kept (s : State) (isB active : Bool) : (s.reloadBank isB active).kept = s.kept := by
  unfold State.reloadBank
  split <;> simp only [State.startVerify_kept]

theorem State.countUe_kept (s : State) : s.countUe.kept = s.kept := by
  simp only [State.countUe, State.kept_mk, State.kept_eta]

/-! ## Transfers -/

theorem State.reissue_kept (s : State) (port tag : Nat) (spare : Bool) (got : ReadData) : (s.reissue port tag spare got).kept = s.kept := by
  unfold State.reissue
  split <;> simp only [State.kept_mk, State.kept_eta]

theorem State.testPort_kept (s : State) (p : Nat) : (s.testPort p).kept = s.kept := by
  unfold State.testPort
  dsimp only
  split <;> simp only [State.kept_mk, State.kept_eta, State.setPort_kept, State.useFree_kept]

theorem State.portCompare_kept (s : State) (p k : Nat) (data : Bytes) : (s.portCompare p k data).kept = s.kept := by
  unfold State.portCompare
  split <;> simp only [State.setPort_kept]

theorem State.portTested_kept (s : State) (p : Nat) (pass : Bool) : (s.portTested p pass).kept = s.kept := by
  unfold State.portTested
  split <;> simp only [State.kept_mk, State.kept_eta, State.setPort_kept, State.unitEvent_kept]

theorem State.suspendPort_kept (s : State) (p : Nat) : (s.suspendPort p).kept = s.kept := by
  unfold State.suspendPort
  split
  · rfl
  · dsimp only
    split <;> simp only [State.testPort_kept, apply_ite State.kept, State.addChange_kept _ (.position _) rfl, State.unitEvent_kept,
      State.setPort_kept, ite_self]

theorem State.countPort_kept (s : State) (p : Nat) : (s.countPort p).kept = s.kept := by
  unfold State.countPort
  dsimp only
  split <;> simp only [State.setPort_kept, State.suspendPort_kept]

theorem State.queueInt_kept (s : State) (q : Nat) : (s.queueInt q).kept = s.kept := by
  unfold State.queueInt
  repeat' split
  all_goals simp only [State.setQueue_kept, State.irq_kept]

theorem sendNotices_kept (n : Nat) (s : State) : (sendNotices n s).kept = s.kept := by
  induction n generalizing s with
  | zero => rfl
  | succ n ih =>
    unfold sendNotices
    repeat' split
    · rfl
    · rw [ih]
      rfl
    · rfl

theorem State.notify_kept (s : State) (j : Job) : (s.notify j).kept = s.kept := by
  unfold State.notify
  dsimp only
  rw [apply_ite State.kept, apply_ite State.kept]
  simp only [sendNotices_kept, State.kept_mk, State.kept_eta, ite_self]

theorem State.advanceHead_kept (q n : Nat) (s : State) : (State.advanceHead q n s).kept = s.kept := by
  induction n generalizing s with
  | zero => rfl
  | succ n ih =>
    unfold State.advanceHead
    repeat' split
    · rfl
    · rfl
    · simp only [ih, State.queueInt_kept, State.notify_kept, State.dropJob_kept, State.setQueue_kept]

theorem State.holdCopy_kept (s : State) (q : Nat) (k : EntryCopy) : (s.holdCopy q k).kept = s.kept := by
  simp only [State.holdCopy, State.setQueue_kept]

theorem State.failEntry_kept (s : State) (q : Nat) (c : BitVec 17) (prefetch : Bool) (e : Bytes) (st : Status) :
    (s.failEntry q c prefetch e st).kept = s.kept := by
  unfold State.failEntry
  repeat' split
  all_goals simp only [State.holdCopy_kept]

theorem State.entryStale_kept (s : State) (x : Queue) (c : BitVec 17) : (s.entryStale x c).kept = s.kept := by
  simp only [State.entryStale, State.setQueue_kept, State.event_kept]

theorem State.confirm_kept (s : State) (q : Nat) (c : BitVec 17) (r : Bytes) : (s.confirm q c r).kept = s.kept := by
  simp only [State.confirm, State.disableIdle_kept, State.advanceHead_kept, State.setJob_kept]

theorem State.entryConfirmed_kept (s : State) (q : Nat) (c : BitVec 17) (e : Bytes) : (s.entryConfirmed q c e).kept = s.kept := by
  unfold State.entryConfirmed
  split <;> simp only [State.setQueue_kept, State.confirm_kept]

theorem State.entryBytes_kept (s : State) (q : Nat) (c : BitVec 17) (prefetch : Bool) (e : Bytes) (port : Nat) :
    (s.entryBytes q c prefetch e port).kept = s.kept := by
  unfold State.entryBytes
  repeat' split
  all_goals simp only [State.holdCopy_kept, State.entryStale_kept, State.failEntry_kept, State.entryConfirmed_kept]

theorem State.beatBytes_kept (s : State) (x : Queue) (cs : List (BitVec 17)) (prefetch : Bool) (beat : Bytes) (port : Nat) :
    (s.beatBytes x cs prefetch beat port).kept = s.kept := by
  simp only [State.beatBytes, State.foldl_kept, implies_true, State.entryBytes_kept]

theorem State.failEntries_kept (s : State) (q : Nat) (cs : List (BitVec 17)) (prefetch : Bool) (st : Status) :
    (s.failEntries q cs prefetch st).kept = s.kept := by
  simp only [State.failEntries, State.foldl_kept, implies_true, State.failEntry_kept]

theorem State.beatPoisoned_kept (s : State) (x : Queue) (cs : List (BitVec 17)) (prefetch again : Bool) :
    (s.beatPoisoned x cs prefetch again).kept = s.kept := by
  unfold State.beatPoisoned
  repeat' split
  all_goals simp only [State.failEntries_kept, State.readBeat_kept]

theorem State.noTable_kept (s : State) (q : Nat) (c : BitVec 17) (st : Status) : (s.noTable q c st).kept = s.kept := by
  unfold State.noTable
  split <;> simp only [State.setJob_kept, State.settle_kept, State.endJob_kept]

theorem State.messageStaged_kept (s : State) (j : Job) : (s.messageStaged j).kept = s.kept := by
  unfold State.messageStaged
  split <;> simp only [State.endJob_kept, State.setJob_kept]

theorem State.payloadWhole_kept (s : State) (q : Nat) (c : BitVec 17) (i : Nat) : (s.payloadWhole q c i).kept = s.kept := by
  unfold State.payloadWhole
  repeat' split
  all_goals simp only [State.curveBlock_kept, State.messageStaged_kept, State.sliceStaged_kept]

theorem State.payloadBytes_kept (s : State) (q : Nat) (c : BitVec 17) (i off : Nat) (data : Bytes) (poisoned : Bool) :
    (s.payloadBytes q c i off data poisoned).kept = s.kept := by
  unfold State.payloadBytes
  dsimp only
  repeat' split
  all_goals simp only [State.stopUnits_kept, State.endJob_kept, State.setJob_kept, State.payloadWhole_kept]

theorem State.failLoad_kept (s : State) (l : PostedLoad) (st : Status) : (s.failLoad l st).kept = s.kept := by
  unfold State.failLoad
  dsimp only
  split <;> simp only [State.kept_mk, State.kept_eta, State.foldl_kept, implies_true, State.setDomain_kept, State.eventDM_kept,
    State.endJob_kept, State.dropLoadJob_kept]

theorem State.slicesWritten_kept (s : State) (q : Nat) (c : BitVec 17) : (s.slicesWritten q c).kept = s.kept := by
  simp only [State.slicesWritten, State.setJob_kept]

theorem State.outputAcked_kept (s : State) (q : Nat) (c : BitVec 17) (r : Option (Nat × Nat)) : (s.outputAcked q c r).kept = s.kept := by
  simp only [State.outputAcked, State.setJob_kept, State.slicesWritten_kept, State.settle_kept]

theorem State.saveDone_kept (s : State) (q : Nat) (c : BitVec 17) (older : Bool) : (s.saveDone q c older).kept = s.kept := by
  unfold State.saveDone
  split <;> simp only [State.setCtx_kept, State.retryCtxs_kept]

theorem State.freeLine_kept (s : State) (l : WbLine) : (s.freeLine l).kept = s.kept := by
  simp only [State.freeLine, State.kept_mk, State.kept_eta, State.saveDone_kept]

theorem State.deadDone_kept (s : State) (t : Txn) : (s.deadDone t).kept = s.kept := by
  unfold State.deadDone
  repeat' split
  all_goals simp only [State.settle_kept, State.freeLine_kept]

theorem State.writeDone_kept (s : State) (t : Txn) : (s.writeDone t).kept = s.kept := by
  unfold State.writeDone
  split
  · exact s.deadDone_kept t
  · split
    all_goals simp only [State.outputAcked_kept, State.settle_kept, apply_ite State.kept, State.setJob_kept, ite_self]
    exact s.setDomain_kept _ _ fun x => by split <;> rfl

theorem State.writeOk_kept (s : State) (t : Txn) (port tag : Nat) : (s.writeOk t port tag).kept = s.kept := by
  simp only [State.writeOk, State.endTxn_kept, State.logTxn_kept, State.writeDone_kept, State.flow_kept]

/-! ## Time -/

theorem State.controlEnds_kept (s : State) (c : BitVec 17) (st : Status) : (s.controlEnds c st).kept = s.kept := by
  simp only [State.controlEnds, State.endJob_kept, State.flow_kept]

theorem State.controlDone_kept (s : State) (c : BitVec 17) (x : TimeChange) : (s.controlDone c x).kept = s.kept := by
  simp only [State.controlDone, State.setSage_kept, State.controlEnds_kept]

theorem State.lookKeys_kept (s : State) (j : Job) (hs : List Nat) : (s.lookKeys j hs).1.kept = s.kept := by
  unfold State.lookKeys
  dsimp only
  generalize (handleKeys hs).map _ = ks
  have h := (State.checkKeys_kept (s.setJob 1 j.count fun j => { j with keys := ks, found := false }) j.domain (eOp j.entry) ks .ok).trans
    (s.setJob_kept ..)
  repeat' split
  · rfl
  · rfl
  · simp only [State.askLast_kept, State.setJob_kept]
  · rename_i u heq
    rw [heq] at h
    exact (State.setJob_kept ..).trans h
  · exact h

theorem State.startMessage_kept (s : State) (j : Job) (n : PipeNeeds) (r : Option Status) : (s.startMessage j n r).kept = s.kept := by
  simp only [State.startMessage, State.setJob_kept, State.setSage_kept, State.flow_kept]

theorem State.startFailed_kept (s : State) (j : Job) (st : Status) : (s.startFailed j st).kept = s.kept := by
  simp only [State.startFailed, State.startMessage_kept]

theorem State.startChecked_kept (s : State) (j : Job) (n : PipeNeeds) : (s.startChecked j n).kept = s.kept := by
  unfold State.startChecked
  dsimp only
  repeat' split
  all_goals simp only [State.foldl_kept, implies_true, State.startMessage_kept, State.startFailed_kept, State.charge_kept, State.setSage_kept,
    State.setJob_kept]

theorem State.formed_kept (s : State) (c : BitVec 17) (st : Status) (out : Bytes) : (s.formed c st out).kept = s.kept := by
  simp only [State.formed, State.setSage_kept]

theorem State.drawPrefix_kept (s : State) : s.drawPrefix.1.kept = s.kept := by
  unfold State.drawPrefix
  split
  · rfl
  · have h := s.drbgRequest_kept 16
    generalize s.drbgRequest 16 = p at h ⊢
    obtain ⟨u, b⟩ := p
    dsimp only
    split
    · exact h
    · exact h

theorem State.nextNonce_kept (s : State) (d : Nat) : (s.nextNonce d).1.kept = s.kept := by
  unfold State.nextNonce
  have h := s.drawPrefix_kept
  generalize s.drawPrefix = p at h ⊢
  obtain ⟨u, b⟩ := p
  simp only [apply_ite Prod.fst, apply_ite State.kept, State.drawPrefix_kept, State.setSage_kept, h, ite_self]

theorem State.leavePipe_kept (s : State) (c : BitVec 17) : (s.leavePipe c).kept = s.kept := by
  simp only [State.leavePipe, State.setSage_kept]

theorem State.finishMessage_kept (s : State) (j : Job) (m : PipeMsg) (st : Status) (out : Bytes) (refused : Bool) :
    (s.finishMessage j m st out refused).kept = s.kept :=
  State.kept_of_still (State.finishMessage_still ..)

/-! ## Sage -/

theorem State.freqNow_kept (s : State) : s.freqNow.kept = s.kept := by
  unfold State.freqNow
  dsimp only
  split <;> simp only [State.kept_mk, State.kept_eta]

theorem State.initLoad_kept (s : State) : s.initLoad.kept = s.kept := by
  unfold State.initLoad
  dsimp only
  split <;> simp only [State.setSage_kept]

theorem State.stamp_kept (s : State) (c : Nat) (x : Strobe) : (s.stamp c x).1.kept = s.kept := by
  simp only [State.stamp, apply_ite Prod.fst, apply_ite State.kept, State.event_kept, State.sendAll_kept, State.issue_kept, State.setSage_kept,
    ite_self]

theorem State.ppsEdge_kept (s : State) (n : Nat) (x : Strobe) : (s.ppsEdge n x).kept = s.kept := by
  unfold State.ppsEdge
  have h := s.stamp_kept (16 + n) x
  generalize s.stamp (16 + n) x = p at h ⊢
  obtain ⟨u, ts⟩ := p
  cases ts <;> simp only [apply_ite State.kept, State.acceptInput_kept, h, ite_self]

/-! ## Mailbox -/

theorem State.mailboxAccess_kept (s : State) (src : From) (page off : Nat) : (s.mailboxAccess src page off).kept = s.kept :=
  State.kept_of_still (State.mailboxAccess_still ..)

theorem State.mailboxField_kept (s : State) (src : From) (page off : Nat) (side : Side) (f : Domain → State → State) (h : ∀ x,
    (f x s).kept = s.kept) : (s.mailboxField src page off side f).kept = s.kept := by
  unfold State.mailboxField
  repeat' split
  all_goals simp only [State.mailboxAccess_kept, h]

theorem State.setMailbox_kept (s : State) (d : Nat) (f : Mailbox → Mailbox) (h : ∀ m, (f m).area = m.area) : (s.setMailbox d f).kept = s.kept :=
  s.setDomain_kept _ _ fun x => h x.mailbox

theorem Mailbox.setErr_area (m : Mailbox) (x : Side) : (m.setErr x).area = m.area := by cases x <;> rfl

theorem State.mailboxError_kept (s : State) (page : Nat) (side : Side) (why : Nat) : (s.mailboxError page side why).kept = s.kept :=
  (State.event_kept ..).trans (s.setMailbox_kept _ _ fun m => by cases side <;> rfl)

theorem Mailbox.setFull_area (m : Mailbox) (x : Side) (full : Bool) (tag : BitVec 16) (len : BitVec 11) :
    (m.setFull x full tag len).area = m.area := by cases x <;> rfl

theorem State.post_kept (s : State) (page : Nat) (side : Side) (w : BitVec 32) (x : Domain) : (s.post page side w x).kept = s.kept := by
  simp only [State.post, apply_ite State.kept, State.reenter_kept, State.event_kept, State.mailboxError_kept,
    State.setMailbox_kept _ _ _ fun m => m.setFull_area .., ite_self]

theorem Mailbox.settled_area (m : Mailbox) : m.settled.area = m.area := by
  unfold Mailbox.settled
  split <;> rfl

theorem State.ack_kept (s : State) (page : Nat) (side : Side) (x : Domain) : (s.ack page side x).kept = s.kept := by
  simp only [State.ack, apply_ite State.kept, State.event_kept, State.mailboxError_kept,
    State.setMailbox_kept _ _ _ fun m => (Mailbox.settled_area _).trans (m.setFull_area ..), ite_self]

theorem State.mailboxControl_kept (s : State) (page : Nat) (w : BitVec 32) (x : Domain) : (s.mailboxControl page w x).kept = s.kept := by
  unfold State.mailboxControl
  dsimp only
  split
  · exact s.setMailbox_kept _ _ fun m => Mailbox.settled_area _
  · simp only [apply_ite State.kept, State.setMailbox_kept _ _ _ fun m : Mailbox => m.setErr_area _, State.setMailbox_kept, implies_true, ite_self]
  · exact s.setMailbox_kept _ _ fun m => m.setErr_area _
  · rfl

theorem State.writeMarker_kept (s : State) (x : Domain) : (s.writeMarker x).kept = s.kept :=
  (State.setDomain_kept _ _ _ fun y => by split <;> rfl).trans (s.dirtyWrite_kept ..)

/-! ## Admin -/

theorem State.migrationSet_kept (s : State) (c : BitVec 17) (x : Domain) (m : Migration) : (s.migrationSet c x m).kept = s.kept := by
  simp only [State.migrationSet, implies_true, State.setDomain_kept, State.adminOk_kept]

theorem State.deleteQueue_kept (s : State) (q : Nat) : (s.deleteQueue q).kept = s.kept := by
  simp only [State.deleteQueue, State.kept_mk, State.kept_eta, State.killTxns_kept, State.dropArrivals_kept]

theorem State.stageRecord_kept (s : State) (d : Nat) (r : PlanRec) : (s.stageRecord d r).kept = s.kept := by
  simp only [State.stageRecord, State.kept_mk, State.kept_eta, State.stagePlan_kept]

/-! ## Lines -/

theorem State.restored_kept (s : State) (q : Nat) (c : BitVec 17) (older : Bool) : (s.restored q c older).kept = s.kept := by
  unfold State.restored
  repeat' split
  all_goals simp only [State.setCtx_kept, State.eventDM_kept, State.dropCtxs_kept, State.endJob_kept]

/-! ## Faults -/

theorem State.failOutput_kept (s : State) (q : Nat) (c : BitVec 17) : (s.failOutput q c).kept = s.kept := by
  unfold State.failOutput
  dsimp only
  repeat' split
  all_goals simp only [State.endJob_kept, State.settle_kept, State.setQueue_kept, State.dropOuts_kept, State.setJob_kept]

theorem State.completionLost_kept (s : State) (q : Nat) : (s.completionLost q).kept = s.kept := by
  unfold State.completionLost
  split <;> simp only [State.releaseRange_kept, State.banksDrained_kept]

theorem State.dirtyLost_kept (s : State) (d : Nat) : (s.dirtyLost d).kept = s.kept := by
  unfold State.dirtyLost
  split <;> simp only [implies_true, State.setDomain_kept, State.event_kept]

theorem State.ctxLost_kept (s : State) (q : Nat) (c : BitVec 17) : (s.ctxLost q c).kept = s.kept := by
  unfold State.ctxLost
  repeat' split
  all_goals simp only [State.dropCtxs_kept, State.endJob_kept]

theorem State.failTransfer_kept (s : State) (t : Txn) : (s.failTransfer t).kept = s.kept := by
  unfold State.failTransfer
  repeat' split
  all_goals simp only [State.kept_mk, State.kept_eta, State.deadDone_kept, State.failEntries_kept, State.endJob_kept,
    State.noTable_kept, State.stopUnits_kept, State.ctxLost_kept, State.packageFails_kept, State.failOutput_kept, State.completionLost_kept,
    State.eventsLost_kept, State.dirtyLost_kept, State.freeLine_kept, State.portTested_kept]

theorem State.failTxn_kept (s : State) (t : Txn) : (s.failTxn t).kept = s.kept := by
  simp only [State.failTxn, State.kept_mk, State.kept_eta, State.logTxn_kept, State.failTransfer_kept]

theorem State.endLogged_kept (s : State) (t : Txn) (g : Nat) : (s.endLogged t g).kept = s.kept := by
  simp only [State.endLogged, State.endTxn_kept, State.logTxn_kept]

theorem State.truncated_kept (s : State) (t : Txn) (got : ReadData) : (s.truncated t got).kept = s.kept := by
  unfold State.truncated
  repeat' split
  all_goals simp only [State.failTxn_kept, State.endLogged_kept, State.freeLine_kept, State.reissue_kept]

theorem State.sendAgain_kept (s : State) (t : Txn) : (s.sendAgain t).kept = s.kept := by
  unfold State.sendAgain
  repeat' split
  all_goals simp only [State.endLogged_kept, State.freeLine_kept, State.deadDone_kept, State.failTxn_kept, State.reissue_kept]

theorem State.egressSlice_kept (s : State) (t : Txn) (q : Nat) (c : BitVec 17) (i : Nat) : (s.egressSlice t q c i).kept = s.kept := by
  unfold State.egressSlice
  dsimp only
  repeat' split
  all_goals simp only [State.sendAgain_kept, State.endTxn_kept, State.setJob_kept, State.setSlice_kept, State.endJob_kept, State.restage_kept]

theorem State.poisonLine_kept (s : State) (t : Txn) : (s.poisonLine t).kept = s.kept := by
  simp only [State.poisonLine, State.kept_mk, State.kept_eta]

theorem State.portCut_kept (s : State) (p : Nat) : (s.portCut p).kept = s.kept := by
  simp only [State.portCut, State.foldl_kept, implies_true, State.truncated_kept]

/-! ## Links -/

theorem State.linkSettled_kept (s : State) (d : Nat) : (s.linkSettled d).kept = s.kept := by
  unfold State.linkSettled
  split
  · rw [State.linkLost_kept]
    exact s.filterChanges_kept _ fun c hc => by simp_all [Change.area?]
  · rfl

/-! ## KeyBus -/

theorem State.kbAgain_kept (s : State) (r : KbReq) (errors : Nat) : (s.kbAgain r errors).kept = s.kept := by
  unfold State.kbAgain
  split <;> simp only [State.kbEnd_kept, State.kbRaise_kept]

theorem State.denyLoad_kept (s : State) (d h : Nat) : (s.denyLoad d h).kept = s.kept := by
  unfold State.denyLoad
  dsimp only
  split <;> simp only [State.kept_mk, State.kept_eta, State.foldl_kept, implies_true, State.dropSlot_kept, State.rpFail_kept,
    State.failLoad_kept, State.keyRetry_kept]

theorem State.slotLoaded_kept (s : State) (d h : Nat) (payload : Bytes) : (s.slotLoaded d h payload).kept = s.kept := by
  unfold State.slotLoaded
  dsimp only
  repeat' split
  all_goals simp only [State.fillSlot_kept, State.mintOnLoad_kept, State.keyRetry_kept, State.denyLoad_kept]

theorem State.useWarning_kept (s : State) (d h limit at' g : Nat) : (s.useWarning d h limit at' g).kept = s.kept := by
  unfold State.useWarning
  dsimp only
  split <;> simp only [State.eventDM_kept]

theorem State.pkWarning_kept (s : State) (q : Nat) (c : BitVec 17) : (s.pkWarning q c).kept = s.kept := by
  unfold State.pkWarning
  repeat' split
  all_goals simp only [State.useWarning_kept]

theorem State.pkLoaded_kept (s : State) (q : Nat) (c : BitVec 17) (payload : Bytes) : (s.pkLoaded q c payload).kept = s.kept := by
  unfold State.pkLoaded
  dsimp only
  repeat' split
  all_goals simp only [State.endJob_kept, State.setJob_kept, State.pkWarning_kept]

theorem State.slotGrant_kept (s : State) (d h at' g : Nat) : (s.slotGrant d h at' g).kept = s.kept := by
  unfold State.slotGrant
  dsimp only
  repeat' split
  all_goals simp only [State.setSlot_kept, State.useWarning_kept]

theorem State.jobGrant_kept (s : State) (q : Nat) (c : BitVec 17) (at' g : Nat) : (s.jobGrant q c at' g).kept = s.kept := by
  unfold State.jobGrant
  split <;> simp only [State.endJob_kept, State.setJob_kept, State.pkWarning_kept]

theorem State.setKb_kept (s : State) (l : Nat) (f : KbLane → KbLane) : (s.setKb l f).kept = s.kept := by
  simp only [State.setKb, State.kept_mk, State.kept_eta]

theorem State.sendEcho_kept (s : State) (l : Nat) : (s.sendEcho l).kept = s.kept := by
  simp only [State.sendEcho, State.kept_mk, State.kept_eta]

theorem State.kbDown_kept (s : State) : s.kbDown.kept = s.kept := by
  unfold State.kbDown
  split
  · rfl
  · dsimp only
    rw [State.foldl_kept fun u _ => u.endJob_kept .., State.foldl_kept fun u r => ?_]
    split <;> simp only [State.denyLoad_kept, State.setSlot_kept, State.endJob_kept, State.kbEnd_kept]

theorem State.suspendKb_kept (s : State) (l : Nat) : (s.suspendKb l).kept = s.kept := by
  unfold State.suspendKb
  split <;> simp only [State.foldl_kept, implies_true, State.setKb_kept, State.unitEvent_kept, State.kbAgain_kept, State.sendEcho_kept,
    State.kbDown_kept]

theorem State.askAll_kept (s : State) : s.askAll.kept = s.kept := by
  simp only [State.askAll, State.foldl_kept, implies_true, State.askUses_kept]

theorem State.endKb_kept (s : State) (l : Nat) (pass : Bool) : (s.endKb l pass).kept = s.kept := by
  unfold State.endKb
  split <;> simp only [State.kept_mk, State.kept_eta, State.foldl_kept, implies_true, State.setKb_kept, State.unitEvent_kept,
    State.askAll_kept, State.kbAgain_kept]

theorem State.countLoss_kept (s : State) (l lost bad : Nat) : (s.countLoss l lost bad).kept = s.kept := by
  unfold State.countLoss
  dsimp only
  split <;> simp only [State.setKb_kept, State.suspendKb_kept]

theorem State.kbLost_kept (s : State) (r : KbReq) : (s.kbLost r).kept = s.kept := by
  unfold State.kbLost
  repeat' split
  all_goals simp only [State.endKb_kept, State.kbEnd_kept, State.kbAgain_kept]

theorem State.echoBack_kept (s : State) (r : KbReq) (lane : Nat) (intact : Bool) : (s.echoBack r lane intact).kept = s.kept := by
  unfold State.echoBack
  dsimp only
  repeat' split
  all_goals simp only [State.kbEnd_kept, State.endKb_kept, State.setKb_kept, State.flow_kept, State.sendEcho_kept]

/-! ## JournalRun -/

theorem State.retryDraws_kept (s : State) : s.retryDraws.kept = s.kept := by
  simp only [State.retryDraws, State.foldl_kept, implies_true, State.drawIv_kept]

theorem State.jWriteError_kept (s : State) (r : KbReq) : (s.jWriteError r).kept = s.kept := by
  unfold State.jWriteError
  split <;> simp only [State.kbAgain_kept, State.setMint_kept]

theorem State.recoverySettled_kept (s : State) : s.recoverySettled.kept = s.kept := by
  unfold State.recoverySettled
  split <;> simp only [State.recoveryDone_kept]

/-! ## SelfTest -/

theorem State.setHalves_kept (s : State) (u : LockUnit) (h : Half × Half) : (s.setHalves u h).kept = s.kept := by
  simp only [State.setHalves, State.kept_mk, State.kept_eta]

theorem State.setCell_kept (s : State) (cell : Nat) (on : Bool) : (s.setCell cell on).kept = s.kept := by
  simp only [State.setCell, State.kept_mk, State.kept_eta]

theorem State.setThymeHalf_kept (s : State) (second : Bool) (x : Half) : (s.setThymeHalf second x).kept = s.kept := by
  unfold State.setThymeHalf
  split <;> simp only [State.setHalves_kept, State.unitEvent_kept]

theorem State.beginTest_kept (s : State) (kind i : Nat) : (s.beginTest kind i).kept = s.kept := by
  unfold State.beginTest
  split <;> simp only [State.suspendLane_kept, State.suspendBunch_kept, State.setDillLane_kept, State.suspendSeq_kept, State.suspendPort_kept,
    State.setSage_kept, State.setThymeHalf_kept, State.suspendKb_kept, State.setCell_kept]

theorem State.dropTest_kept (s : State) (t : SelfTest) : (s.dropTest t).kept = s.kept := by
  simp only [State.dropTest, State.kept_mk, State.kept_eta]

theorem State.logTest_kept (s : State) (t : SelfTest) (outcome : Nat) : (s.logTest t outcome).kept = s.kept := by
  simp only [State.logTest, State.kept_mk, State.kept_eta, State.dropTest_kept, State.adminOk_kept]

theorem State.finishTest_kept (s : State) (t : SelfTest) (pass : Bool) : (s.finishTest t pass).kept = s.kept := by
  unfold State.finishTest
  split <;> simp only [State.foldl_kept, apply_ite State.kept, ite_self, implies_true, State.returnLane_kept, State.retireLane_kept,
    State.endDill_kept, State.endSeq_kept, State.portTested_kept, State.setSage_kept, State.event_kept, State.setThymeHalf_kept, State.endKb_kept,
    State.setCell_kept, State.unitEvent_kept]

theorem State.nextTurn_kept (s : State) (t : SelfTest) : (s.nextTurn t).kept = s.kept := by
  unfold State.nextTurn
  split <;> simp only [State.kept_mk, State.kept_eta, State.setThymeHalf_kept, State.setCell_kept]

/-! ## Power -/

theorem State.setMode_kept (s : State) (f : ModeUnit → ModeUnit) : (s.setMode f).kept = s.kept := by
  simp only [State.setMode, State.kept_mk, State.kept_eta]

theorem State.wake_kept (s : State) (cause : Nat) : (s.wake cause).kept = s.kept := by
  unfold State.wake
  dsimp only
  split <;> simp only [State.kept_mk, State.kept_eta]

theorem State.endStartup_kept (s : State) : s.endStartup.kept = s.kept := by
  simp only [State.endStartup, State.setMode_kept]

theorem State.clearSecrets_kept (s : State) : s.clearSecrets.kept = s.kept :=
  s.filterChanges_kept _ fun c hc => Change.area?_of_isDebug (by simpa using hc)

/-! ## Alarm -/

theorem State.abortJob_kept (s : State) (q : Nat) (c : BitVec 17) : (s.abortJob q c).kept = s.kept := by
  unfold State.abortJob
  repeat' split
  all_goals simp only [State.setJob_kept, State.readTable_kept, State.writeDst_kept, State.settle_kept]

theorem State.dropStaged_kept (s : State) : s.dropStaged.kept = s.kept := by
  simp only [State.dropStaged, State.kept_mk, State.kept_eta, State.foldl_kept, implies_true, State.dropLoadJob_kept,
    State.checkHold_kept]

theorem State.zeroLines_kept (s : State) : s.zeroLines.kept = s.kept := by
  simp only [State.zeroLines, State.kept_mk, State.kept_eta]

theorem State.beginAbort_kept (s : State) : s.beginAbort.kept = s.kept := by
  simp only [State.beginAbort, State.foldl_kept, implies_true, State.killTxns_kept, State.zeroLines_kept, State.dropStaged_kept,
    State.abortJob_kept, State.clearSecrets_kept, State.setMode_kept]

/-! ## Modes -/

theorem State.recordChecks_kept (s : State) : s.recordChecks.kept = s.kept := by
  simp only [State.recordChecks, State.setReg_kept]

theorem State.refuseMode_kept (s : State) : s.refuseMode.kept = s.kept := by
  simp only [State.refuseMode, State.setMode_kept]

theorem State.request_kept (s : State) (ms : List Mode) (f : State → State) (h : (f s).kept = s.kept) : (s.request ms f).kept = s.kept := by
  simp only [State.request, apply_ite State.kept, h, State.refuseMode_kept, ite_self]

theorem State.latchGo_kept (s : State) : s.latchGo.kept = s.kept := by
  unfold State.latchGo
  split <;> simp only [State.setMode_kept, State.refuseMode_kept]

theorem State.goRequest_kept (s : State) : s.goRequest.kept = s.kept := by
  refine (State.request_kept _ _ _ ?_).trans s.recordChecks_kept
  simp only [apply_ite State.kept, State.latchGo_kept, State.refuseMode_kept, ite_self]

theorem State.provisionRequest_kept (s : State) : s.provisionRequest.kept = s.kept := by
  refine State.request_kept _ _ _ ?_
  simp only [apply_ite State.kept, State.setMode_kept, State.refuseMode_kept, ite_self]

theorem State.resumeRequest_kept (s : State) : s.resumeRequest.kept = s.kept := by
  unfold State.resumeRequest
  dsimp only
  repeat' split
  all_goals simp only [State.setMode_kept, State.recordChecks_kept, State.refuseMode_kept]

theorem State.enterDrain_kept (s : State) (target : BitVec 4) : (s.enterDrain target).kept = s.kept := by
  simp only [State.enterDrain, State.setMode_kept, State.releaseHolds_kept]

theorem State.drainRequest_kept (t : BitVec 4) (s : State) : (State.drainRequest t s).kept = s.kept := State.request_kept _ _ _ (s.enterDrain_kept t)

theorem State.quiesceRequest_kept (s : State) : s.quiesceRequest.kept = s.kept := State.request_kept _ _ _ rfl

theorem State.enterDebug_kept (s : State) : s.enterDebug.kept = s.kept := by
  simp only [State.enterDebug, implies_true, State.clearSecrets_kept, State.setMode_kept, State.setLovage_kept, State.releaseHolds_kept]

theorem State.idle_kept (s : State) : s.idle.kept = s.kept := by
  unfold State.idle
  split <;> simp only [State.kept_mk, State.kept_eta]

/-! ## Startup -/

theorem State.endStep_kept (s : State) (f : Steps → Steps) : (s.endStep f).kept = s.kept := by
  simp only [State.endStep, State.setMode_kept]

theorem State.mapSpares_kept (s : State) : s.mapSpares.kept = s.kept := by
  simp only [State.mapSpares, State.kept_mk, State.kept_eta, State.useFree_kept]

theorem State.setLocks_kept (s : State) : s.setLocks.kept = s.kept := by
  unfold State.setLocks
  split <;> simp only [State.foldl_kept, implies_true, State.putSetup_kept, State.presentJournal_kept]

theorem State.firstPlan_kept (s : State) : s.firstPlan.kept = s.kept := by
  simp only [State.firstPlan, State.kept_mk, State.kept_eta, State.usePlan_kept]

theorem State.toProvisioning_kept (s : State) : s.toProvisioning.kept = s.kept := by
  unfold State.toProvisioning
  dsimp only
  repeat' split
  all_goals simp only [State.endStartup_kept, State.setMode_kept, State.formatJournal_kept, State.confirmStart_kept, State.releaseHolds_kept,
    State.enterDrain_kept]

theorem State.goFails_kept (s : State) : s.goFails.kept = s.kept := by
  simp only [State.goFails, State.recordChecks_kept, State.setMode_kept]

/-! ## Lovage -/

theorem State.otpReport_kept (s : State) (k : OtpKind) (r : BitVec 8) : (s.otpReport k r).kept = s.kept := by
  simp only [State.otpReport, implies_true, State.setLovage_kept]

theorem State.closeDebug_kept (s : State) : s.closeDebug.kept = s.kept :=
  s.filterChanges_kept _ fun c hc => Change.area?_of_isDebug (by simpa using hc)

theorem State.progStart_kept (s : State) (r : Option (BitVec 8)) (steps : List OtpStep) : (s.progStart r steps).kept = s.kept := by
  unfold State.progStart
  split <;> simp only [State.otpReport_kept, State.otpStart_kept]

theorem State.progSlot_kept (s : State) (index : Nat) : (s.progSlot index).kept = s.kept := by
  unfold State.progSlot
  dsimp only
  split <;> simp only [State.progStart_kept]

theorem State.progDigest_kept (s : State) (mlDsa : Bool) (index : Nat) : (s.progDigest mlDsa index).kept = s.kept := by
  unfold State.progDigest
  split <;> simp only [State.progStart_kept]

theorem State.revokeKey_kept (s : State) (mlDsa : Bool) (index : Nat) : (s.revokeKey mlDsa index).kept = s.kept := by
  unfold State.revokeKey
  split <;> simp only [State.progStart_kept]

theorem State.progCommand_kept (s : State) (v : Nat) : (s.progCommand v).kept = s.kept := by
  unfold State.progCommand
  split <;> simp only [State.progSlot_kept, State.progDigest_kept, State.revokeKey_kept, State.otpReport_kept]

/-! ## Debug -/

theorem State.requestChallenge_kept (s : State) (n : Nat) : (s.requestChallenge n).kept = s.kept := by
  unfold State.requestChallenge
  split
  · rfl
  · have h := s.drbgRequest_kept 16
    generalize s.drbgRequest 16 = p at h ⊢
    obtain ⟨u, b⟩ := p
    dsimp only
    split
    · exact h
    · exact h

theorem State.submit_kept (s : State) : s.submit.kept = s.kept := by
  unfold State.submit
  repeat' split
  all_goals simp only [implies_true, State.setLovage_kept, State.killTxns_kept, State.issue_kept, State.sendAll_kept]

theorem State.debugDrain_kept (s : State) : s.debugDrain.kept = s.kept := by
  unfold State.debugDrain
  dsimp only
  repeat' split
  all_goals simp only [State.setMode_kept, State.enterDrain_kept]

theorem State.grantClass_kept (s : State) (n : Nat) (ret : Bool) : (s.grantClass n ret).kept = s.kept := by
  simp only [State.grantClass, apply_ite State.kept, State.addChange_kept _ (.debug _ _) rfl, State.debugDrain_kept, State.setLovage_kept,
    implies_true, ite_self]

theorem State.openDebug_kept (s : State) (cls : Nat) : (s.openDebug cls).kept = s.kept := by
  unfold State.openDebug
  split <;> simp only [State.grantClass_kept]

theorem State.debugCommand_kept (s : State) (v : Nat) : (s.debugCommand v).kept = s.kept := by
  unfold State.debugCommand
  split <;> simp only [State.requestChallenge_kept, State.submit_kept, State.closeDebug_kept, State.openDebug_kept]

theorem State.clearAlarm_kept (s : State) : s.clearAlarm.kept = s.kept := by
  unfold State.clearAlarm
  split <;> simp only [State.kept_mk, State.kept_eta]

/-! ## LoadKey -/

theorem State.loadDone_kept (s : State) (n : BitVec 32) : (s.loadDone n).kept = s.kept := by
  simp only [State.loadDone, State.kept_mk, State.kept_eta, State.dropLoadJob_kept, State.keyRetry_kept]

theorem State.loadUnwrapped_kept (s : State) (l : PostedLoad) (j : Job) : (s.loadUnwrapped l j).kept = s.kept := by
  unfold State.loadUnwrapped
  repeat' split
  all_goals simp only [State.failLoad_kept, State.readyKey_kept, State.loadDone_kept]

theorem State.runWrapped_kept (s : State) (l : PostedLoad) : (s.runWrapped l).kept = s.kept := by
  unfold State.runWrapped
  have h := s.managerKeys_kept 0x25 l.kek
  generalize s.managerKeys 0x25 l.kek = p at h ⊢
  obtain ⟨u, ks, r⟩ := p
  repeat' split
  all_goals simp_all only [apply_ite State.kept, State.failLoad_kept, State.loadUnwrapped_kept, State.addJob_kept, ite_self, Prod.mk.injEq]

theorem State.loadMembers_kept (s : State) (l : PostedLoad) (r : KeyRec) : (s.loadMembers l r).kept = s.kept := by
  unfold State.loadMembers
  dsimp only
  have h := s.checkKeys_kept l.domain 0 [{ role := .newer, second := true, handle := r.newer, failed := none },
    { role := .older, second := true, handle := r.older, failed := none }] .ok
  split
  · exact s.failLoad_kept ..
  · split <;> rename_i heq <;> rw [heq] at h <;> simp only [State.failLoad_kept, State.loadDone_kept, h]

theorem State.loadStep_kept (s : State) (l : PostedLoad) (r : SlotCheck) : (s.loadStep l r).kept = s.kept := by
  unfold State.loadStep
  repeat' split
  all_goals simp only [State.failLoad_kept, State.loadMembers_kept, State.loadDone_kept, State.runWrapped_kept]

/-! ## Integrity -/

theorem State.slotUncorrectable_kept (s : State) (d h : Nat) : (s.slotUncorrectable d h).kept = s.kept := by
  unfold State.slotUncorrectable
  split <;> simp only [State.foldl_kept, apply_ite State.kept, ite_self, implies_true, State.endJob_kept, State.denyLoad_kept,
    State.dropSlot_kept, State.startLoad_kept]

theorem State.counterUncorrectable_kept (s : State) (d h : Nat) : (s.counterUncorrectable d h).kept = s.kept := by
  unfold State.counterUncorrectable
  dsimp only
  repeat' split
  all_goals simp only [State.setSlot_kept, State.setCtrRec_kept, State.jRead_kept, State.mintOnLoad_kept]

theorem State.contextUncorrectable_kept (s : State) (q : Nat) (c : BitVec 17) : (s.contextUncorrectable q c).kept = s.kept := by
  unfold State.contextUncorrectable
  split <;> simp only [State.eventDM_kept, State.dropCtxs_kept, State.endJob_kept]

theorem State.curveUncorrectable_kept (s : State) (e : Nat) : (s.curveUncorrectable e).kept = s.kept := by
  simp only [State.curveUncorrectable, State.kept_mk, State.kept_eta, State.foldl_kept, implies_true, State.seqCheckFails_kept]

theorem State.testRomFails_kept (s : State) (kind i : Nat) : (s.testRomFails kind i).kept = s.kept := by
  unfold State.testRomFails
  dsimp only
  repeat' split
  all_goals simp only [State.finishTest_kept, State.logTest_kept, State.testResult_kept, State.endSeq_kept]

theorem State.eventUncorrectable_kept (s : State) (d i w : Nat) : (s.eventUncorrectable d i w).kept = s.kept := by
  simp only [State.eventUncorrectable, State.setEvq_kept]

theorem State.halfEvent_kept (s : State) (u : LockUnit) (action : Nat) : (s.halfEvent u action).kept = s.kept := by
  unfold State.halfEvent
  split <;> simp only [State.unitEvent_kept]

theorem State.repeatWork_kept (s : State) (u : LockUnit) : (s.repeatWork u).kept = s.kept := by
  unfold State.repeatWork
  split <;> simp only [State.kept_mk, State.kept_eta]

/-! ## Reads -/

theorem State.latchStatus_kept (s : State) : s.latchStatus.kept = s.kept := by
  simp only [State.latchStatus, State.kept_mk, State.kept_eta]

/-! ## Registers -/

theorem State.writeSetup_kept (s : State) (r : RegSpec) (debug : Bool) (v : Nat) : (s.writeSetup r debug v).kept = s.kept := by
  simp only [State.writeSetup, apply_ite State.kept, State.addChange_kept _ (.setup _ _) rfl, ite_self]

theorem State.clearBits_kept (s : State) (a : Nat) (v : BitVec 64) : (s.clearBits a v).kept = s.kept := by
  unfold State.clearBits
  repeat' split
  all_goals simp only [State.kept_mk, State.kept_eta, implies_true, State.setMode_kept, State.setLovage_kept]

theorem State.writeExpect_kept (s : State) (a : Nat) (v : BitVec 64) : (s.writeExpect a v).kept = s.kept := by
  simp only [State.writeExpect, State.setRp_kept]

theorem State.writeRp_kept (s : State) (src : From) (a size : Nat) (v : BitVec 64) : (s.writeRp src a size v).kept = s.kept := by
  unfold State.writeRp
  repeat' split
  all_goals simp only [State.writeSetup_kept, State.rpCommand_kept, State.writeExpect_kept]

theorem clearQueueBits_kept (src : From) (off size : Nat) (v : BitVec 64) (x : Queue) (s : State) :
    (clearQueueBits src off size v x s).kept = s.kept := by
  unfold clearQueueBits
  repeat' split
  all_goals simp only [State.foreignWrite_kept, State.setQueue_kept]

theorem State.pageRegister_kept (s : State) (src : From) (page off n : Nat) (v : BitVec 64) : (s.pageRegister src page off n v).kept = s.kept := by
  unfold State.pageRegister
  split
  · refine s.mailboxField_kept _ _ _ _ _ fun x => ?_
    simp only [apply_ite State.kept, State.mailboxAccess_kept, State.setMailbox_kept, implies_true, ite_self]
  · split
    · refine s.mailboxField_kept _ _ _ _ _ fun x => ?_
      simp only [apply_ite State.kept, State.setDomain_kept, implies_true, ite_self]
    · simp only [apply_ite State.kept, State.mailboxAccess_kept, ite_self]

theorem State.clearCounter_kept (s : State) (c : RcCounter) : (s.clearCounter c).kept = s.kept := by
  unfold State.clearCounter
  split <;> simp only [State.kept_mk, State.kept_eta]

theorem State.readCounter_kept (s : State) (src : From) (counter : RcCounter) : (s.readCounter src counter).kept = s.kept := by
  unfold State.readCounter
  split <;> simp only [State.emit_kept, State.clearCounter_kept]

end Sys2Proof.Machine
end

section
/-! PROOF. The operations that touch that part: OTP is programmed, credits are written, areas are made, written and dropped. Each keeps the forms that the statements ask for. -/

namespace Sys2Proof.Machine

/-! ## What a command may change of it -/

/-- No bit of a copy of a monotonic word is cleared. -/
def OtpMono.Grows (m n : OtpMono) : Prop := n.a &&& m.a = m.a ∧ n.b &&& m.b = m.b ∧ n.c &&& m.c = m.c

/-- No bit of a copy of a value word is cleared. -/
def OtpVal.Grows (v w : OtpVal) : Prop := w.a.bits &&& v.a.bits = v.a.bits ∧ w.b.bits &&& v.b.bits = v.b.bits

/-- Every credit is a signed 24-bit value (R491). -/
def Kept.Held (k : Kept) : Prop := ∀ x ∈ k.chive ++ k.dill, -8388608 ≤ x.2 ∧ x.2 ≤ 8388607

/-- Every mailbox area is in canonical form. -/
def Kept.Canonical (k : Kept) : Prop := ∀ m ∈ k.areas ++ k.coming, Memory.wf m = true

/-- What a command may do to the kept part: OTP's copies only grow, and credits and areas keep their form. -/
structure Kept.Becomes (k l : Kept) : Prop where
  pending : l.pending = k.pending
  mono : ∀ w, (assocD k.mono w OtpMono.blank).Grows (assocD l.mono w OtpMono.blank)
  vals : ∀ w, (assocD k.vals w OtpVal.blank).Grows (assocD l.vals w OtpVal.blank)
  held : k.Held → l.Held
  canonical : k.Canonical → l.Canonical

theorem and_grows_trans {n : Nat} {a b c : BitVec n} (h : b &&& a = a) (g : c &&& b = b) : c &&& a = a := by
  rw [← h, ← BitVec.and_assoc, g]

theorem OtpMono.Grows.refl (m : OtpMono) : m.Grows m := ⟨BitVec.and_self, BitVec.and_self, BitVec.and_self⟩

theorem OtpVal.Grows.refl (v : OtpVal) : v.Grows v := ⟨BitVec.and_self, BitVec.and_self⟩

theorem OtpMono.Grows.trans {m n o : OtpMono} (h : m.Grows n) (g : n.Grows o) : m.Grows o := by
  obtain ⟨ha, hb, hc⟩ := h
  obtain ⟨ga, gb, gc⟩ := g
  exact ⟨and_grows_trans ha ga, and_grows_trans hb gb, and_grows_trans hc gc⟩

theorem OtpVal.Grows.trans {v w x : OtpVal} (h : v.Grows w) (g : w.Grows x) : v.Grows x :=
  ⟨and_grows_trans h.1 g.1, and_grows_trans h.2 g.2⟩

theorem Kept.Becomes.refl (k : Kept) : k.Becomes k :=
  ⟨rfl, fun _ => .refl _, fun _ => .refl _, fun h => h, fun h => h⟩

theorem Kept.Becomes.trans {k l m : Kept} (h : k.Becomes l) (g : l.Becomes m) : k.Becomes m :=
  ⟨g.pending.trans h.pending, fun w => (h.mono w).trans (g.mono w), fun w => (h.vals w).trans (g.vals w),
    fun c => g.held (h.held c), fun c => g.canonical (h.canonical c)⟩

/-- What a command may make of a state. -/
def State.Keeps (s t : State) : Prop := s.kept.Becomes t.kept

theorem State.Keeps.refl (s : State) : s.Keeps s := Kept.Becomes.refl _

theorem State.Keeps.trans {s t u : State} (h : s.Keeps t) (g : t.Keeps u) : s.Keeps u := Kept.Becomes.trans h g

theorem State.keeps_of_kept {s t : State} (h : t.kept = s.kept) : s.Keeps t := by
  rw [State.Keeps, h]
  exact .refl _

/-- What follows leaves the kept part alone. -/
theorem State.Keeps.and_kept {s t u : State} (h : s.Keeps t) (g : u.kept = t.kept) : s.Keeps u := h.trans (State.keeps_of_kept g)

/-- What came before leaves the kept part alone. -/
theorem State.Keeps.of_kept {s t u : State} (h : t.Keeps u) (g : t.kept = s.kept) : s.Keeps u := (State.keeps_of_kept g).trans h

theorem State.ite_keeps {s t u : State} {c : Prop} [Decidable c] (ht : c → s.Keeps t) (hu : ¬c → s.Keeps u) : s.Keeps (if c then t else u) := by
  split
  · exact ht ‹_›
  · exact hu ‹_›

theorem State.keeps_foldl {α : Type} {f : State → α → State} (h : ∀ (s : State) (x : α), s.Keeps (f s x)) (l : List α) (s : State) : s.Keeps (l.foldl f s) := by
  induction l generalizing s with
  | nil => exact .refl s
  | cons x l ih => exact (h s x).trans (ih _)

/-- Areas and credits may go and OTP may grow, while the queue stays. -/
theorem State.keeps_of_sub {s t : State} (hp : t.pending = s.pending) (hm : ∀ w, (s.lovage.mono' w).Grows (t.lovage.mono' w))
    (hv : ∀ w, (s.lovage.val' w).Grows (t.lovage.val' w)) (hc : ∀ x ∈ t.thyme.chiveCredit, x ∈ s.thyme.chiveCredit)
    (hd : ∀ x ∈ t.thyme.dillCredit, x ∈ s.thyme.dillCredit)
    (ha : ∀ x ∈ t.domains, x ∈ s.domains) (hg : ∀ c ∈ t.admin.changes, c ∈ s.admin.changes) : s.Keeps t := by
  refine ⟨hp, hm, hv, fun h x hx => h x ?_, fun h m hx => h m ?_⟩
  · rw [List.mem_append] at hx ⊢
    exact hx.imp (hc x) (hd x)
  · simp only [State.kept, List.mem_append, List.mem_map, List.mem_filterMap] at hx ⊢
    exact hx.imp (fun ⟨x, hx, e⟩ => ⟨x, ha x hx, e⟩) fun ⟨c, hx, e⟩ => ⟨c, hg c hx, e⟩

/-! ## OTP -/

/-- A read of an association list after a write. -/
theorem assocD_assocSet {κ ν : Type} [BEq κ] [LawfulBEq κ] (l : List (κ × ν)) (k x : κ) (v d : ν) :
    assocD (assocSet l k v) x d = if x == k then v else assocD l x d := by
  unfold assocD
  rw [lookup_assocSet]
  split <;> rfl

theorem or_and_self_left {n : Nat} (a b : BitVec n) : (a ||| b) &&& a = a := by
  rw [BitVec.and_comm, BitVec.and_or_distrib_left, BitVec.and_self]
  ext i
  simp
  tauto

/-- OTP's copies hold what they held. -/
def Lovage.Grows (l k : Lovage) : Prop := (∀ w, (l.mono' w).Grows (k.mono' w)) ∧ ∀ w, (l.val' w).Grows (k.val' w)

theorem Lovage.Grows.refl (l : Lovage) : l.Grows l := ⟨fun _ => .refl _, fun _ => .refl _⟩

theorem Lovage.Grows.trans {l k j : Lovage} (h : l.Grows k) (g : k.Grows j) : l.Grows j :=
  ⟨fun w => (h.1 w).trans (g.1 w), fun w => (h.2 w).trans (g.2 w)⟩

theorem Lovage.grows_of_eq {l k : Lovage} (hm : k.mono = l.mono) (hv : k.vals = l.vals) : l.Grows k := by
  simp only [Lovage.Grows, Lovage.mono', Lovage.val', hm, hv]
  exact Lovage.Grows.refl l

theorem Lovage.program_grows (l : Lovage) (st : OtpStep) (bits : BitVec 32) (decodes : Bool) : l.Grows (l.program st bits decodes) := by
  unfold Lovage.program
  split
  · refine ⟨fun w => ?_, fun w => .refl _⟩
    dsimp only
    unfold Lovage.mono'
    rw [assocD_assocSet]
    split
    · rename_i hw
      rw [beq_iff_eq.1 hw]
      cases st.copy <;> simp [OtpMono.Grows, or_and_self_left]
    · exact .refl _
  · refine ⟨fun w => .refl _, fun w => ?_⟩
    dsimp only
    unfold Lovage.val'
    rw [assocD_assocSet]
    split
    · rename_i hw
      rw [beq_iff_eq.1 hw]
      cases st.copy <;> simp [OtpVal.Grows, or_and_self_left]
    · exact .refl _

theorem Lovage.completeReturn_grows (l : Lovage) : l.Grows l.completeReturn := by
  unfold Lovage.completeReturn
  have hfold (sts : List OtpStep) (k : Lovage) : k.Grows (sts.foldl (fun l st => l.program st st.bits true) k) := by
    induction sts generalizing k with
    | nil => exact .refl k
    | cons st sts ih => exact (k.program_grows ..).trans (ih _)
  split
  · split
    · exact (hfold _ l).trans (Lovage.grows_of_eq rfl rfl)
    · exact .refl l
  · exact .refl l

theorem Lovage.atSense_grows (l : Lovage) : l.Grows l.atSense :=
  (Lovage.grows_of_eq (k := l.derive) rfl rfl).trans (l.derive.completeReturn_grows.trans (Lovage.grows_of_eq rfl rfl))

theorem State.setLovage_keeps {s : State} {f : Lovage → Lovage} (h : s.lovage.Grows (f s.lovage)) : s.Keeps (s.setLovage f) :=
  State.keeps_of_sub rfl h.1 h.2 (fun _ h => h) (fun _ h => h) (fun _ h => h) (fun _ h => h)

/-! ## Credits -/

/-- A value that has saturated lies in the range. -/
theorem satCredit_held (v : Int) : -8388608 ≤ satCredit v ∧ satCredit v ≤ 8388607 := by
  unfold satCredit
  omega

/-- Credits written in the range keep it, and nothing else is touched. -/
theorem State.setCredits_keeps (s : State) (u : LaneKind) (l : List (Nat × Int))
    (h : s.kept.Held → ∀ x ∈ l, -8388608 ≤ x.2 ∧ x.2 ≤ 8388607) : s.Keeps (s.setCredits u l) := by
  cases u
  all_goals
    refine ⟨rfl, fun _ => .refl _, fun _ => .refl _, fun hs x hx => ?_, fun hs => hs⟩
    have hl := h hs x
    have hx' := hs x
    simp only [State.kept, State.setCredits, List.mem_append] at hx hx'
    tauto

/-- An entry of an association list after a write is the one written or an old one. -/
theorem mem_assocSet {κ ν : Type} [BEq κ] {l : List (κ × ν)} {k : κ} {v : ν} {x : κ × ν} (h : x ∈ assocSet l k v) : x.2 = v ∨ x ∈ l := by
  induction l with
  | nil => exact .inl (by rw [List.mem_singleton.1 h])
  | cons y l ih =>
    rw [assocSet] at h
    split at h
    · exact (List.mem_cons.1 h).imp (fun e => by rw [e]) (List.mem_cons_of_mem _)
    · rcases List.mem_cons.1 h with e | hl
      · exact .inr (e ▸ List.mem_cons_self ..)
      · exact (ih hl).imp id (List.mem_cons_of_mem _)

theorem State.mem_credits {s : State} {u : LaneKind} {x : Nat × Int} (h : x ∈ s.credits u) : x ∈ s.kept.chive ++ s.kept.dill := by
  cases u
  · exact List.mem_append_left _ h
  · exact List.mem_append_right _ h

theorem State.addWeights_keeps (s : State) (u : LaneKind) (m : Nat) : s.Keeps (s.addWeights u m) := by
  refine s.setCredits_keeps _ _ fun _ x hx => ?_
  obtain ⟨p, -, rfl⟩ := List.mem_map.1 hx
  dsimp only
  split
  · exact satCredit_held _
  · decide

theorem State.payCredit_keeps (s : State) (u : LaneKind) (d : Nat) : s.Keeps (s.payCredit u d) := by
  refine s.setCredits_keeps _ _ fun hs x hx => ?_
  rcases mem_assocSet hx with e | hx
  · exact e ▸ satCredit_held _
  · exact hs x (State.mem_credits hx)

/-! ## The assignment of a tick -/

theorem State.countSlot_kept' (s : State) (d : Nat) : (s.countSlot d).kept = s.kept := rfl

theorem Guard.use_s (g : Guard) (u : LaneKind) (ps : List Nat) : (g.use u ps).s = g.s := by cases u <;> rfl

theorem Guard.ownSlots_kept (g : Guard) (u : LaneKind) : (g.ownSlots u).s.kept = g.s.kept := by
  unfold Guard.ownSlots
  generalize (g.s.slotsAt g.m u).filter _ = l
  induction l generalizing g with
  | nil => rfl
  | cons x l ih =>
    rw [List.foldl_cons, ih]
    dsimp only
    split <;> simp only [apply_ite Guard.s, apply_ite State.kept, Guard.use_s, State.offer_kept, ite_self]

theorem Guard.borrow_keeps (u : LaneKind) (n : Nat) (ps out : List Nat) (g : Guard) : g.s.Keeps (Guard.borrow u n ps out g).s := by
  induction n generalizing ps out g with
  | zero =>
    unfold Guard.borrow
    exact .refl _
  | succ n ih =>
    cases ps with
    | nil =>
      unfold Guard.borrow
      exact .refl _
    | cons p ps =>
      unfold Guard.borrow
      dsimp only
      split
      · exact .refl _
      · rename_i d _
        split
        · exact ih ..
        · split
          · exact ih ..
          · rename_i l _
            have hoffer : g.s.Keeps (g.s.offer d u g.m false (l, p) none).1 := State.keeps_of_kept (State.offer_kept ..)
            split
            · refine State.Keeps.trans ?_ (ih ..)
              rw [Guard.use_s]
              refine (hoffer.trans (State.payCredit_keeps _ u d)).and_kept ?_
              simp only [apply_ite State.kept, State.countSlot_kept, ite_self]
            · exact hoffer.trans (ih (p :: ps) (d :: out) { g with s := _ })

theorem Guard.unit_keeps (g : Guard) (u : LaneKind) : g.s.Keeps (g.unit u).s := by
  unfold Guard.unit
  dsimp only
  refine State.Keeps.trans ?_ (Guard.borrow_keeps ..)
  refine State.Keeps.of_kept (State.addWeights_keeps ..) ?_
  simp only [apply_ite State.kept, State.foldl_kept, State.countSlot_kept, Guard.ownSlots_kept, implies_true, ite_self]

theorem Guard.chiveTests_kept (g : Guard) : g.chiveTests.s.kept = g.s.kept := by
  unfold Guard.chiveTests
  dsimp only
  rw [State.foldl_kept]
  intro s l
  split <;> simp only [apply_ite State.kept, State.issueTest_kept, ite_self]

theorem Guard.dillTests_kept (g : Guard) : g.dillTests.s.kept = g.s.kept := by
  unfold Guard.dillTests
  dsimp only
  rw [State.foldl_kept]
  intro s l
  split <;> simp only [apply_ite State.kept, State.issueTest_kept, ite_self]

theorem State.shadows_kept (u : LaneKind) (m n : Nat) (other : Nat → Nat → Bool) (ps lanes : List Nat) (ptr : Nat) (s : State) :
    (State.shadows u m n other ps lanes ptr s).1.kept = s.kept := by
  induction ps generalizing lanes ptr s with
  | nil => rfl
  | cons p ps ih =>
    unfold State.shadows
    split
    · exact ih ..
    · split
      · exact ih ..
      · exact (ih ..).trans (State.shadowOn_kept ..)

theorem Guard.shadowAll_kept (g : Guard) : g.shadowAll.s.kept = g.s.kept := by
  unfold Guard.shadowAll
  simp only [State.kept_mk, State.kept_eta, State.shadows_kept]

theorem State.reserveRetries_kept (m : Nat) (cs : List Cand) (s : State) : (State.reserveRetries m cs s).kept = s.kept := by
  induction cs generalizing s with
  | nil => rfl
  | cons c cs ih =>
    unfold State.reserveRetries
    split
    · rfl
    · exact (ih _).trans (State.issuePair_kept ..)

/-- What the guard band makes of a guard: own slots and borrowing on both units, tests and shadows. -/
theorem Guard.assigned_keeps (g : Guard) (b : Bool) :
    g.s.Keeps (if b then ((g.unit .chive).unit .dill).chiveTests.dillTests else (g.unit .chive).unit .dill).shadowAll.s := by
  have hunits : g.s.Keeps ((g.unit .chive).unit .dill).s := (g.unit_keeps .chive).trans (Guard.unit_keeps _ .dill)
  refine hunits.and_kept ?_
  rw [Guard.shadowAll_kept]
  cases b
  · rfl
  · exact (Guard.dillTests_kept _).trans (Guard.chiveTests_kept _)

theorem State.assign_keeps (s : State) (m : Nat) : s.Keeps (s.assign m) :=
  State.Keeps.of_kept (Guard.assigned_keeps _ _) ((State.reserveRetries_kept ..).trans (s.noteEligible_kept m))

theorem State.assignFor_keeps (s : State) (m : Nat) : s.Keeps (s.assignFor m) := by
  unfold State.assignFor
  dsimp only
  refine State.ite_keeps (fun _ => ?_) fun _ => State.ite_keeps (fun _ => State.keeps_of_kept ?_) fun _ => .refl s
  · refine State.Keeps.of_kept ?_ (s.frameStart_kept m)
    refine State.ite_keeps (fun _ => State.keeps_of_kept ?_) fun _ => (State.assign_keeps ..).and_kept (State.assignBasil_kept ..)
    simp only [State.noteBasil_kept, State.noteEligible_kept]
  · simp only [State.placeRestarts_kept, State.noteBasil_kept, State.noteEligible_kept]

theorem State.guardBand_keeps (s : State) (m : Nat) : s.Keeps (s.guardBand m) := (s.assignFor_keeps m).and_kept rfl

/-! ## Changes that take effect -/

theorem mem_insertBy {α : Type} {num : α → Nat} {x y : α} {l : List α} (h : y ∈ insertBy num x l) : y = x ∨ y ∈ l := by
  induction l with
  | nil => exact .inl (List.mem_singleton.1 h)
  | cons z l ih =>
    unfold insertBy at h
    split at h
    · exact List.mem_cons.1 h
    · rcases List.mem_cons.1 h with e | hl
      · exact .inr (e ▸ List.mem_cons_self ..)
      · exact (ih hl).imp id (List.mem_cons_of_mem _)

/-- A change that adds no domain leaves the kept part alone. -/
theorem State.applyChange_kept {s : State} {c : Change} (h : ∀ x e, c ≠ .addDomain x e) : (s.applyChange c).kept = s.kept := by
  unfold State.applyChange
  cases c with
  | addDomain x e => exact absurd rfl (h x e)
  | setup a v => exact s.putSetup_kept a v
  | life st n => exact s.moveLife_kept st n
  | interrupts q v n t u => exact s.setQueue_kept ..
  | settings d b k r a n => exact s.setDomain_kept _ _ fun _ => rfl
  | events d b v p t h l again => simp only [State.checkHold_kept, apply_ite State.kept, State.newRing_kept, State.setEvq_kept, ite_self]
  | linkDown d => exact s.linkLost_kept d
  | flr d => exact s.triggerReset_kept ..
  | resumeLog d => exact s.setDomain_kept _ _ fun _ => rfl
  | revoked a b => exact s.keyRetry_kept
  | rebuild q => exact s.rebuildQueue_kept q
  | pll core => cases core <;> rfl
  | spareRow m w => simp only [apply_ite State.kept, State.kept_mk, State.kept_eta, ite_self]
  | position k =>
    dsimp only
    split
    · simp only [State.unitEvent_kept, State.setPort_kept]
    · rfl
  | debug c r => rfl
  | addQueue x => rfl

/-- A domain that takes effect brings its own area and nothing else. -/
theorem State.applyChange_addDomain (s : State) (x : Domain) (e : EventQ) :
    (s.applyChange (.addDomain x e)).kept = { s.kept with areas := (insertBy (·.num) x s.domains).map (·.mailbox.area) } := by
  unfold State.applyChange
  dsimp only
  split <;> rfl

/-- A change keeps the areas' form when the area that it brings has it. -/
theorem State.applyChange_keeps {s : State} {c : Change} (h : ∀ m, c.area? = some m → Memory.wf m = true) : s.Keeps (s.applyChange c) := by
  cases c with
  | addDomain x e =>
    rw [State.Keeps, s.applyChange_addDomain]
    refine ⟨rfl, fun _ => .refl _, fun _ => .refl _, fun hs => hs, fun hs m hm => ?_⟩
    rcases List.mem_append.1 hm with hm | hm
    · obtain ⟨y, hy, rfl⟩ := List.mem_map.1 hm
      rcases mem_insertBy hy with rfl | hy
      · exact h _ rfl
      · exact hs _ (List.mem_append_left _ (List.mem_map_of_mem hy))
    · exact hs _ (List.mem_append_right _ hm)
  | _ => exact State.keeps_of_kept (State.applyChange_kept (by simp))

theorem State.applyList_keeps {l : List Change} {s : State} (h : ∀ c ∈ l, ∀ m, c.area? = some m → Memory.wf m = true) :
    s.Keeps (l.foldl State.applyChange s) := by
  induction l generalizing s with
  | nil => exact .refl s
  | cons c l ih =>
    obtain ⟨hc, hl⟩ := List.forall_mem_cons.1 h
    exact (State.applyChange_keeps hc).trans (ih hl)

/-- The areas aside, a list of changes leaves the kept part alone. -/
theorem State.applyList_rest (l : List Change) (s : State) :
    let t := l.foldl State.applyChange s
    t.pending = s.pending ∧ t.lovage.mono = s.lovage.mono ∧ t.lovage.vals = s.lovage.vals ∧
      t.thyme.chiveCredit = s.thyme.chiveCredit ∧ t.thyme.dillCredit = s.thyme.dillCredit := by
  induction l generalizing s with
  | nil => exact ⟨rfl, rfl, rfl, rfl, rfl⟩
  | cons c l ih =>
    obtain ⟨h1, h2, h3, h4, h5⟩ := ih (s.applyChange c)
    have h : ∃ as, (s.applyChange c).kept = { s.kept with areas := as } := by
      cases c with
      | addDomain x e => exact ⟨_, s.applyChange_addDomain x e⟩
      | _ => exact ⟨_, State.applyChange_kept (by simp)⟩
    obtain ⟨as, h⟩ := h
    simp only [State.kept, Kept.mk.injEq] at h
    obtain ⟨g1, g2, g3, g4, g5, -, -⟩ := h
    exact ⟨h1.trans g1, h2.trans g2, h3.trans g3, h4.trans g4, h5.trans g5⟩

theorem State.applyChanges_keeps (s : State) : s.Keeps s.applyChanges := by
  unfold State.applyChanges
  dsimp only
  refine State.Keeps.and_kept (t := s.admin.changes.foldl State.applyChange { s with admin := { s.admin with changes := [] } }) ?_
    (State.presentJournal_kept _)
  obtain ⟨h1, h2, h3, h4, h5⟩ := State.applyList_rest s.admin.changes { s with admin := { s.admin with changes := [] } }
  refine ⟨h1, fun w => ?_, fun w => ?_, fun hs x hx => ?_, fun hs => ?_⟩
  · simp only [State.kept, h2]
    exact .refl _
  · simp only [State.kept, h3]
    exact .refl _
  · simp only [State.kept, h4, h5] at hx
    exact hs x hx
  · refine (State.applyList_keeps (s := { s with admin := { s.admin with changes := [] } }) fun c hc m hm => ?_).canonical ?_
    · exact hs m (List.mem_append_right _ (List.mem_filterMap.2 ⟨c, hc, hm⟩))
    · intro m hm
      exact hs m (List.mem_append_left _ (by simpa [State.kept] using hm))

theorem State.soon_keeps (s : State) : s.Keeps s.soon := s.applyChanges_keeps

/-! ## Resets of domains -/

/-- A domain's reset leaves it a fresh mailbox. -/
theorem State.freshMailbox_keeps (s : State) (d : Nat) (f : Domain → Domain) (h : ∀ x, (f x).mailbox.area = []) : s.Keeps (s.setDomain d f) := by
  refine ⟨rfl, fun _ => .refl _, fun _ => .refl _, fun hs => hs, fun hs m hm => ?_⟩
  rcases List.mem_append.1 hm with hm | hm
  · obtain ⟨x, hx, rfl⟩ := List.mem_map.1 hm
    obtain ⟨y, hy, rfl⟩ := List.mem_map.1 hx
    split
    · rw [h]
      exact Memory.wf_nil
    · exact hs _ (List.mem_append_left _ (List.mem_map_of_mem hy))
  · exact hs _ (List.mem_append_right _ hm)

theorem State.beginReset_keeps (s : State) (d : Nat) : s.Keeps (s.beginReset d) := by
  unfold State.beginReset
  dsimp only
  refine State.Keeps.and_kept ?_ ((State.banksDrained_kept _).trans (State.clearEvents_kept ..))
  refine State.Keeps.of_kept (State.freshMailbox_keeps _ _ _ fun _ => rfl) ?_
  simp only [State.kept_mk, State.kept_eta, State.dropArrivals_kept, State.killTxns_kept, State.cutWrites_kept, State.dropEventWrites_kept,
    State.foldl_kept, State.dropLoadJob_kept, State.abandonQueue_kept, implies_true]

theorem State.beginResets_keeps (s : State) : s.Keeps s.beginResets := by
  unfold State.beginResets
  exact State.keeps_foldl (f := fun u (x : Domain) => u.beginReset x.num) (fun u x => u.beginReset_keeps x.num) _ s

theorem State.removeDomain_keeps (s : State) (d : Nat) : s.Keeps (s.removeDomain d) :=
  State.keeps_of_sub rfl (fun _ => .refl _) (fun _ => .refl _) (fun _ h => h) (fun _ h => h) (fun _ h => List.mem_of_mem_filter h) (fun _ h => h)

/-! ## The boundary -/

theorem State.beginTick_keeps (s : State) : s.Keeps s.beginTick := by
  unfold State.beginTick
  dsimp only
  have h : s.Keeps s.resumeUnits.applyChanges.beginResets :=
    (State.Keeps.of_kept s.resumeUnits.applyChanges_keeps s.resumeUnits_kept).trans (State.beginResets_keeps _)
  refine h.and_kept ?_
  simp only [apply_ite State.kept, State.pageDue_kept, State.openProgress_kept, State.retryAsked_kept, State.headReads_kept,
    State.checkQuiet_kept, State.fillStatements_kept, State.stepOverrun_kept, State.tryExchange_kept, State.sweepWindows_kept,
    State.writeBack_kept, State.acceptBells_kept, ite_self]

/-! ## Losses of power -/

theorem State.tearOtp_keeps (s : State) : s.Keeps s.tearOtp := by
  unfold State.tearOtp
  split
  · exact (State.setLovage_keeps ((Lovage.program_grows ..).trans (Lovage.grows_of_eq rfl rfl))).and_kept (State.useFree_kept ..)
  · exact State.keeps_of_kept (s.setLovage_kept _ (fun _ => rfl) fun _ => rfl)

theorem State.losePdMain_keeps (s : State) : s.Keeps s.losePdMain :=
  s.tearOtp_keeps.trans (State.keeps_of_sub rfl (fun _ => .refl _) (fun _ => .refl _) (by simp [State.losePdMain, Thyme.lost, Thyme.reset])
    (by simp [State.losePdMain, Thyme.lost, Thyme.reset]) (by simp [State.losePdMain]) fun _ h => List.mem_of_mem_filter h)

theorem State.losePdTime_keeps (s : State) : s.Keeps s.losePdTime :=
  State.keeps_of_sub rfl (fun _ => .refl _) (fun _ => .refl _) (by simp [State.losePdTime, Thyme.reset]) (by simp [State.losePdTime, Thyme.reset])
    (fun _ h => h) (by simp [State.losePdTime, Admin.reset])

theorem State.resetTo_keeps (s : State) (cause : Nat) (keepTime : Bool) : s.Keeps (s.resetTo cause keepTime) := by
  unfold State.resetTo
  dsimp only
  have h : s.Keeps (if keepTime then s.losePdMain else s.losePdMain.losePdTime) :=
    State.ite_keeps (fun _ => s.losePdMain_keeps) fun _ => s.losePdMain_keeps.trans (State.losePdTime_keeps _)
  exact h.and_kept rfl

theorem State.onlyOtp_keeps (s : State) (m : ModeUnit) (cause : BitVec 6) : s.Keeps (s.onlyOtp m cause) :=
  State.keeps_of_sub rfl (fun _ => .refl _) (fun _ => .refl _) (by simp [State.onlyOtp, State.reset, Thyme.reset])
    (by simp [State.onlyOtp, State.reset, Thyme.reset]) (by simp [State.onlyOtp, State.reset]) (by simp [State.onlyOtp, State.reset, Admin.reset])

theorem State.enterLight_keeps (s : State) : s.Keeps s.enterLight := s.losePdMain_keeps.and_kept rfl

theorem State.enterDeep_keeps (s : State) : s.Keeps s.enterDeep := (s.losePdMain_keeps.trans (State.losePdTime_keeps _)).and_kept rfl

theorem State.resetRequest_keeps (s : State) : s.Keeps s.resetRequest :=
  State.ite_keeps (fun _ => s.resetTo_keeps 3 true) fun _ => State.keeps_of_kept s.refuseMode_kept

theorem State.modeRequest_keeps (s : State) (req : Nat) : s.Keeps (s.modeRequest req) := by
  unfold State.modeRequest
  split
  case h_8 => exact s.resetRequest_keeps
  all_goals
    refine State.keeps_of_kept ?_
    simp only [State.goRequest_kept, State.resumeRequest_kept, State.drainRequest_kept, State.quiesceRequest_kept, State.provisionRequest_kept,
      State.refuseMode_kept]

/-! ## Alarms -/

theorem State.senseInAlarm_keeps (s : State) : s.Keeps s.senseInAlarm := by
  unfold State.senseInAlarm
  dsimp only
  refine (State.setLovage_keeps s.lovage.atSense_grows).and_kept ?_
  simp only [apply_ite State.kept, State.kept_mk, State.kept_eta, State.setLovage_kept, implies_true, ite_self]

theorem State.alarmInStartup_keeps (s : State) : s.Keeps s.alarmInStartup := by
  refine State.Keeps.and_kept (t := if s.mode.steps.s2 then s.endStartup else s.senseInAlarm) ?_ ?_
  · exact State.ite_keeps (fun _ => State.keeps_of_kept s.endStartup_kept) fun _ => s.senseInAlarm_keeps
  · exact (State.setMode_kept ..).trans (State.clearSecrets_kept _)

theorem State.alarmResponse_keeps (s : State) : s.Keeps s.alarmResponse := by
  unfold State.alarmResponse
  split
  · exact .refl s
  · exact .refl s
  · exact s.alarmInStartup_keeps
  · exact s.alarmInStartup_keeps
  all_goals
    refine State.keeps_of_kept ?_
    simp only [State.wake_kept, State.setSage_kept, State.beginAbort_kept]

theorem State.latchAlarm_keeps (s : State) (sources : BitVec 12) : s.Keeps (s.latchAlarm sources) :=
  State.ite_keeps (fun _ => .refl s) fun _ => State.ite_keeps (fun _ => State.keeps_of_kept rfl) fun _ =>
    State.Keeps.of_kept (State.alarmResponse_keeps _) rfl

theorem State.fire_keeps (s : State) (source : Nat) (always : Bool) : s.Keeps (s.fire source always) := by
  unfold State.fire
  dsimp only
  refine State.Keeps.of_kept ?_ (s.setLovage_kept (fun l => { l with hit := l.hit ||| causeBit 12 source, firing := l.firing ||| causeBit 12 source })
    (fun _ => rfl) fun _ => rfl)
  exact State.ite_keeps (fun _ => State.latchAlarm_keeps _ _) fun _ => .refl _

/-! ## Sense and start-up -/

theorem State.readOtp_keeps (s : State) : s.Keeps s.readOtp := by
  unfold State.readOtp
  dsimp only
  have h : s.Keeps (s.setLovage fun l => { l.atSense with firing := l.firing &&& Config.freeValue 12 s.free }) :=
    State.setLovage_keeps (s.lovage.atSense_grows.trans (Lovage.grows_of_eq rfl rfl))
  refine State.ite_keeps (fun _ => State.Keeps.trans ?_ (State.fire_keeps ..)) fun _ => ?_
  all_goals exact h.and_kept rfl

theorem State.endSense_keeps (s : State) : s.Keeps s.endSense := by
  unfold State.endSense
  dsimp only
  refine State.Keeps.of_kept (t := s.mapSpares.endStep fun t => { t with s4 := true }) ?_ ((State.endStep_kept _ _).trans s.mapSpares_kept)
  exact State.ite_keeps (fun _ => State.alarmInStartup_keeps _) fun _ => State.keeps_of_kept rfl

theorem State.loadDomain0_keeps (s : State) : s.Keeps s.loadDomain0 := by
  unfold State.loadDomain0
  dsimp only
  refine State.Keeps.and_kept (t := { s with fennel := { s.fennel with queues := [s.queue0] }, domains := [s.domain0] }) ?_ (State.setEvq_kept ..)
  refine ⟨rfl, fun _ => .refl _, fun _ => .refl _, fun hs => hs, fun hs m hm => ?_⟩
  rcases List.mem_append.1 hm with hm | hm
  · rw [List.mem_singleton.1 hm]
    exact Memory.wf_nil
  · exact hs _ (List.mem_append_right _ hm)

theorem State.toService_keeps (s : State) : s.Keeps s.toService := by
  unfold State.toService
  dsimp only
  have h : s.Keeps (if s.mode.mode == .startup then s.endStartup else s).firstPlan.loadDomain0 :=
    State.Keeps.of_kept (State.loadDomain0_keeps _) (by simp only [State.firstPlan_kept, apply_ite State.kept, State.endStartup_kept, ite_self])
  refine h.and_kept ?_
  simp only [apply_ite State.kept, State.enterDrain_kept, State.releaseHolds_kept, State.checkDegraded_kept, State.kept_mk, State.kept_eta,
    State.setMode_kept, State.setLocks_kept, State.drawPrefix_kept, State.setSage_kept, ite_self]

/-! ## OTP operations -/

theorem State.deriveAfresh_keeps (s : State) : s.Keeps s.deriveAfresh := by
  unfold State.deriveAfresh
  dsimp only
  refine State.Keeps.of_kept ?_ (s.addChange_kept (.life s.lovage.deriveLife s.lovage.deriveLeft) rfl)
  refine State.ite_keeps (fun _ => .refl _) fun _ => ?_
  refine State.Keeps.of_kept (State.ite_keeps (fun _ => State.fire_keeps ..) fun _ => .refl _) ?_
  simp only [State.setLovage_kept, State.closeDebug_kept, implies_true]

theorem State.otpEnd_keeps (s : State) (k : OtpKind) (r : BitVec 8) : s.Keeps (s.otpEnd k r) := by
  unfold State.otpEnd
  dsimp only
  have h : ((s.setLovage fun l => { l with op := none }).otpReport k r).kept = s.kept := by
    simp only [State.otpReport_kept, State.setLovage_kept, implies_true]
  cases k with
  | transition => exact State.Keeps.of_kept (State.deriveAfresh_keeps _) h
  | commit b n =>
    refine State.keeps_of_kept ?_
    simp only [apply_ite State.kept, State.dropOldBanks_kept, State.ucodeEvent_kept, h, ite_self]
  | _ => exact State.keeps_of_kept h

theorem State.startMove_keeps (s : State) (t : Life) (w : Nat) : s.Keeps (s.startMove t w) := by
  unfold State.startMove
  dsimp only
  split
  · refine State.Keeps.of_kept ?_ (s.drbgRequest_kept 16)
    split
    · exact State.ite_keeps (fun _ => State.keeps_of_kept ((State.useFree_kept ..).trans (State.otpStart_kept ..))) fun _ => State.otpEnd_keeps ..
    · exact State.otpEnd_keeps ..
  · exact State.keeps_of_kept (State.otpStart_kept ..)
  · exact State.keeps_of_kept (State.otpStart_kept ..)

theorem State.transition_keeps (code : BitVec 32) (s : State) : s.Keeps (State.transition code s) := by
  have hrefuse (r : BitVec 8) : s.Keeps (s.otpReport .transition r).deriveAfresh :=
    State.Keeps.of_kept (State.deriveAfresh_keeps _) (State.otpReport_kept ..)
  unfold State.transition
  dsimp only
  split
  · exact hrefuse 8
  · split
    · exact hrefuse 9
    · split
      · exact hrefuse _
      · exact s.startMove_keeps ..

/-! ## Lost halves and elements -/

theorem State.halvesChecked_keeps (s : State) (u : LockUnit) : s.Keeps (s.halvesChecked u) :=
  State.ite_keeps (fun _ => s.fire_keeps 10 true) fun _ => .refl s

theorem State.leavePair_keepsForm (s : State) (u : LockUnit) (a b : Bool) : s.Keeps (s.leavePair u a b) := by
  refine State.ite_keeps (fun _ => .refl s) fun _ => State.Keeps.of_kept (State.halvesChecked_keeps _ u) ?_
  exact (State.halfEvent_kept ..).trans (State.setHalves_kept ..)

theorem State.setArea_keeps (s : State) (d : Nat) (f : Mailbox → Mailbox) (h : ∀ m, Memory.wf m.area = true → Memory.wf (f m).area = true) :
    s.Keeps (s.setMailbox d f) := by
  refine ⟨rfl, fun _ => .refl _, fun _ => .refl _, fun hs => hs, fun hs m hm => ?_⟩
  rcases List.mem_append.1 hm with hm | hm
  · obtain ⟨x, hx, rfl⟩ := List.mem_map.1 hm
    obtain ⟨y, hy, rfl⟩ := List.mem_map.1 hx
    have hy := hs _ (List.mem_append_left _ (List.mem_map_of_mem hy))
    dsimp only
    split
    · exact h _ hy
    · exact hy
  · exact hs _ (List.mem_append_right _ hm)

theorem State.areaUncorrectable_keeps (s : State) (d off : Nat) : s.Keeps (s.areaUncorrectable d off) := by
  refine s.setArea_keeps d _ fun m hm => ?_
  rw [Mailbox.setErr_area]
  exact memWrite_zeros_wf _ _ _ hm

theorem State.elementLost_keeps (s : State) (e : Element) : s.Keeps (s.elementLost e) := by
  cases e with
  | thymeState b => exact s.leavePair_keepsForm ..
  | mailboxArea d off => exact s.areaUncorrectable_keeps d off
  | _ =>
    refine State.keeps_of_kept ?_
    simp only [State.elementLost, apply_ite State.kept, State.slotUncorrectable_kept, State.counterUncorrectable_kept, State.endJob_kept,
      State.contextUncorrectable_kept, State.addChange_kept _ (.rebuild _) rfl, State.kept_mk, State.kept_eta, State.seqCheckFails_kept,
      State.curveUncorrectable_kept, State.testRomFails_kept, State.eventUncorrectable_kept, State.setRp_kept, State.rpEnd_kept,
      State.resetModel_kept, ite_self]

/-! ## The register window -/

theorem State.writeCommand_keeps (s : State) (debug : Bool) (a : Nat) (v : BitVec 64) : s.Keeps (s.writeCommand debug a v) := by
  unfold State.writeCommand
  split
  case h_1 => exact State.transition_keeps _ s
  case h_4 => exact s.modeRequest_keeps _
  all_goals
    refine State.keeps_of_kept ?_
    simp only [apply_ite State.kept, State.progCommand_kept, State.debugCommand_kept, State.initLoad_kept, State.clearAlarm_kept,
      State.clearBits_kept, ite_self]

theorem State.windowRegister_keeps (s : State) (src : From) (debug : Bool) (a n : Nat) (v : BitVec 64) :
    s.Keeps (s.windowRegister src debug a n v) := by
  unfold State.windowRegister
  refine State.ite_keeps (fun _ => State.keeps_of_kept ?_) fun _ => ?_
  · simp only [apply_ite State.kept, State.writeRp_kept, ite_self]
  · split
    · refine State.keeps_of_kept ?_
      simp only [apply_ite State.kept, State.writeSetup_kept, ite_self]
    · exact State.ite_keeps (fun _ => s.writeCommand_keeps ..) fun _ => .refl s

theorem State.serve_keeps (s : State) (w : PortAccess) : s.Keeps (s.serve w) := by
  cases w with
  | write src a n v => exact State.ite_keeps (fun _ => s.windowRegister_keeps ..) fun _ => .refl s
  | count src c => exact State.keeps_of_kept (s.readCounter_kept src c)

theorem State.servePort_keeps (s : State) (ws : List PortAccess) : s.Keeps (s.servePort ws) := by
  induction ws generalizing s with
  | nil => exact State.keeps_of_kept (State.setRp_kept ..)
  | cons w ws ih =>
    unfold State.servePort
    refine State.ite_keeps (fun _ => State.keeps_of_kept (State.setRp_kept ..)) fun _ => ?_
    exact State.ite_keeps (fun _ => State.keeps_of_kept (State.setRp_kept ..)) fun _ => (s.serve_keeps w).trans (ih _)

theorem State.drainPort_keeps (s : State) : s.Keeps s.drainPort := s.servePort_keeps _

end Sys2Proof.Machine
end

section
/-! PROOF. Every command keeps the queue and the forms: the statements CommandsLeaveTheQueue, OtpOnlyGrows, MailboxAreasCanonical and BorrowingCreditSaturates. -/

namespace Sys2Proof.Machine

/-! ## Commands -/

/-- A command's answer is a next state that keeps the forms of s. -/
def State.Answers (s : State) (a : Ans) : Prop := ∃ t : State, a = .next t ∧ s.Keeps t

theorem done_answers {s t : State} (h : s.Keeps t) : s.Answers (done t) := ⟨t, rfl, h⟩

theorem guarded_answers {s : State} {b : Bool} {f : State → State} (h : s.Keeps (f s)) : s.Answers (guarded b s f) := by
  cases b
  · exact ⟨s, rfl, .refl s⟩
  · exact ⟨f s, rfl, h⟩

theorem onSome_answers {α : Type} {s : State} {o : Option α} {f : α → State} (h : ∀ x, s.Keeps (f x)) : s.Answers (onSome o s f) := by
  cases o with
  | none => exact ⟨s, rfl, .refl s⟩
  | some x => exact ⟨f x, rfl, h x⟩

theorem State.flow_keeps {s t : State} (h : s.Keeps t) : s.Keeps t.flow := h.and_kept (State.kept_of_still t.flow_still)

theorem State.queueAccess_kept {s : State} (src : From) (q : Nat) {f : Queue → State → State} (h : ∀ x, (f x s).kept = s.kept) :
    (s.queueAccess src q f).kept = s.kept := by
  unfold State.queueAccess
  split
  · rfl
  · split
    · exact h _
    · exact s.foreignWrite_kept src q

theorem State.onTarget_kept {s : State} (j : Job) {f : Domain → State} (h : ∀ x, (f x).kept = s.kept) : (s.onTarget j f).kept = s.kept := by
  unfold State.onTarget
  split
  · exact h _
  · exact s.adminFail_kept ..

theorem State.onQueue_kept {s : State} (j : Job) (off : Nat) {f : Queue → State} (h : ∀ x, (f x).kept = s.kept) :
    (s.onQueue j off f).kept = s.kept := by
  refine State.onTarget_kept j fun _ => ?_
  split
  · exact h _
  · exact s.adminFail_kept ..

theorem State.pageWrite_answers {s : State} (src : From) (q : Nat) {f : Queue → State → State} (h : ∀ x, (f x s).kept = s.kept) :
    s.Answers (s.pageWrite src q f) :=
  guarded_answers (State.flow_keeps (State.keeps_of_kept (State.queueAccess_kept src q h)))

theorem State.mailboxWrite_answers {s : State} (src : From) {f : State → State} (h : s.Keeps (f s)) : s.Answers (s.mailboxWrite src f) :=
  guarded_answers (State.flow_keeps h)

theorem State.mailboxPost_answers {s : State} (src : From) {f : State → State} (h : s.Keeps (f s)) : s.Answers (s.mailboxPost src f) :=
  guarded_answers (State.flow_keeps h)

theorem State.adminDo_answers {s : State} (c : BitVec 17) (op : Nat) (p : Nat → Bool) {f : Job → State} (h : ∀ j, s.Keeps (f j)) :
    s.Answers (s.adminDo c op p f) := onSome_answers fun j => State.flow_keeps (h j)

theorem State.getLog_answers (s : State) (c : BitVec 17) (page : Nat) : s.Answers (s.getLog c page) :=
  State.adminDo_answers c _ _ fun _ => State.keeps_of_kept (s.askPage_kept c)

theorem State.migrationDo_answers {s : State} (c : BitVec 17) (action : Nat) {f : Job → Domain → State} (h : ∀ j x, (f j x).kept = s.kept) :
    s.Answers (s.migrationDo c action f) := by
  refine onSome_answers fun j => State.flow_keeps (State.keeps_of_kept (State.onTarget_kept j fun x => ?_))
  simp only [apply_ite State.kept, State.adminFail_kept, h, ite_self]

theorem State.adminResetDomain_answers (s : State) (c : BitVec 17) (delete : Bool) : s.Answers (s.adminResetDomain c delete) := by
  refine onSome_answers fun j => State.flow_keeps (State.keeps_of_kept (State.onTarget_kept j fun x => ?_))
  simp only [apply_ite State.kept, State.adminFail_kept, State.triggerReset_kept, State.setDomain_kept, State.setJob_kept, implies_true, ite_self]

theorem State.selfTest_answers (s : State) (c : BitVec 17) (kind : Nat) : s.Answers (s.selfTest c kind) := by
  refine onSome_answers fun j => State.flow_keeps (State.keeps_of_kept ?_)
  simp only [apply_ite State.kept, State.adminFail_kept, State.adminOk_kept, State.kept_mk, State.kept_eta, ite_self]

theorem State.modeWrite_answers {s : State} (src : From) (req : BitVec 64) {f : State → State} (h : s.Keeps (f s)) :
    s.Answers (s.modeWrite src req f) :=
  guarded_answers (State.ite_keeps (fun _ => h) fun _ => State.keeps_of_kept (s.holdAccess_kept _))

theorem State.lovageWrite_answers {s : State} (src : From) (addr value : Nat) {f : State → State} (h : s.Keeps (f s)) :
    s.Answers (s.lovageWrite src addr value f) :=
  guarded_answers (State.ite_keeps (fun _ => h) fun _ => State.keeps_of_kept (s.holdAccess_kept _))

theorem State.loadKey_answers (s : State) (c : BitVec 17) (sub : Nat) (kind : LoadKind) : s.Answers (s.loadKey c sub kind) := by
  refine onSome_answers fun j => State.flow_keeps (State.keeps_of_kept (State.onTarget_kept j fun x => ?_))
  simp only [apply_ite State.kept, State.adminFail_kept, State.adminOk_kept, State.setJob_kept, State.kept_mk, State.kept_eta, ite_self]

theorem State.mailboxField_keeps {s : State} (src : From) (page off : Nat) (side : Side) {f : Domain → State → State} (h : ∀ x, s.Keeps (f x s)) :
    s.Keeps (s.mailboxField src page off side f) := by
  refine State.ite_keeps (fun _ => .refl s) fun _ => ?_
  split
  · exact h _
  · exact State.keeps_of_kept (s.mailboxAccess_kept ..)

/-- The change that a domain's event settings make brings no area. -/
theorem eventSettings_area {d o : Nat} {e : Bytes} {restart : Bool} {c : Change} (h : eventSettings d e o restart = some c) : c.area? = none := by
  unfold eventSettings at h
  dsimp only at h
  split at h
  · rw [← Option.some.inj h]
    rfl
  · simp at h

theorem domainSettings_area {d : Nat} {e : Bytes} {restart : Bool} {x : DomainSettings} (h : domainSettings d e restart = .inl x) :
    x.events.area? = none := by
  unfold domainSettings at h
  dsimp only at h
  split at h
  · simp at h
  · simp only [ite_eq_iff, reduceCtorEq, and_false, false_or] at h
    obtain ⟨-, -, -, -, h⟩ := h
    split at h
    · simp at h
    · rename_i hev
      rw [← Sum.inl.inj h]
      exact eventSettings_area hev

/-- A domain that waits to be made brings an empty area. -/
theorem State.addDomain_keeps (s : State) {x : Domain} (h : x.mailbox.area = []) (e : EventQ) : s.Keeps (s.addChange (.addDomain x e)) := by
  refine ⟨rfl, fun _ => .refl _, fun _ => .refl _, fun hs => hs, fun hs m hm => ?_⟩
  simp only [State.kept, State.addChange, List.filterMap_append, List.mem_append] at hm
  rcases hm with hm | hm | hm
  · exact hs _ (List.mem_append_left _ hm)
  · exact hs _ (List.mem_append_right _ hm)
  · have hm : m ∈ [x.mailbox.area] := hm
    rw [h, List.mem_singleton] at hm
    exact hm ▸ Memory.wf_nil

theorem State.rpWrite_answers {s : State} (src : From) {f : State → State} (h : s.Keeps (f s)) : s.Answers (s.rpWrite src f) := guarded_answers h

/-! ## Events -/

theorem execEventWrite_answers (domain : Nat) (s : State) : s.Answers (execEventWrite domain s) :=
  onSome_answers fun _ => State.keeps_of_kept (State.writeEvents_kept ..)

theorem execEventTimeout_answers (domain : Nat) (s : State) : s.Answers (execEventTimeout domain s) :=
  onSome_answers fun _ => State.keeps_of_kept (State.writeEvents_kept ..)

theorem execHeadWordRead_answers (domain : Nat) (w : BitVec 64) (s : State) : s.Answers (execHeadWordRead domain w s) := by
  refine onSome_answers fun _ => State.keeps_of_kept ?_
  simp only [apply_ite State.kept, ite_self, State.endTxn_kept, State.sendAll_kept, State.setEvq_kept]

theorem execEventWriteResponse_answers (port tag : Nat) (s : State) : s.Answers (execEventWriteResponse port tag s) := by
  refine onSome_answers fun _ => State.keeps_of_kept ?_
  simp only [apply_ite State.kept, ite_self, State.endTxn_kept, State.logTxn_kept, State.eventInt_kept, State.sendAll_kept]

/-! ## Queues -/

theorem execDoorbell_answers (src : From) (q : Nat) (w : BitVec 32) (s : State) : s.Answers (execDoorbell src q w s) :=
  State.pageWrite_answers _ _ fun _ => State.bell_kept ..

theorem execDisable_answers (src : From) (q : Nat) (w : BitVec 32) (s : State) : s.Answers (execDisable src q w s) :=
  State.pageWrite_answers _ _ fun _ => State.bell_kept ..

theorem execEnable_answers (src : From) (q : Nat) (w : BitVec 32) (s : State) : s.Answers (execEnable src q w s) :=
  State.pageWrite_answers _ _ fun _ => State.bell_kept ..

theorem execPushWindowWrite_answers (src : From) (q offset : Nat) (data : Bytes) (s : State) : s.Answers (execPushWindowWrite src q offset data s) :=
  State.pageWrite_answers _ _ fun _ => State.pushWrite_kept ..

theorem execPush_answers (q : Nat) (parityError : Bool) (s : State) : s.Answers (execPush q parityError s) := by
  refine onSome_answers fun _ => State.keeps_of_kept ?_
  simp only [State.kept_mk, State.kept_eta, State.acceptPush_kept, State.acceptBells_kept, State.flow_kept]

theorem execPushHalfTimeout_answers (q : Nat) (s : State) : s.Answers (execPushHalfTimeout q s) :=
  onSome_answers fun _ => State.keeps_of_kept (State.dropHalf_kept ..)

/-! ## Ticks -/

theorem execSliceResult_answers (kind : LaneKind) (lane : Nat) (gen : BitVec 12) (verdict : Verdict) (signature : BitVec 64) (s : State) :
    s.Answers (execSliceResult kind lane gen verdict signature s) := by
  refine onSome_answers fun _ => State.keeps_of_kept ?_
  dsimp only
  repeat' split
  all_goals simp only [State.kept_mk, State.kept_eta, State.testResult_kept, State.traceIssue_kept, State.resolveOne_kept, State.flow_kept,
    State.resolveTwo_kept]

/-! ## Symmetric -/

theorem execAesGcmEncrypt_answers (q : Nat) (c : BitVec 17) (s : State) : s.Answers (execAesGcmEncrypt q c s) :=
  onSome_answers fun _ => State.keeps_of_kept (State.finishTag_kept ..)

theorem execAesGcmDecrypt_answers (q : Nat) (c : BitVec 17) (s : State) : s.Answers (execAesGcmDecrypt q c s) :=
  onSome_answers fun _ => State.keeps_of_kept (State.finishDecrypt_kept ..)

theorem execGmacGenerate_answers (q : Nat) (c : BitVec 17) (s : State) : s.Answers (execGmacGenerate q c s) :=
  onSome_answers fun _ => State.keeps_of_kept (State.finishTag_kept ..)

theorem execGmacVerify_answers (q : Nat) (c : BitVec 17) (s : State) : s.Answers (execGmacVerify q c s) :=
  onSome_answers fun _ => State.keeps_of_kept (State.finishVerify_kept ..)

theorem execAesCcmEncrypt_answers (q : Nat) (c : BitVec 17) (s : State) : s.Answers (execAesCcmEncrypt q c s) :=
  onSome_answers fun _ => State.keeps_of_kept (State.finishTag_kept ..)

theorem execAesCcmDecrypt_answers (q : Nat) (c : BitVec 17) (s : State) : s.Answers (execAesCcmDecrypt q c s) :=
  onSome_answers fun _ => State.keeps_of_kept (State.finishDecrypt_kept ..)

theorem execAesXtsEncrypt_answers (q : Nat) (c : BitVec 17) (s : State) : s.Answers (execAesXtsEncrypt q c s) :=
  onSome_answers fun _ => State.keeps_of_kept (State.finishPlain_kept ..)

theorem execAesXtsDecrypt_answers (q : Nat) (c : BitVec 17) (s : State) : s.Answers (execAesXtsDecrypt q c s) :=
  onSome_answers fun _ => State.keeps_of_kept (State.finishPlain_kept ..)

theorem execAesCbcEncrypt_answers (q : Nat) (c : BitVec 17) (s : State) : s.Answers (execAesCbcEncrypt q c s) :=
  onSome_answers fun _ => State.keeps_of_kept (State.finishPlain_kept ..)

theorem execAesCbcDecrypt_answers (q : Nat) (c : BitVec 17) (s : State) : s.Answers (execAesCbcDecrypt q c s) :=
  onSome_answers fun _ => State.keeps_of_kept (State.finishPlain_kept ..)

theorem execAesCtr_answers (q : Nat) (c : BitVec 17) (s : State) : s.Answers (execAesCtr q c s) :=
  onSome_answers fun _ => State.keeps_of_kept (State.finishPlain_kept ..)

theorem execAesSivEncrypt_answers (q : Nat) (c : BitVec 17) (s : State) : s.Answers (execAesSivEncrypt q c s) :=
  onSome_answers fun _ => State.keeps_of_kept (State.finishTag_kept ..)

theorem execAesSivDecrypt_answers (q : Nat) (c : BitVec 17) (s : State) : s.Answers (execAesSivDecrypt q c s) :=
  onSome_answers fun _ => State.keeps_of_kept (State.finishDecrypt_kept ..)

theorem execAesCmacGenerate_answers (q : Nat) (c : BitVec 17) (s : State) : s.Answers (execAesCmacGenerate q c s) :=
  onSome_answers fun _ => State.keeps_of_kept (State.finishTag_kept ..)

theorem execAesCmacVerify_answers (q : Nat) (c : BitVec 17) (s : State) : s.Answers (execAesCmacVerify q c s) :=
  onSome_answers fun _ => State.keeps_of_kept (State.finishVerify_kept ..)

theorem execKeyWrap_answers (q : Nat) (c : BitVec 17) (s : State) : s.Answers (execKeyWrap q c s) :=
  onSome_answers fun _ => State.keeps_of_kept (State.finishWrap_kept ..)

theorem execKeyUnwrap_answers (q : Nat) (c : BitVec 17) (s : State) : s.Answers (execKeyUnwrap q c s) :=
  onSome_answers fun _ => State.keeps_of_kept (State.finishUnwrap_kept ..)

theorem execChacha20Poly1305Encrypt_answers (q : Nat) (c : BitVec 17) (s : State) : s.Answers (execChacha20Poly1305Encrypt q c s) :=
  onSome_answers fun _ => State.keeps_of_kept (State.finishTag_kept ..)

theorem execChacha20Poly1305Decrypt_answers (q : Nat) (c : BitVec 17) (s : State) : s.Answers (execChacha20Poly1305Decrypt q c s) :=
  onSome_answers fun _ => State.keeps_of_kept (State.finishDecrypt_kept ..)

theorem execHash_answers (q : Nat) (c : BitVec 17) (s : State) : s.Answers (execHash q c s) :=
  onSome_answers fun _ => State.keeps_of_kept (State.finishHash_kept ..)

theorem execHmacGenerate_answers (q : Nat) (c : BitVec 17) (s : State) : s.Answers (execHmacGenerate q c s) :=
  onSome_answers fun _ => State.keeps_of_kept (State.finishTag_kept ..)

theorem execHmacVerify_answers (q : Nat) (c : BitVec 17) (s : State) : s.Answers (execHmacVerify q c s) :=
  onSome_answers fun _ => State.keeps_of_kept (State.finishVerify_kept ..)

theorem execEncryptThenMac_answers (q : Nat) (c : BitVec 17) (s : State) : s.Answers (execEncryptThenMac q c s) :=
  onSome_answers fun _ => State.keeps_of_kept (State.finishTag_kept ..)

theorem execVerifyThenDecrypt_answers (q : Nat) (c : BitVec 17) (s : State) : s.Answers (execVerifyThenDecrypt q c s) :=
  onSome_answers fun _ => State.keeps_of_kept (State.finishDecrypt_kept ..)

/-! ## Basil -/

theorem execBasilOperationEnd_answers (seq : Nat) (s : State) : s.Answers (execBasilOperationEnd seq s) := by
  refine onSome_answers fun _ => State.keeps_of_kept ?_
  dsimp only
  split <;> simp only [State.clearOp_kept, State.endPk_kept, State.banksDrained_kept, State.checkQuiet_kept, State.flow_kept]

theorem execCandidateBudgetExhausted_answers (seq : Nat) (s : State) : s.Answers (execCandidateBudgetExhausted seq s) := by
  refine onSome_answers fun _ => State.keeps_of_kept ?_
  dsimp only
  repeat' split
  all_goals simp only [State.setOp_kept, State.ucodeEvent_kept]

theorem execRsaPrivate_answers (q : Nat) (c : BitVec 17) (s : State) : s.Answers (execRsaPrivate q c s) :=
  onSome_answers fun _ => State.keeps_of_kept (State.deliverPk_kept ..)

theorem execRsaPublic_answers (q : Nat) (c : BitVec 17) (s : State) : s.Answers (execRsaPublic q c s) :=
  onSome_answers fun _ => State.keeps_of_kept (State.deliverPk_kept ..)

theorem execEcdsaSign_answers (q : Nat) (c : BitVec 17) (s : State) : s.Answers (execEcdsaSign q c s) :=
  onSome_answers fun _ => State.keeps_of_kept (State.deliverPk_kept ..)

theorem execEcdsaVerify_answers (q : Nat) (c : BitVec 17) (s : State) : s.Answers (execEcdsaVerify q c s) :=
  onSome_answers fun _ => State.keeps_of_kept (State.deliverPk_kept ..)

theorem execEcdh_answers (q : Nat) (c : BitVec 17) (s : State) : s.Answers (execEcdh q c s) :=
  onSome_answers fun _ => State.keeps_of_kept (State.deliverPk_kept ..)

theorem execKeyGeneration_answers (q : Nat) (c : BitVec 17) (s : State) : s.Answers (execKeyGeneration q c s) :=
  onSome_answers fun _ => State.keeps_of_kept (State.deliverPk_kept ..)

theorem execEddsaSign_answers (q : Nat) (c : BitVec 17) (s : State) : s.Answers (execEddsaSign q c s) :=
  onSome_answers fun _ => State.keeps_of_kept (State.deliverPk_kept ..)

theorem execEddsaVerify_answers (q : Nat) (c : BitVec 17) (s : State) : s.Answers (execEddsaVerify q c s) :=
  onSome_answers fun _ => State.keeps_of_kept (State.deliverPk_kept ..)

theorem execX25519_answers (q : Nat) (c : BitVec 17) (s : State) : s.Answers (execX25519 q c s) :=
  onSome_answers fun _ => State.keeps_of_kept (State.deliverPk_kept ..)

theorem execMlKemKeyGeneration_answers (q : Nat) (c : BitVec 17) (s : State) : s.Answers (execMlKemKeyGeneration q c s) :=
  onSome_answers fun _ => State.keeps_of_kept (State.deliverPk_kept ..)

theorem execMlKemEncapsulation_answers (q : Nat) (c : BitVec 17) (s : State) : s.Answers (execMlKemEncapsulation q c s) :=
  onSome_answers fun _ => State.keeps_of_kept (State.deliverPk_kept ..)

theorem execMlKemDecapsulation_answers (q : Nat) (c : BitVec 17) (s : State) : s.Answers (execMlKemDecapsulation q c s) :=
  onSome_answers fun _ => State.keeps_of_kept (State.deliverPk_kept ..)

theorem execMlDsaKeyGeneration_answers (q : Nat) (c : BitVec 17) (s : State) : s.Answers (execMlDsaKeyGeneration q c s) :=
  onSome_answers fun _ => State.keeps_of_kept (State.deliverPk_kept ..)

theorem execMlDsaSign_answers (q : Nat) (c : BitVec 17) (s : State) : s.Answers (execMlDsaSign q c s) :=
  onSome_answers fun _ => State.keeps_of_kept (State.deliverPk_kept ..)

theorem execMlDsaVerify_answers (q : Nat) (c : BitVec 17) (s : State) : s.Answers (execMlDsaVerify q c s) :=
  onSome_answers fun _ => State.keeps_of_kept (State.deliverPk_kept ..)

theorem execCurveLoad_answers (q : Nat) (c : BitVec 17) (s : State) : s.Answers (execCurveLoad q c s) :=
  onSome_answers fun _ => State.keeps_of_kept (State.deliverPk_kept ..)

theorem execTimeStatementRequest_answers (q : Nat) (c : BitVec 17) (s : State) : s.Answers (execTimeStatementRequest q c s) :=
  onSome_answers fun _ => State.keeps_of_kept (State.setOp_kept ..)

theorem execMicrocodeVerificationEnd_answers (s : State) : s.Answers (execMicrocodeVerificationEnd s) :=
  onSome_answers fun _ => State.keeps_of_kept (State.verified_kept ..)

theorem execMicrocodeReload_answers (s : State) : s.Answers (execMicrocodeReload s) := by
  refine guarded_answers (State.keeps_of_kept ?_)
  simp only [apply_ite State.kept, ite_self, State.reloadBank_kept, State.reloadEnd_kept, State.sendAll_kept]

theorem execMicrocodeBankUncorrectable_answers (bankB : Bool) (s : State) : s.Answers (execMicrocodeBankUncorrectable bankB s) := by
  refine guarded_answers (State.keeps_of_kept ?_)
  simp only [apply_ite State.kept, ite_self, State.countUe_kept, State.setBank_kept, State.reloadBank_kept, State.reloadEnd_kept, State.flow_kept]

/-! ## Transfers -/

theorem execEntryReadResponse_answers (port tag : Nat) (data : ReadData) (s : State) : s.Answers (execEntryReadResponse port tag data s) := by
  refine onSome_answers fun _ => State.keeps_of_kept ?_
  dsimp only
  split <;> simp only [State.endTxn_kept, State.beatBytes_kept, State.beatPoisoned_kept, State.flow_kept]

theorem execAuxBlockReadResponse_answers (port tag : Nat) (data : ReadData) (s : State) : s.Answers (execAuxBlockReadResponse port tag data s) := by
  refine onSome_answers fun _ => State.keeps_of_kept ?_
  dsimp only
  repeat' split
  all_goals simp only [State.endTxn_kept, State.endJob_kept, State.setJob_kept, State.auxBytes_kept, State.flow_kept]

theorem execFragmentTableReadResponse_answers (port tag : Nat) (data : ReadData) (s : State) :
    s.Answers (execFragmentTableReadResponse port tag data s) := by
  refine onSome_answers fun _ => State.keeps_of_kept ?_
  simp only [apply_ite State.kept, ite_self, State.endTxn_kept, State.noTable_kept, State.tableBytes_kept, State.flow_kept]

theorem execPayloadReadResponse_answers (port tag : Nat) (data : ReadData) (s : State) : s.Answers (execPayloadReadResponse port tag data s) := by
  refine onSome_answers fun _ => State.keeps_of_kept ?_
  split <;> simp only [State.kept_mk, State.kept_eta, apply_ite State.kept, ite_self, State.endTxn_kept, State.payloadBytes_kept, State.flow_kept,
    State.packageFails_kept, State.packageBytes_kept, State.portCompare_kept, State.sendAll_kept]

theorem execCompletionConfirm_answers (port tag : Nat) (s : State) : s.Answers (execCompletionConfirm port tag s) := by
  refine onSome_answers fun _ => State.keeps_of_kept ?_
  simp only [apply_ite State.kept, ite_self, State.endTxn_kept, State.logTxn_kept, State.sendAll_kept, State.confirm_kept, State.flow_kept]

theorem execCoalescingTimer_answers (q : Nat) (s : State) : s.Answers (execCoalescingTimer q s) :=
  onSome_answers fun _ => State.keeps_of_kept (State.queueInt_kept ..)

theorem execP2Credit_answers (s : State) : s.Answers (execP2Credit s) := by
  refine done_answers (State.keeps_of_kept ?_)
  simp only [State.kept_mk, State.kept_eta, sendNotices_kept]

/-! ## Time -/

theorem execAdjust_answers (c : BitVec 17) (s : State) : s.Answers (execAdjust c s) := by
  refine onSome_answers fun _ => State.keeps_of_kept ?_
  simp only [apply_ite State.kept, ite_self, State.controlDone_kept, State.controlEnds_kept]

theorem execStep_answers (c : BitVec 17) (s : State) : s.Answers (execStep c s) := by
  refine onSome_answers fun _ => State.keeps_of_kept ?_
  dsimp only
  split <;> simp only [apply_ite State.kept, ite_self, State.controlEnds_kept, State.setSage_kept]

theorem execSample_answers (c : BitVec 17) (s : State) : s.Answers (execSample c s) := by
  refine onSome_answers fun _ => State.keeps_of_kept ?_
  simp only [apply_ite State.kept, ite_self, State.controlEnds_kept, State.controlDone_kept]

theorem execModeSelect_answers (c : BitVec 17) (s : State) : s.Answers (execModeSelect c s) :=
  onSome_answers fun _ => State.keeps_of_kept (State.controlDone_kept ..)

theorem execUtc_answers (c : BitVec 17) (s : State) : s.Answers (execUtc c s) :=
  onSome_answers fun _ => State.keeps_of_kept (State.controlDone_kept ..)

theorem execKeyEntry_answers (c : BitVec 17) (s : State) : s.Answers (execKeyEntry c s) := by
  refine onSome_answers fun _ => State.keeps_of_kept ?_
  dsimp only
  repeat' split
  all_goals simp only [State.controlDone_kept, State.controlEnds_kept, State.lookKeys_kept, State.flow_kept]

theorem execPipelineStart_answers (c : BitVec 17) (s : State) : s.Answers (execPipelineStart c s) := by
  refine onSome_answers fun _ => State.keeps_of_kept ?_
  dsimp only
  repeat' split
  all_goals simp only [State.startFailed_kept, State.lookKeys_kept, State.flow_kept, State.startChecked_kept]

theorem execPtpEgress_answers (c : BitVec 17) (s : State) : s.Answers (execPtpEgress c s) := by
  refine onSome_answers fun _ => State.keeps_of_kept ?_
  dsimp only
  repeat' split
  all_goals simp only [State.formed_kept]

theorem execPtpIngressVerify_answers (c : BitVec 17) (s : State) : s.Answers (execPtpIngressVerify c s) := by
  refine onSome_answers fun _ => State.keeps_of_kept ?_
  dsimp only
  split <;> simp only [State.formed_kept]

theorem execNtsClientRequest_answers (c : BitVec 17) (s : State) : s.Answers (execNtsClientRequest c s) := by
  refine onSome_answers fun x => State.keeps_of_kept ?_
  obtain ⟨j, m⟩ := x
  dsimp only
  have h := s.nextNonce_kept j.domain
  generalize s.nextNonce j.domain = p at h ⊢
  obtain ⟨u, n⟩ := p
  cases n <;> simp only [State.formed_kept, h]

theorem execNtsClientResponseVerify_answers (c : BitVec 17) (s : State) : s.Answers (execNtsClientResponseVerify c s) := by
  refine onSome_answers fun _ => State.keeps_of_kept ?_
  dsimp only
  repeat' split
  all_goals simp only [State.formed_kept]

theorem execNtsServerExchange_answers (c : BitVec 17) (s : State) : s.Answers (execNtsServerExchange c s) := by
  refine onSome_answers fun x => State.keeps_of_kept ?_
  obtain ⟨j, m⟩ := x
  dsimp only
  split
  · exact s.formed_kept ..
  · have h := s.nextNonce_kept j.domain
    generalize s.nextNonce j.domain = p at h ⊢
    obtain ⟨u, n⟩ := p
    cases n with
    | none => exact (u.formed_kept ..).trans h
    | some n =>
      have g := u.nextNonce_kept j.domain
      dsimp only
      generalize u.nextNonce j.domain = p at g ⊢
      obtain ⟨v, n2⟩ := p
      cases n2 <;> simp only [State.formed_kept, g, h]

theorem execPipelineHandover_answers (c : BitVec 17) (refused verdictOk : Bool) (s : State) :
    s.Answers (execPipelineHandover c refused verdictOk s) := by
  refine onSome_answers fun _ => State.keeps_of_kept ?_
  simp only [apply_ite State.kept, ite_self, State.leavePipe_kept, State.endJob_kept, State.flow_kept, State.setJob_kept, State.finishMessage_kept]

theorem execFence_answers (q : Nat) (c : BitVec 17) (s : State) : s.Answers (execFence q c s) := by
  refine onSome_answers fun _ => State.keeps_of_kept ?_
  simp only [State.endJob_kept, State.flow_kept]

theorem execNoOp_answers (q : Nat) (c : BitVec 17) (s : State) : s.Answers (execNoOp q c s) := by
  refine onSome_answers fun _ => State.keeps_of_kept ?_
  simp only [State.endJob_kept, State.flow_kept]

/-! ## Sage -/

theorem execHoldoverEntry_answers (s : State) : s.Answers (execHoldoverEntry s) := by
  refine guarded_answers (State.keeps_of_kept ?_)
  simp only [apply_ite State.kept, ite_self, State.resetModel_kept, State.servoTo_kept, State.requestFreq_kept, State.freqNow_kept]

theorem execTemperatureSample_answers (theta : Int) (s : State) : s.Answers (execTemperatureSample theta s) := by
  refine guarded_answers (State.keeps_of_kept ?_)
  simp only [apply_ite State.kept, ite_self, State.setSage_kept, State.requestFreq_kept]

theorem execStepApplied_answers (s : State) : s.Answers (execStepApplied s) := by
  refine onSome_answers fun _ => State.keeps_of_kept ?_
  split <;> simp only [State.applyStep_kept, State.setSage_kept]

theorem execSgInitLoad_answers (src : From) (s : State) : s.Answers (execSgInitLoad src s) := by
  refine guarded_answers (State.keeps_of_kept ?_)
  simp only [State.inTurn_kept, State.initLoad_kept]

theorem execLeap_answers (s : State) : s.Answers (execLeap s) := guarded_answers (State.keeps_of_kept (State.setSage_kept ..))

theorem execCounterReturn_answers (counterB : Bool) (s : State) : s.Answers (execCounterReturn counterB s) := by
  unfold execCounterReturn
  exact guarded_answers (State.keeps_of_kept ((State.event_kept ..).trans (s.setSage_kept _)))

theorem execTimestampStrobe_answers (ch : Nat) (strobe : Strobe) (s : State) : s.Answers (execTimestampStrobe ch strobe s) :=
  guarded_answers (State.keeps_of_kept (State.stamp_kept ..))

theorem execPpsOutputEdge_answers (n : Nat) (s : State) : s.Answers (execPpsOutputEdge n s) := by
  refine onSome_answers fun _ => State.keeps_of_kept ?_
  simp only [State.setSage_kept, State.emit_kept]

/-! ## Mailbox -/

theorem execMbT2mDb_answers (src : From) (page : Nat) (w : BitVec 32) (s : State) : s.Answers (execMbT2mDb src page w s) := by
  refine State.mailboxPost_answers _ (State.keeps_of_kept ?_)
  simp only [implies_true, State.mailboxField_kept, State.post_kept]

theorem execMbM2tDb_answers (src : From) (page : Nat) (w : BitVec 32) (s : State) : s.Answers (execMbM2tDb src page w s) := by
  refine State.mailboxPost_answers _ (State.keeps_of_kept ?_)
  simp only [implies_true, State.mailboxField_kept, State.post_kept]

theorem execT2mAck_answers (src : From) (page : Nat) (s : State) : s.Answers (execT2mAck src page s) := by
  refine State.mailboxWrite_answers _ (State.keeps_of_kept ?_)
  simp only [implies_true, State.mailboxField_kept, State.ack_kept]

theorem execM2tAck_answers (src : From) (page : Nat) (s : State) : s.Answers (execM2tAck src page s) := by
  refine State.mailboxWrite_answers _ (State.keeps_of_kept ?_)
  simp only [implies_true, State.mailboxField_kept, State.ack_kept]

theorem execMailboxDisable_answers (src : From) (page : Nat) (w : BitVec 32) (s : State) : s.Answers (execMailboxDisable src page w s) := by
  refine State.mailboxWrite_answers _ (State.keeps_of_kept ?_)
  simp only [implies_true, State.mailboxField_kept, State.mailboxControl_kept]

theorem execMailboxEnable_answers (src : From) (page : Nat) (w : BitVec 32) (s : State) : s.Answers (execMailboxEnable src page w s) := by
  refine State.mailboxWrite_answers _ (State.keeps_of_kept ?_)
  simp only [implies_true, State.mailboxField_kept, State.mailboxControl_kept]

theorem execMailboxAreaWrite_answers (src : From) (page offset : Nat) (data : Bytes) (s : State) :
    s.Answers (execMailboxAreaWrite src page offset data s) := by
  refine State.mailboxWrite_answers _ ?_
  split
  · exact State.keeps_of_kept (s.mailboxAccess_kept ..)
  · rename_i side hside
    refine State.mailboxField_keeps _ _ _ _ fun x => ?_
    refine State.ite_keeps (fun _ => State.keeps_of_kept (s.mailboxError_kept ..)) fun _ => s.setArea_keeps page _ fun m hm => ?_
    refine memWrite_wf _ _ _ hm ?_
    unfold areaSide at hside
    split at hside
    · omega
    · simp only [Option.ite_none_right_eq_some, Bool.and_eq_true, decide_eq_true_eq] at hside
      omega

theorem execDirtyLogRecordWrite_answers (domain : Nat) (s : State) : s.Answers (execDirtyLogRecordWrite domain s) := by
  refine guarded_answers (State.keeps_of_kept ?_)
  simp only [State.dirtyStep_kept, State.sendAll_kept]

theorem execOverflowClear_answers (src : From) (page : Nat) (s : State) : s.Answers (execOverflowClear src page s) := by
  refine State.mailboxWrite_answers _ (State.keeps_of_kept (State.mailboxField_kept _ _ _ _ _ _ fun x => ?_))
  simp only [apply_ite State.kept, State.addChange_kept _ (.resumeLog page) rfl, State.setDomain_kept, implies_true, ite_self]

theorem execStopped_answers (domain : Nat) (s : State) : s.Answers (execStopped domain s) := by
  refine onSome_answers fun _ => State.keeps_of_kept ?_
  split <;> simp only [implies_true, State.writeMarker_kept, State.sendAll_kept, State.setDomain_kept, State.event_kept]

/-! ## Admin -/

theorem execIdentify_answers (c : BitVec 17) (s : State) : s.Answers (execIdentify c s) :=
  State.adminDo_answers _ _ _ fun _ => State.keeps_of_kept (State.adminWrite_kept ..)

theorem execGetLogDeferredError_answers (c : BitVec 17) (s : State) : s.Answers (execGetLogDeferredError c s) := State.getLog_answers _ _ _

theorem execGetLogPlan_answers (c : BitVec 17) (s : State) : s.Answers (execGetLogPlan c s) := State.getLog_answers _ _ _

theorem execGetLogMigrationState_answers (c : BitVec 17) (s : State) : s.Answers (execGetLogMigrationState c s) := by
  refine State.adminDo_answers _ _ _ fun _ => State.keeps_of_kept ?_
  simp only [implies_true, State.onTarget_kept, State.askPage_kept]

theorem execGetLogSelfTest_answers (c : BitVec 17) (s : State) : s.Answers (execGetLogSelfTest c s) := State.getLog_answers _ _ _

theorem execGetFeaturesInterruptCoalescing_answers (c : BitVec 17) (s : State) : s.Answers (execGetFeaturesInterruptCoalescing c s) := by
  refine State.adminDo_answers _ _ _ fun _ => State.keeps_of_kept ?_
  simp only [implies_true, State.onQueue_kept, State.adminWrite_kept]

theorem execGetFeaturesEventQueue_answers (c : BitVec 17) (s : State) : s.Answers (execGetFeaturesEventQueue c s) := by
  refine State.adminDo_answers _ _ _ fun _ => State.keeps_of_kept ?_
  simp only [implies_true, State.onTarget_kept, State.adminWrite_kept]

theorem execGetFeaturesMigrationControl_answers (c : BitVec 17) (s : State) : s.Answers (execGetFeaturesMigrationControl c s) := by
  refine State.adminDo_answers _ _ _ fun _ => State.keeps_of_kept ?_
  simp only [implies_true, State.onTarget_kept, State.adminWrite_kept]

theorem execSetFeaturesInterruptCoalescing_answers (c : BitVec 17) (s : State) : s.Answers (execSetFeaturesInterruptCoalescing c s) := by
  refine State.adminDo_answers _ _ _ fun j => State.keeps_of_kept (State.onQueue_kept _ _ fun x => ?_)
  exact (State.adminOk_kept ..).trans (s.addChange_kept _ rfl)

theorem execSetFeaturesEventQueue_answers (c : BitVec 17) (s : State) : s.Answers (execSetFeaturesEventQueue c s) := by
  refine State.adminDo_answers _ _ _ fun j => State.keeps_of_kept (State.onTarget_kept _ fun x => ?_)
  split
  · rename_i ch h
    exact (State.adminOk_kept ..).trans (s.addChange_kept _ (eventSettings_area h))
  · exact s.adminFail_kept ..

theorem execLogStart_answers (c : BitVec 17) (s : State) : s.Answers (execLogStart c s) := by
  refine State.migrationDo_answers _ _ fun _ _ => ?_
  simp only [apply_ite State.kept, ite_self, State.adminRefuse_kept, State.adminFail_kept, State.migrationSet_kept]

theorem execStop_answers (c : BitVec 17) (s : State) : s.Answers (execStop c s) := by
  refine State.migrationDo_answers _ _ fun _ _ => ?_
  simp only [apply_ite State.kept, ite_self, State.migrationSet_kept, State.adminRefuse_kept]

theorem execLogEnd_answers (c : BitVec 17) (s : State) : s.Answers (execLogEnd c s) := by
  refine State.migrationDo_answers _ _ fun _ _ => ?_
  simp only [apply_ite State.kept, ite_self, State.adminRefuse_kept, State.migrationSet_kept]

theorem execRestoreCount_answers (c : BitVec 17) (s : State) : s.Answers (execRestoreCount c s) := by
  refine State.migrationDo_answers _ _ fun _ _ => ?_
  split <;> simp only [apply_ite State.kept, ite_self, State.adminFail_kept, State.adminRefuse_kept, State.setQueue_kept, State.adminOk_kept]

theorem execCreateQueue_answers (c : BitVec 17) (s : State) : s.Answers (execCreateQueue c s) := by
  refine State.adminDo_answers _ _ _ fun j => State.keeps_of_kept (State.onTarget_kept _ fun x => ?_)
  dsimp only
  split
  · exact s.adminFail_kept ..
  · simp only [apply_ite State.kept, State.adminFail_kept, State.adminRefuse_kept, State.adminOk_kept, State.addChange_kept _ (.addQueue _) rfl,
    ite_self]

theorem execDeleteQueue_answers (c : BitVec 17) (s : State) : s.Answers (execDeleteQueue c s) := by
  refine State.adminDo_answers _ _ _ fun _ => State.keeps_of_kept ?_
  simp only [apply_ite State.kept, ite_self, implies_true, State.onTarget_kept, State.adminRefuse_kept, State.onQueue_kept, State.deleteQueue_kept,
    State.adminOk_kept]

theorem execDomainCreate_answers (c : BitVec 17) (s : State) : s.Answers (execDomainCreate c s) := by
  refine State.adminDo_answers _ _ _ fun j => ?_
  dsimp only
  refine State.ite_keeps (fun _ => State.keeps_of_kept (s.adminFail_kept ..)) fun _ => ?_
  split
  · exact State.keeps_of_kept (s.adminFail_kept ..)
  · split
    · exact .refl s
    · refine State.ite_keeps (fun _ => State.keeps_of_kept (s.adminRefuse_kept ..)) fun _ => ?_
      exact (State.Keeps.of_kept (State.addDomain_keeps _ rfl _) (s.stageRecord_kept ..)).and_kept (State.adminOk_kept ..)

theorem execDomainResize_answers (c : BitVec 17) (s : State) : s.Answers (execDomainResize c s) := by
  refine State.adminDo_answers _ _ _ fun j => State.keeps_of_kept (State.onTarget_kept _ fun y => ?_)
  dsimp only
  split
  · exact s.adminFail_kept ..
  · rename_i x h
    simp only [apply_ite State.kept, State.adminRefuse_kept, State.adminOk_kept, State.addChange_kept _ _ (domainSettings_area h),
      State.addChange_kept _ (.settings ..) rfl, State.stageRecord_kept, ite_self]

theorem execDomainReset_answers (c : BitVec 17) (s : State) : s.Answers (execDomainReset c s) := State.adminResetDomain_answers _ _ _

theorem execDomainDelete_answers (c : BitVec 17) (s : State) : s.Answers (execDomainDelete c s) := State.adminResetDomain_answers _ _ _

theorem execMicrocodeDownload_answers (c : BitVec 17) (s : State) : s.Answers (execMicrocodeDownload c s) := by
  refine onSome_answers fun _ => State.keeps_of_kept ?_
  simp only [apply_ite State.kept, ite_self, State.adminRefuse_kept, State.setBank_kept, State.adminFail_kept, State.startVerify_kept,
    State.flow_kept]

theorem execMicrocodeActivate_answers (c : BitVec 17) (s : State) : s.Answers (execMicrocodeActivate c s) := by
  refine State.adminDo_answers _ _ _ fun _ => State.keeps_of_kept ?_
  simp only [State.kept_mk, State.kept_eta, apply_ite State.kept, ite_self, State.adminRefuse_kept, State.adminOk_kept]

/-! ## Lines -/

theorem execClaimResponse_answers (port tag : Nat) (s : State) : s.Answers (execClaimResponse port tag s) := by
  refine onSome_answers fun _ => State.keeps_of_kept ?_
  simp only [apply_ite State.kept, ite_self, State.endTxn_kept, State.freeLine_kept, State.flow_kept, State.setLine_kept, State.issue_kept,
    State.lastTxn_kept]

theorem execEvictResponse_answers (port tag : Nat) (_superseded : Bool) (s : State) : s.Answers (execEvictResponse port tag _superseded s) := by
  refine onSome_answers fun _ => State.keeps_of_kept ?_
  simp only [State.endTxn_kept, State.logTxn_kept, State.freeLine_kept, State.flow_kept]

theorem execSnoop_answers (port stag domain line : Nat) (checkOk : Bool) (s : State) : s.Answers (execSnoop port stag domain line checkOk s) := by
  unfold execSnoop
  split
  · exact done_answers (State.keeps_of_kept (s.countPort_kept port))
  · split
    · exact done_answers (State.keeps_of_kept (s.emit_kept _))
    · split
      · dsimp only
        split
        · exact done_answers (State.keeps_of_kept ((State.setLine_kept ..).trans (s.emit_kept _)))
        · refine done_answers (State.flow_keeps (State.keeps_of_kept ?_))
          simp only [State.freeLine_kept, State.kept_mk, State.kept_eta, State.emit_kept]
      · exact done_answers (State.keeps_of_kept (s.emit_kept _))

theorem execContextRestore_answers (port tag : Nat) (data : ReadData) (s : State) : s.Answers (execContextRestore port tag data s) := by
  refine onSome_answers fun _ => State.keeps_of_kept ?_
  dsimp only
  repeat' split
  all_goals simp only [State.endTxn_kept, State.dropCtxs_kept, State.endJob_kept, State.setCtx_kept, State.restored_kept, State.flow_kept]

/-! ## Faults -/

theorem execFabricErrorResponse_answers (port tag : Nat) (s : State) : s.Answers (execFabricErrorResponse port tag s) := by
  refine onSome_answers fun _ => State.keeps_of_kept ?_
  simp only [State.failTxn_kept, State.flow_kept]

theorem execReadTruncated_answers (port tag beats : Nat) (data : ReadData) (byCheck : Bool) (s : State) :
    s.Answers (execReadTruncated port tag beats data byCheck s) := by
  refine onSome_answers fun _ => State.keeps_of_kept ?_
  simp only [apply_ite State.kept, ite_self, State.truncated_kept, State.countPort_kept, State.flow_kept]

theorem execWriteTruncated_answers (port tag : Nat) (s : State) : s.Answers (execWriteTruncated port tag s) := by
  refine onSome_answers fun _ => State.keeps_of_kept ?_
  simp only [State.truncated_kept, State.flow_kept]

theorem execWriteResponse_answers (port tag : Nat) (checkFails : Bool) (s : State) : s.Answers (execWriteResponse port tag checkFails s) := by
  refine onSome_answers fun _ => State.keeps_of_kept ?_
  simp only [apply_ite State.kept, ite_self, State.sendAgain_kept, State.countPort_kept, State.flow_kept, State.writeOk_kept]

theorem execCheckResponse_answers (port tag : Nat) (s : State) : s.Answers (execCheckResponse port tag s) := by
  refine onSome_answers fun _ => State.keeps_of_kept ?_
  simp only [State.sendAgain_kept, State.countPort_kept, State.flow_kept]

theorem execEgressCheckFail_answers (port tag : Nat) (s : State) : s.Answers (execEgressCheckFail port tag s) := by
  refine onSome_answers fun _ => State.keeps_of_kept ?_
  split <;> simp only [apply_ite State.kept, ite_self, State.setPort_kept, State.endLogged_kept, State.deadDone_kept, State.egressSlice_kept,
    State.poisonLine_kept, State.sendAgain_kept, State.countPort_kept, State.flow_kept]

theorem execPortTestResult_answers (port : Nat) (pass : Bool) (s : State) : s.Answers (execPortTestResult port pass s) := by
  refine guarded_answers (State.keeps_of_kept ?_)
  simp only [State.portTested_kept, State.flow_kept]

theorem execSuspendedPortReadTimeout_answers (port : Nat) (s : State) : s.Answers (execSuspendedPortReadTimeout port s) := by
  refine guarded_answers (State.keeps_of_kept ?_)
  simp only [State.portCut_kept, State.flow_kept]

theorem execPortRst_answers (port : Nat) (s : State) : s.Answers (execPortRst port s) := by
  refine guarded_answers (State.keeps_of_kept ?_)
  simp only [State.portCut_kept, State.countPort_kept, State.flow_kept]

/-! ## Links -/

theorem execLinkDown_answers (domain : Nat) (s : State) : s.Answers (execLinkDown domain s) :=
  guarded_answers (State.keeps_of_kept (s.addChange_kept _ rfl))

theorem execLinkUp_answers (domain : Nat) (s : State) : s.Answers (execLinkUp domain s) := by
  refine guarded_answers (State.keeps_of_kept ?_)
  simp only [State.kept_mk, State.kept_eta, State.foldl_kept, implies_true, State.linkSettled_kept, State.setDomain_kept, State.setEvq_kept,
    State.foldl_kept, State.postEvent_kept, State.checkHold_kept, State.flow_kept]

theorem execRequesterReset_answers (src : From) (s : State) : s.Answers (execRequesterReset src s) := by
  refine guarded_answers (State.keeps_of_kept ?_)
  simp only [State.foldl_kept, implies_true, State.foldl_kept, State.dropHalf_kept]

theorem execFlr_answers (domain : Nat) (s : State) : s.Answers (execFlr domain s) := guarded_answers (State.keeps_of_kept (s.addChange_kept _ rfl))

theorem execDomainResetComplete_answers (domain : Nat) (s : State) : s.Answers (execDomainResetComplete domain s) := by
  refine onSome_answers fun x => State.flow_keeps ?_
  have hclear : (((s.flushDirty domain).setDomain domain fun x => { x with resetting := none, resetFlags := 0, mig := x.mig.afterReset }).clearEvents
      domain |>.eventDM domain 0x02 0 domain (leBytes 1 x.resetFlags.toNat)).kept = s.kept := by
    simp only [State.eventDM_kept, State.clearEvents_kept, State.setDomain_kept, State.flushDirty_kept, implies_true]
  have hgone := State.Keeps.of_kept (State.ite_keeps (c := x.deleting = true) (fun _ => State.removeDomain_keeps _ domain) fun _ => .refl _) hclear
  split
  · exact hgone.and_kept (State.endJob_kept ..)
  · exact hgone

/-! ## KeyBus -/

theorem execKeyLoadResponse_answers (reqId : BitVec 16) (outcome : KbOutcome) (payload : Bytes) (s : State) :
    s.Answers (execKeyLoadResponse reqId outcome payload s) := by
  refine onSome_answers fun _ => State.keeps_of_kept ?_
  repeat' split
  all_goals simp only [State.kbEnd_kept, State.kbAgain_kept, State.flow_kept, State.slotLoaded_kept, State.pkLoaded_kept, State.denyLoad_kept,
    State.endJob_kept]

theorem execSlotWaitRetry_answers (q : Nat) (c : BitVec 17) (s : State) : s.Answers (execSlotWaitRetry q c s) := by
  refine onSome_answers fun _ => State.keeps_of_kept ?_
  simp only [State.keyProgress_kept, State.flow_kept]

theorem execUseReserveResponse_answers (reqId : BitVec 16) (outcome : KbOutcome) (at' g : Nat) (start : State) :
    start.Answers (execUseReserveResponse reqId outcome at' g start) := by
  refine onSome_answers fun _ => State.keeps_of_kept ?_
  repeat' split
  all_goals simp only [apply_ite State.kept, ite_self, State.kbEnd_kept, State.kbAgain_kept, State.flow_kept, State.slotGrant_kept,
    State.jobGrant_kept]

theorem execKeyRevoke_answers (handle : Nat) (destroyed : Bool) (s : State) : s.Answers (execKeyRevoke handle destroyed s) := by
  refine guarded_answers (State.keeps_of_kept ?_)
  dsimp only
  simp only [State.flow_kept, State.emit_kept, State.keyRetry_kept, State.foldl_kept, State.addChange_kept _ (.revoked _ _) rfl,
    State.setMint_kept, State.kept_mk, State.kept_eta, implies_true]

theorem execUnwrapSlotSwitch_answers (domain handle : Nat) (s : State) : s.Answers (execUnwrapSlotSwitch domain handle s) := by
  refine onSome_answers fun _ => State.keeps_of_kept ?_
  simp only [State.setSlot_kept, State.keyRetry_kept, State.flow_kept]

theorem execKeyBusRequestLost_answers (reqId : BitVec 16) (s : State) : s.Answers (execKeyBusRequestLost reqId s) := by
  refine onSome_answers fun _ => State.keeps_of_kept ?_
  simp only [State.kbLost_kept, State.countLoss_kept, State.flow_kept]

theorem execKbRst_answers (lane : Nat) (s : State) : s.Answers (execKbRst lane s) := by
  refine guarded_answers (State.keeps_of_kept ?_)
  simp only [State.foldl_kept, implies_true, State.foldl_kept, State.kbLost_kept, State.countLoss_kept, State.flow_kept]

theorem execLinkUpLow_answers (lane : Nat) (s : State) : s.Answers (execLinkUpLow lane s) := by
  refine guarded_answers (State.keeps_of_kept ?_)
  simp only [State.suspendKb_kept, State.flow_kept]

theorem execEchoResponse_answers (lane : Nat) (intact : Bool) (s : State) : s.Answers (execEchoResponse lane intact s) := by
  unfold execEchoResponse
  split
  · exact done_answers (State.keeps_of_kept (s.echoBack_kept ..))
  · exact guarded_answers (State.flow_keeps (State.keeps_of_kept (s.countLoss_kept ..)))

/-! ## JournalRun -/

theorem execJnlWriteResponse_answers (reqId : BitVec 16) (outcome : KbOutcome) (s : State) : s.Answers (execJnlWriteResponse reqId outcome s) := by
  refine onSome_answers fun _ => State.keeps_of_kept ?_
  simp only [apply_ite State.kept, ite_self, State.jWriteError_kept, State.flow_kept, State.kbEnd_kept, State.setMint_kept,
    State.appendReturned_kept, State.retryDraws_kept, State.recoverySettled_kept]

theorem execCompactionStep_answers (s : State) : s.Answers (execCompactionStep s) := by
  refine onSome_answers fun _ => State.keeps_of_kept ?_
  simp only [State.compactNext_kept, State.flow_kept]

theorem execJnlReadResponse_answers (reqId : BitVec 16) (data : Bytes) (s : State) : s.Answers (execJnlReadResponse reqId data s) := by
  refine onSome_answers fun _ => State.keeps_of_kept ?_
  repeat' split
  all_goals simp only [apply_ite State.kept, ite_self, State.kbAgain_kept, State.flow_kept, State.kbEnd_kept, State.recoverBytes_kept,
    State.reread_kept, State.retryDraws_kept]

theorem execJnlEraseResponse_answers (reqId : BitVec 16) (outcome : KbOutcome) (s : State) : s.Answers (execJnlEraseResponse reqId outcome s) := by
  refine onSome_answers fun _ => State.keeps_of_kept ?_
  repeat' split
  all_goals simp only [apply_ite State.kept, ite_self, State.kbAgain_kept, State.flow_kept, State.kbEnd_kept, State.recoverErased_kept]

theorem execJournalRecovery_answers (s : State) : s.Answers (execJournalRecovery s) := by
  refine guarded_answers (State.keeps_of_kept ?_)
  simp only [State.recoverStart_kept, State.flow_kept]

/-! ## SelfTest -/

theorem execSelfTestChiveLane_answers (c : BitVec 17) (s : State) : s.Answers (execSelfTestChiveLane c s) := State.selfTest_answers _ _ _

theorem execSelfTestBunch_answers (c : BitVec 17) (s : State) : s.Answers (execSelfTestBunch c s) := State.selfTest_answers _ _ _

theorem execSelfTestDillLane_answers (c : BitVec 17) (s : State) : s.Answers (execSelfTestDillLane c s) := State.selfTest_answers _ _ _

theorem execSelfTestBasilSequencer_answers (c : BitVec 17) (s : State) : s.Answers (execSelfTestBasilSequencer c s) := State.selfTest_answers _ _ _

theorem execSelfTestMemoryDataPort_answers (c : BitVec 17) (s : State) : s.Answers (execSelfTestMemoryDataPort c s) := State.selfTest_answers _ _ _

theorem execSelfTestSageStandbyCounter_answers (c : BitVec 17) (s : State) : s.Answers (execSelfTestSageStandbyCounter c s) :=
  State.selfTest_answers _ _ _

theorem execSelfTestThymeLockstepPair_answers (c : BitVec 17) (s : State) : s.Answers (execSelfTestThymeLockstepPair c s) :=
  State.selfTest_answers _ _ _

theorem execSelfTestKeyBusLane_answers (c : BitVec 17) (s : State) : s.Answers (execSelfTestKeyBusLane c s) := State.selfTest_answers _ _ _

theorem execSelfTestEntropySource_answers (c : BitVec 17) (s : State) : s.Answers (execSelfTestEntropySource c s) := State.selfTest_answers _ _ _

theorem execSelfTestStart_answers (kind index : Nat) (s : State) : s.Answers (execSelfTestStart kind index s) := by
  refine onSome_answers fun _ => State.keeps_of_kept ?_
  simp only [State.kept_mk, State.kept_eta, State.beginTest_kept, State.flow_kept]

theorem execSelfTestTimeout_answers (kind index : Nat) (s : State) : s.Answers (execSelfTestTimeout kind index s) := by
  refine onSome_answers fun _ => State.keeps_of_kept ?_
  simp only [apply_ite State.kept, ite_self, State.dropTest_kept, State.adminOk_kept, State.adminRefuse_kept, State.flow_kept]

theorem execSelfTestEnd_answers (kind index : Nat) (pass : Bool) (s : State) : s.Answers (execSelfTestEnd kind index pass s) := by
  refine onSome_answers fun _ => State.keeps_of_kept ?_
  simp only [apply_ite State.kept, ite_self, State.finishTest_kept, State.nextTurn_kept, State.logTest_kept, State.flow_kept]

/-! ## Modes -/

theorem execGo_answers (src : From) (s : State) : s.Answers (execGo src s) :=
  State.modeWrite_answers _ _ (State.keeps_of_kept (State.goRequest_kept ..))

theorem execProvision_answers (src : From) (s : State) : s.Answers (execProvision src s) :=
  State.modeWrite_answers _ _ (State.keeps_of_kept (State.provisionRequest_kept ..))

theorem execResume_answers (src : From) (s : State) : s.Answers (execResume src s) :=
  State.modeWrite_answers _ _ (State.keeps_of_kept (State.resumeRequest_kept ..))

theorem execDrain_answers (src : From) (s : State) : s.Answers (execDrain src s) :=
  State.modeWrite_answers _ _ (State.keeps_of_kept (State.drainRequest_kept ..))

theorem execLightSleep_answers (src : From) (s : State) : s.Answers (execLightSleep src s) :=
  State.modeWrite_answers _ _ (State.keeps_of_kept (State.drainRequest_kept ..))

theorem execDeepSleep_answers (src : From) (s : State) : s.Answers (execDeepSleep src s) :=
  State.modeWrite_answers _ _ (State.keeps_of_kept (State.drainRequest_kept ..))

theorem execQuiesce_answers (src : From) (s : State) : s.Answers (execQuiesce src s) :=
  State.modeWrite_answers _ _ (State.keeps_of_kept (State.quiesceRequest_kept ..))

theorem execDrainedPoint_answers (s : State) : s.Answers (execDrainedPoint s) := by
  refine guarded_answers ?_
  split
  · exact s.enterLight_keeps
  · exact s.enterDeep_keeps
  · exact State.keeps_of_kept s.enterDebug_kept
  · exact .refl s

theorem execDrainLimitExpiry_answers (s : State) : s.Answers (execDrainLimitExpiry s) := by
  refine guarded_answers (State.keeps_of_kept ?_)
  simp only [State.kept_mk, State.kept_eta, State.foldl_kept, implies_true, State.foldl_kept, State.abandonJob_kept, State.banksDrained_kept]

theorem execReset_answers (src : From) (s : State) : s.Answers (execReset src s) := State.modeWrite_answers _ _ s.resetRequest_keeps

theorem execWakeTimer_answers (s : State) : s.Answers (execWakeTimer s) := guarded_answers (State.keeps_of_kept (State.wake_kept ..))

theorem execWakeIn_answers (s : State) : s.Answers (execWakeIn s) := guarded_answers (State.keeps_of_kept (State.wake_kept ..))

theorem execPpsInputEdge_answers (n : Nat) (strobe : Strobe) (s : State) : s.Answers (execPpsInputEdge n strobe s) := by
  refine guarded_answers (State.keeps_of_kept ?_)
  simp only [apply_ite State.kept, ite_self, State.ppsEdge_kept, State.wake_kept]

/-! ## Startup -/

theorem execPowerOnReset_answers (s : State) : s.Answers (execPowerOnReset s) := guarded_answers (s.onlyOtp_keeps ..)

theorem execPdAonSupplyLoss_answers (s : State) : s.Answers (execPdAonSupplyLoss s) := done_answers (s.tearOtp_keeps.trans (State.onlyOtp_keeps ..))

theorem execDeviceReset_answers (s : State) : s.Answers (execDeviceReset s) := guarded_answers (s.resetTo_keeps ..)

theorem execMainReset_answers (s : State) : s.Answers (execMainReset s) := guarded_answers (s.resetTo_keeps ..)

theorem execTimeGood_answers (s : State) : s.Answers (execTimeGood s) := guarded_answers (State.keeps_of_kept (State.endStep_kept ..))

theorem execMainGood_answers (s : State) : s.Answers (execMainGood s) := guarded_answers (State.keeps_of_kept (State.endStep_kept ..))

theorem execSense_answers (s : State) : s.Answers (execSense s) := by
  refine guarded_answers ?_
  exact State.ite_keeps (fun _ => s.readOtp_keeps) fun _ => State.ite_keeps (fun _ => s.endSense_keeps) fun _ => .refl s

theorem execEntropyStartUpTestsEnd_answers (s : State) : s.Answers (execEntropyStartUpTestsEnd s) := by
  refine guarded_answers (State.keeps_of_kept ?_)
  simp only [State.kept_mk, State.kept_eta, implies_true, State.drbgRequest_kept, State.setLovage_kept, State.useFree_kept, State.endStep_kept]

theorem execStartupTestsEnd_answers (found : StartupFindings) (s : State) : s.Answers (execStartupTestsEnd found s) := by
  refine guarded_answers (State.keeps_of_kept ?_)
  simp only [State.kept_mk, State.kept_eta, apply_ite State.kept, ite_self, State.endStep_kept, State.setMode_kept]

theorem execEnterService_answers (s : State) : s.Answers (execEnterService s) := by
  have hrecorded : s.Keeps s.recordChecks := State.keeps_of_kept s.recordChecks_kept
  have hgo (b : Bool) : s.Keeps (if b then s.recordChecks else s) := State.ite_keeps (fun _ => hrecorded) fun _ => .refl s
  have hfails : s.Keeps s.goFails := State.keeps_of_kept s.goFails_kept
  unfold execEnterService
  dsimp only
  split
  · split
    · exact done_answers hfails
    · refine done_answers ((hgo (s.mode.latched == some .go)).trans ?_)
      exact State.ite_keeps (fun _ => State.keeps_of_kept (State.toProvisioning_kept _)) fun _ => State.toService_keeps _
  · exact guarded_answers (State.ite_keeps (fun _ => hfails) fun _ => hrecorded.trans (State.toService_keeps _))

/-! ## Lovage -/

theorem execOtpCopyDone_answers (readBack holdupOk : Bool) (s : State) : s.Answers (execOtpCopyDone readBack holdupOk s) := by
  refine onSome_answers fun o => ?_
  have hprogram (st : OtpStep) (bits : BitVec 32) (decodes : Bool) : s.Keeps (s.setLovage fun l => l.program st bits decodes) :=
    State.setLovage_keeps (Lovage.program_grows ..)
  split
  · exact s.otpEnd_keeps ..
  · rename_i st rest _
    refine State.ite_keeps (fun _ => s.otpEnd_keeps ..) fun _ => State.ite_keeps (fun _ => ?_) fun _ => ?_
    · refine (hprogram st _ _).trans (State.ite_keeps (fun _ => ?_) fun _ => State.ite_keeps (fun _ => State.otpEnd_keeps ..) fun _ => ?_)
      · exact State.Keeps.of_kept (State.otpEnd_keeps ..) (State.useFree_kept ..)
      · exact State.keeps_of_kept (State.setLovage_kept _ _ (fun _ => rfl) fun _ => rfl)
    · refine ((hprogram st _ _).and_kept (State.useFree_kept _ 2)).trans (State.ite_keeps (fun _ => State.otpEnd_keeps ..) fun _ => ?_)
      exact State.keeps_of_kept (State.setLovage_kept _ _ (fun _ => rfl) fun _ => rfl)

theorem execTransition_answers (src : From) (code : BitVec 32) (s : State) : s.Answers (execTransition src code s) :=
  State.lovageWrite_answers _ _ _ (State.transition_keeps code s)

theorem execProgramInstanceSlot_answers (src : From) (index : Nat) (s : State) : s.Answers (execProgramInstanceSlot src index s) :=
  State.lovageWrite_answers _ _ _ (State.keeps_of_kept (State.progSlot_kept ..))

theorem execProgramEcdsaDigest_answers (src : From) (index : Nat) (s : State) : s.Answers (execProgramEcdsaDigest src index s) :=
  State.lovageWrite_answers _ _ _ (State.keeps_of_kept (State.progDigest_kept ..))

theorem execProgramMlDsaDigest_answers (src : From) (index : Nat) (s : State) : s.Answers (execProgramMlDsaDigest src index s) :=
  State.lovageWrite_answers _ _ _ (State.keeps_of_kept (State.progDigest_kept ..))

theorem execRevokeEcdsaKey_answers (src : From) (index : Nat) (s : State) : s.Answers (execRevokeEcdsaKey src index s) :=
  State.lovageWrite_answers _ _ _ (State.keeps_of_kept (State.revokeKey_kept ..))

theorem execRevokeMlDsaKey_answers (src : From) (index : Nat) (s : State) : s.Answers (execRevokeMlDsaKey src index s) :=
  State.lovageWrite_answers _ _ _ (State.keeps_of_kept (State.revokeKey_kept ..))

/-! ## Debug -/

theorem execRequest_answers (src : From) (cls : Nat) (s : State) : s.Answers (execRequest src cls s) :=
  State.lovageWrite_answers _ _ _ (State.keeps_of_kept (State.requestChallenge_kept ..))

theorem execChallengeExpiry_answers (s : State) : s.Answers (execChallengeExpiry s) := by
  refine onSome_answers fun _ => State.keeps_of_kept ?_
  simp only [implies_true, State.setLovage_kept]

theorem execSubmit_answers (src : From) (s : State) : s.Answers (execSubmit src s) :=
  State.lovageWrite_answers _ _ _ (State.keeps_of_kept (State.submit_kept ..))

theorem execDebugResponseChecked_answers (s : State) : s.Answers (execDebugResponseChecked s) := by
  refine onSome_answers fun c => State.keeps_of_kept ?_
  simp only [apply_ite State.kept, State.grantClass_kept, State.setLovage_kept, implies_true, ite_self]

theorem execDebugClose_answers (src : From) (s : State) : s.Answers (execDebugClose src s) :=
  State.lovageWrite_answers _ _ _ (State.keeps_of_kept (State.closeDebug_kept ..))

theorem execDebugOpen_answers (src : From) (cls : Nat) (s : State) : s.Answers (execDebugOpen src cls s) :=
  State.lovageWrite_answers _ _ _ (State.keeps_of_kept (State.openDebug_kept ..))

theorem execTamperSourceFire_answers (source : Nat) (s : State) : s.Answers (execTamperSourceFire source s) := guarded_answers (s.fire_keeps ..)

theorem execAlarmPortsStop_answers (s : State) : s.Answers (execAlarmPortsStop s) := by
  refine guarded_answers (State.keeps_of_kept ?_)
  simp only [State.kept_mk, State.kept_eta, State.cutWrites_kept, State.setMode_kept]

theorem execAlarmClear_answers (src : From) (s : State) : s.Answers (execAlarmClear src s) := by
  refine guarded_answers (State.keeps_of_kept ?_)
  simp only [State.inTurn_kept, State.clearAlarm_kept]

/-! ## LoadKey -/

theorem execLoadKeyByHandle_answers (c : BitVec 17) (s : State) : s.Answers (execLoadKeyByHandle c s) := State.loadKey_answers _ _ _ _

theorem execLoadKeyAesKw_answers (c : BitVec 17) (s : State) : s.Answers (execLoadKeyAesKw c s) := State.loadKey_answers _ _ _ _

theorem execLoadKeyAesKwp_answers (c : BitVec 17) (s : State) : s.Answers (execLoadKeyAesKwp c s) := State.loadKey_answers _ _ _ _

theorem execPostedLoadRun_answers (load : BitVec 32) (s : State) : s.Answers (execPostedLoadRun load s) := by
  refine onSome_answers fun _ => State.keeps_of_kept ?_
  simp only [State.checkSlot_kept, State.loadStep_kept, State.flow_kept]

/-! ## RegPath -/

theorem execRegisterPathOpen_answers (src : From) (s : State) : s.Answers (execRegisterPathOpen src s) := by
  refine State.rpWrite_answers _ (State.keeps_of_kept ?_)
  simp only [State.rpPort_kept, State.sendAll_kept]

theorem execDgRpData_answers (src : From) (word : BitVec 64) (s : State) : s.Answers (execDgRpData src word s) :=
  State.rpWrite_answers _ (State.keeps_of_kept (State.rpPort_kept ..))

theorem execDgRpLast_answers (src : From) (word : BitVec 64) (s : State) : s.Answers (execDgRpLast src word s) :=
  State.rpWrite_answers _ (State.keeps_of_kept (State.rpPort_kept ..))

theorem execRegisterPathFinish_answers (src : From) (s : State) : s.Answers (execRegisterPathFinish src s) :=
  State.rpWrite_answers _ (State.keeps_of_kept (State.rpPort_kept ..))

theorem execRegisterPathDone_answers (s : State) : s.Answers (execRegisterPathDone s) := by
  unfold execRegisterPathDone
  refine guarded_answers (State.keeps_of_kept ?_)
  simp only [apply_ite State.kept, State.rpEnd_kept, ite_self]

theorem execRegisterPathClose_answers (src : From) (s : State) : s.Answers (execRegisterPathClose src s) :=
  State.rpWrite_answers _ (State.keeps_of_kept (State.rpPort_kept ..))

theorem execRegisterPathDataError_answers (s : State) : s.Answers (execRegisterPathDataError s) := by
  refine guarded_answers (State.keeps_of_kept ?_)
  simp only [State.rpEnd_kept, State.setRp_kept]

/-! ## Integrity -/

theorem execLockstepMismatch_answers (unit : LockUnit) (blame : Blame) (aTestFails bTestFails : Bool) (s : State) :
    s.Answers (execLockstepMismatch unit blame aTestFails bTestFails s) := by
  refine guarded_answers ?_
  cases blame with
  | halfA => exact s.leavePair_keepsForm ..
  | halfB => exact s.leavePair_keepsForm ..
  | neither => exact State.Keeps.of_kept (State.leavePair_keepsForm ..) (s.repeatWork_kept unit)

theorem execHalfRejoin_answers (unit : LockUnit) (halfB pass : Bool) (s : State) : s.Answers (execHalfRejoin unit halfB pass s) := by
  unfold execHalfRejoin
  exact guarded_answers (State.Keeps.of_kept (State.halvesChecked_keeps _ unit) ((State.halfEvent_kept ..).trans (s.setHalves_kept ..)))

theorem execUncorrectableError_answers (element : Element) (s : State) : s.Answers (execUncorrectableError element s) := by
  refine guarded_answers (State.flow_keeps (State.Keeps.of_kept (State.elementLost_keeps _ element) ?_))
  simp only [apply_ite State.kept, State.countUe_kept, ite_self]

theorem execScrub_answers (memory word : Nat) (corrected : Bool) (s : State) : s.Answers (execScrub memory word corrected s) := by
  refine guarded_answers (State.keeps_of_kept ?_)
  simp only [apply_ite State.kept, State.addChange_kept _ (.spareRow memory word) rfl, State.kept_mk, State.kept_eta, ite_self]

theorem execEntropyHealthFail_answers (cell : Nat) (s : State) : s.Answers (execEntropyHealthFail cell s) := by
  refine guarded_answers (State.keeps_of_kept ?_)
  simp only [State.kept_mk, State.kept_eta, apply_ite State.kept, ite_self, State.unitEvent_kept, State.event_kept]

theorem execPllSwitch_answers (coreClock : Bool) (s : State) : s.Answers (execPllSwitch coreClock s) := by
  unfold execPllSwitch
  exact guarded_answers (State.keeps_of_kept (s.addChange_kept _ rfl))

theorem execRegisterInterfaceFail_answers (s : State) : s.Answers (execRegisterInterfaceFail s) := by
  refine guarded_answers (State.keeps_of_kept ?_)
  simp only [State.kept_mk, State.kept_eta, ]

/-! ## Registers -/

theorem execRegisterWrite_answers (src : From) (viaDebug : Bool) (addr size : Nat) (value : BitVec 64) (s : State) :
    s.Answers (execRegisterWrite src viaDebug addr size value s) := by
  unfold execRegisterWrite
  dsimp only
  have hheld (w : PortAccess) : s.Keeps (s.holdAccess w) := State.keeps_of_kept (s.holdAccess_kept w)
  split
  · split
    · exact guarded_answers (s.windowRegister_keeps ..)
    · refine guarded_answers (State.ite_keeps (fun _ => ?_) fun _ => hheld _)
      exact State.ite_keeps (fun _ => hheld _) fun _ => s.windowRegister_keeps ..
  · split
    · exact done_answers (.refl s)
    · split
      · exact State.mailboxWrite_answers _ (State.keeps_of_kept (s.pageRegister_kept ..))
      · split
        · exact done_answers (.refl s)
        · refine State.pageWrite_answers _ _ fun x => ?_
          simp only [clearQueueBits, apply_ite State.kept, State.foreignWrite_kept, State.setQueue_kept, ite_self]

theorem execRcCounterRead_answers (src : From) (counter : RcCounter) (s : State) : s.Answers (execRcCounterRead src counter s) := by
  refine guarded_answers (State.keeps_of_kept ?_)
  simp only [apply_ite State.kept, ite_self, State.inTurn_kept, State.readCounter_kept]

/-! ## Boundary -/

theorem execTickBoundary_answers (checks : TickChecks) (s : State) : s.Answers (execTickBoundary checks s) := by
  refine guarded_answers ?_
  dsimp only
  generalize hu : ({ (s.endTick checks).rested.enterMode.switchBank with thyme := _ } : State) = u
  have hs : u.kept = s.kept := by
    subst hu
    simp only [State.kept_mk, State.kept_eta, State.switchBank_kept, State.enterMode_kept, State.rested_kept, State.endTick_kept]
  have hguard : s.Keeps (if (s.thyme.tick + 1) % 65536 = 0 then u else u.guardBand (s.thyme.tick + 1)) :=
    State.Keeps.of_kept (State.ite_keeps (fun _ => .refl u) fun _ => u.guardBand_keeps _) hs
  have hport := hguard.trans (State.drainPort_keeps _)
  have htick := (hport.and_kept ((State.compareAll_kept _ checks).trans (State.advance_kept _))).trans (State.beginTick_keeps _)
  exact (State.flow_keeps htick).and_kept (State.latchStatus_kept _)

theorem execEpochBoundary_answers (s : State) : s.Answers (execEpochBoundary s) := by
  refine guarded_answers ?_
  dsimp only
  refine State.ite_keeps (fun _ => ?_) fun _ => State.keeps_of_kept rfl
  refine State.Keeps.and_kept (State.flow_keeps (State.Keeps.and_kept (State.Keeps.of_kept (State.guardBand_keeps _ _) ?_) (State.pageDue_kept _)))
    (State.latchStatus_kept _)
  simp only [State.kept_mk, State.kept_eta, State.checkDegraded_kept, State.activatePlan_kept, State.remap_kept, State.clearEpoch_kept]

/-! ## Every command -/

theorem exec_answers (i : Instr) (s : State) : s.Answers (exec i s) := by
  cases i with
  | tickBoundary _ => exact execTickBoundary_answers ..
  | sliceResult _ _ _ _ _ => exact execSliceResult_answers ..
  | epochBoundary => exact execEpochBoundary_answers ..
  | doorbell _ _ _ => exact execDoorbell_answers ..
  | disable _ _ _ => exact execDisable_answers ..
  | enable _ _ _ => exact execEnable_answers ..
  | pushWindowWrite _ _ _ _ => exact execPushWindowWrite_answers ..
  | push _ _ => exact execPush_answers ..
  | pushHalfTimeout _ => exact execPushHalfTimeout_answers ..
  | entryReadResponse _ _ _ => exact execEntryReadResponse_answers ..
  | auxBlockReadResponse _ _ _ => exact execAuxBlockReadResponse_answers ..
  | fragmentTableReadResponse _ _ _ => exact execFragmentTableReadResponse_answers ..
  | payloadReadResponse _ _ _ => exact execPayloadReadResponse_answers ..
  | writeResponse _ _ _ => exact execWriteResponse_answers ..
  | completionConfirm _ _ => exact execCompletionConfirm_answers ..
  | coalescingTimer _ => exact execCoalescingTimer_answers ..
  | p2Credit => exact execP2Credit_answers ..
  | linkDown _ => exact execLinkDown_answers ..
  | linkUp _ => exact execLinkUp_answers ..
  | requesterReset _ => exact execRequesterReset_answers ..
  | flr _ => exact execFlr_answers ..
  | fabricErrorResponse _ _ => exact execFabricErrorResponse_answers ..
  | readTruncated _ _ _ _ _ => exact execReadTruncated_answers ..
  | writeTruncated _ _ => exact execWriteTruncated_answers ..
  | checkResponse _ _ => exact execCheckResponse_answers ..
  | egressCheckFail _ _ => exact execEgressCheckFail_answers ..
  | portTestResult _ _ => exact execPortTestResult_answers ..
  | suspendedPortReadTimeout _ => exact execSuspendedPortReadTimeout_answers ..
  | portRst _ => exact execPortRst_answers ..
  | keyLoadResponse _ _ _ => exact execKeyLoadResponse_answers ..
  | slotWaitRetry _ _ => exact execSlotWaitRetry_answers ..
  | useReserveResponse _ _ _ _ => exact execUseReserveResponse_answers ..
  | keyRevoke _ _ => exact execKeyRevoke_answers ..
  | keyBusRequestLost _ => exact execKeyBusRequestLost_answers ..
  | unwrapSlotSwitch _ _ => exact execUnwrapSlotSwitch_answers ..
  | jnlWriteResponse _ _ => exact execJnlWriteResponse_answers ..
  | compactionStep => exact execCompactionStep_answers ..
  | jnlReadResponse _ _ => exact execJnlReadResponse_answers ..
  | jnlEraseResponse _ _ => exact execJnlEraseResponse_answers ..
  | journalRecovery => exact execJournalRecovery_answers ..
  | claimResponse _ _ => exact execClaimResponse_answers ..
  | evictResponse _ _ x => exact execEvictResponse_answers _ _ x _
  | snoop _ _ _ _ _ => exact execSnoop_answers ..
  | contextRestore _ _ _ => exact execContextRestore_answers ..
  | basilOperationEnd _ => exact execBasilOperationEnd_answers ..
  | candidateBudgetExhausted _ => exact execCandidateBudgetExhausted_answers ..
  | microcodeVerificationEnd => exact execMicrocodeVerificationEnd_answers ..
  | microcodeReload => exact execMicrocodeReload_answers ..
  | microcodeBankUncorrectable _ => exact execMicrocodeBankUncorrectable_answers ..
  | aesGcmEncrypt _ _ => exact execAesGcmEncrypt_answers ..
  | aesGcmDecrypt _ _ => exact execAesGcmDecrypt_answers ..
  | gmacGenerate _ _ => exact execGmacGenerate_answers ..
  | gmacVerify _ _ => exact execGmacVerify_answers ..
  | aesCcmEncrypt _ _ => exact execAesCcmEncrypt_answers ..
  | aesCcmDecrypt _ _ => exact execAesCcmDecrypt_answers ..
  | aesXtsEncrypt _ _ => exact execAesXtsEncrypt_answers ..
  | aesXtsDecrypt _ _ => exact execAesXtsDecrypt_answers ..
  | aesCbcEncrypt _ _ => exact execAesCbcEncrypt_answers ..
  | aesCbcDecrypt _ _ => exact execAesCbcDecrypt_answers ..
  | aesCtr _ _ => exact execAesCtr_answers ..
  | aesSivEncrypt _ _ => exact execAesSivEncrypt_answers ..
  | aesSivDecrypt _ _ => exact execAesSivDecrypt_answers ..
  | aesCmacGenerate _ _ => exact execAesCmacGenerate_answers ..
  | aesCmacVerify _ _ => exact execAesCmacVerify_answers ..
  | keyWrap _ _ => exact execKeyWrap_answers ..
  | keyUnwrap _ _ => exact execKeyUnwrap_answers ..
  | chacha20Poly1305Encrypt _ _ => exact execChacha20Poly1305Encrypt_answers ..
  | chacha20Poly1305Decrypt _ _ => exact execChacha20Poly1305Decrypt_answers ..
  | hash _ _ => exact execHash_answers ..
  | hmacGenerate _ _ => exact execHmacGenerate_answers ..
  | hmacVerify _ _ => exact execHmacVerify_answers ..
  | encryptThenMac _ _ => exact execEncryptThenMac_answers ..
  | verifyThenDecrypt _ _ => exact execVerifyThenDecrypt_answers ..
  | rsaPrivate _ _ => exact execRsaPrivate_answers ..
  | rsaPublic _ _ => exact execRsaPublic_answers ..
  | ecdsaSign _ _ => exact execEcdsaSign_answers ..
  | ecdsaVerify _ _ => exact execEcdsaVerify_answers ..
  | ecdh _ _ => exact execEcdh_answers ..
  | keyGeneration _ _ => exact execKeyGeneration_answers ..
  | eddsaSign _ _ => exact execEddsaSign_answers ..
  | eddsaVerify _ _ => exact execEddsaVerify_answers ..
  | x25519 _ _ => exact execX25519_answers ..
  | mlKemKeyGeneration _ _ => exact execMlKemKeyGeneration_answers ..
  | mlKemEncapsulation _ _ => exact execMlKemEncapsulation_answers ..
  | mlKemDecapsulation _ _ => exact execMlKemDecapsulation_answers ..
  | mlDsaKeyGeneration _ _ => exact execMlDsaKeyGeneration_answers ..
  | mlDsaSign _ _ => exact execMlDsaSign_answers ..
  | mlDsaVerify _ _ => exact execMlDsaVerify_answers ..
  | curveLoad _ _ => exact execCurveLoad_answers ..
  | timeStatementRequest _ _ => exact execTimeStatementRequest_answers ..
  | ptpEgress _ => exact execPtpEgress_answers ..
  | ptpIngressVerify _ => exact execPtpIngressVerify_answers ..
  | ntsClientRequest _ => exact execNtsClientRequest_answers ..
  | ntsClientResponseVerify _ => exact execNtsClientResponseVerify_answers ..
  | ntsServerExchange _ => exact execNtsServerExchange_answers ..
  | adjust _ => exact execAdjust_answers ..
  | step _ => exact execStep_answers ..
  | sample _ => exact execSample_answers ..
  | modeSelect _ => exact execModeSelect_answers ..
  | keyEntry _ => exact execKeyEntry_answers ..
  | utc _ => exact execUtc_answers ..
  | fence _ _ => exact execFence_answers ..
  | noOp _ _ => exact execNoOp_answers ..
  | holdoverEntry => exact execHoldoverEntry_answers ..
  | temperatureSample _ => exact execTemperatureSample_answers ..
  | stepApplied => exact execStepApplied_answers ..
  | leap => exact execLeap_answers ..
  | sgInitLoad _ => exact execSgInitLoad_answers ..
  | counterReturn _ => exact execCounterReturn_answers ..
  | pipelineStart _ => exact execPipelineStart_answers ..
  | pipelineHandover _ _ _ => exact execPipelineHandover_answers ..
  | timestampStrobe _ _ => exact execTimestampStrobe_answers ..
  | ppsInputEdge _ _ => exact execPpsInputEdge_answers ..
  | ppsOutputEdge _ => exact execPpsOutputEdge_answers ..
  | eventWrite _ => exact execEventWrite_answers ..
  | eventTimeout _ => exact execEventTimeout_answers ..
  | headWordRead _ _ => exact execHeadWordRead_answers ..
  | eventWriteResponse _ _ => exact execEventWriteResponse_answers ..
  | dirtyLogRecordWrite _ => exact execDirtyLogRecordWrite_answers ..
  | overflowClear _ _ => exact execOverflowClear_answers ..
  | stopped _ => exact execStopped_answers ..
  | mbT2mDb _ _ _ => exact execMbT2mDb_answers ..
  | mbM2tDb _ _ _ => exact execMbM2tDb_answers ..
  | t2mAck _ _ => exact execT2mAck_answers ..
  | m2tAck _ _ => exact execM2tAck_answers ..
  | mailboxDisable _ _ _ => exact execMailboxDisable_answers ..
  | mailboxEnable _ _ _ => exact execMailboxEnable_answers ..
  | mailboxAreaWrite _ _ _ _ => exact execMailboxAreaWrite_answers ..
  | identify _ => exact execIdentify_answers ..
  | getLogDeferredError _ => exact execGetLogDeferredError_answers ..
  | getLogPlan _ => exact execGetLogPlan_answers ..
  | getLogMigrationState _ => exact execGetLogMigrationState_answers ..
  | getLogSelfTest _ => exact execGetLogSelfTest_answers ..
  | getFeaturesInterruptCoalescing _ => exact execGetFeaturesInterruptCoalescing_answers ..
  | getFeaturesEventQueue _ => exact execGetFeaturesEventQueue_answers ..
  | getFeaturesMigrationControl _ => exact execGetFeaturesMigrationControl_answers ..
  | setFeaturesInterruptCoalescing _ => exact execSetFeaturesInterruptCoalescing_answers ..
  | setFeaturesEventQueue _ => exact execSetFeaturesEventQueue_answers ..
  | logStart _ => exact execLogStart_answers ..
  | stop _ => exact execStop_answers ..
  | logEnd _ => exact execLogEnd_answers ..
  | restoreCount _ => exact execRestoreCount_answers ..
  | microcodeDownload _ => exact execMicrocodeDownload_answers ..
  | microcodeActivate _ => exact execMicrocodeActivate_answers ..
  | createQueue _ => exact execCreateQueue_answers ..
  | deleteQueue _ => exact execDeleteQueue_answers ..
  | domainCreate _ => exact execDomainCreate_answers ..
  | domainResize _ => exact execDomainResize_answers ..
  | domainReset _ => exact execDomainReset_answers ..
  | domainDelete _ => exact execDomainDelete_answers ..
  | domainResetComplete _ => exact execDomainResetComplete_answers ..
  | selfTestChiveLane _ => exact execSelfTestChiveLane_answers ..
  | selfTestBunch _ => exact execSelfTestBunch_answers ..
  | selfTestDillLane _ => exact execSelfTestDillLane_answers ..
  | selfTestBasilSequencer _ => exact execSelfTestBasilSequencer_answers ..
  | selfTestMemoryDataPort _ => exact execSelfTestMemoryDataPort_answers ..
  | selfTestSageStandbyCounter _ => exact execSelfTestSageStandbyCounter_answers ..
  | selfTestThymeLockstepPair _ => exact execSelfTestThymeLockstepPair_answers ..
  | selfTestKeyBusLane _ => exact execSelfTestKeyBusLane_answers ..
  | selfTestEntropySource _ => exact execSelfTestEntropySource_answers ..
  | selfTestStart _ _ => exact execSelfTestStart_answers ..
  | selfTestTimeout _ _ => exact execSelfTestTimeout_answers ..
  | selfTestEnd _ _ _ => exact execSelfTestEnd_answers ..
  | loadKeyByHandle _ => exact execLoadKeyByHandle_answers ..
  | loadKeyAesKw _ => exact execLoadKeyAesKw_answers ..
  | loadKeyAesKwp _ => exact execLoadKeyAesKwp_answers ..
  | postedLoadRun _ => exact execPostedLoadRun_answers ..
  | registerPathOpen _ => exact execRegisterPathOpen_answers ..
  | registerPathFinish _ => exact execRegisterPathFinish_answers ..
  | registerPathClose _ => exact execRegisterPathClose_answers ..
  | dgRpData _ _ => exact execDgRpData_answers ..
  | dgRpLast _ _ => exact execDgRpLast_answers ..
  | registerPathDone => exact execRegisterPathDone_answers ..
  | registerPathDataError => exact execRegisterPathDataError_answers ..
  | go _ => exact execGo_answers ..
  | resume _ => exact execResume_answers ..
  | drain _ => exact execDrain_answers ..
  | quiesce _ => exact execQuiesce_answers ..
  | lightSleep _ => exact execLightSleep_answers ..
  | deepSleep _ => exact execDeepSleep_answers ..
  | provision _ => exact execProvision_answers ..
  | reset _ => exact execReset_answers ..
  | drainedPoint => exact execDrainedPoint_answers ..
  | drainLimitExpiry => exact execDrainLimitExpiry_answers ..
  | wakeTimer => exact execWakeTimer_answers ..
  | wakeIn => exact execWakeIn_answers ..
  | powerOnReset => exact execPowerOnReset_answers ..
  | deviceReset => exact execDeviceReset_answers ..
  | mainReset => exact execMainReset_answers ..
  | pdAonSupplyLoss => exact execPdAonSupplyLoss_answers ..
  | sense => exact execSense_answers ..
  | startupTestsEnd _ => exact execStartupTestsEnd_answers ..
  | enterService => exact execEnterService_answers ..
  | transition _ _ => exact execTransition_answers ..
  | otpCopyDone _ _ => exact execOtpCopyDone_answers ..
  | programInstanceSlot _ _ => exact execProgramInstanceSlot_answers ..
  | programEcdsaDigest _ _ => exact execProgramEcdsaDigest_answers ..
  | programMlDsaDigest _ _ => exact execProgramMlDsaDigest_answers ..
  | revokeEcdsaKey _ _ => exact execRevokeEcdsaKey_answers ..
  | revokeMlDsaKey _ _ => exact execRevokeMlDsaKey_answers ..
  | tamperSourceFire _ => exact execTamperSourceFire_answers ..
  | alarmPortsStop => exact execAlarmPortsStop_answers ..
  | alarmClear _ => exact execAlarmClear_answers ..
  | request _ _ => exact execRequest_answers ..
  | submit _ => exact execSubmit_answers ..
  | debugClose _ => exact execDebugClose_answers ..
  | debugOpen _ _ => exact execDebugOpen_answers ..
  | debugResponseChecked => exact execDebugResponseChecked_answers ..
  | challengeExpiry => exact execChallengeExpiry_answers ..
  | lockstepMismatch _ _ _ _ => exact execLockstepMismatch_answers ..
  | halfRejoin _ _ _ => exact execHalfRejoin_answers ..
  | uncorrectableError _ => exact execUncorrectableError_answers ..
  | scrub _ _ _ => exact execScrub_answers ..
  | entropyHealthFail _ => exact execEntropyHealthFail_answers ..
  | pllSwitch _ => exact execPllSwitch_answers ..
  | registerInterfaceFail => exact execRegisterInterfaceFail_answers ..
  | kbRst _ => exact execKbRst_answers ..
  | linkUpLow _ => exact execLinkUpLow_answers ..
  | echoResponse _ _ => exact execEchoResponse_answers ..
  | rcCounterRead _ _ => exact execRcCounterRead_answers ..
  | registerWrite _ _ _ _ _ => exact execRegisterWrite_answers ..
  | mainGood => exact execMainGood_answers ..
  | timeGood => exact execTimeGood_answers ..
  | entropyStartUpTestsEnd => exact execEntropyStartUpTestsEnd_answers ..

theorem exec_keeps {i : Instr} {s t : State} (h : exec i s = .next t) : s.Keeps t := by
  obtain ⟨u, hu, hkeeps⟩ := exec_answers i s
  rw [h] at hu
  exact Host.Outcome.next.inj hu ▸ hkeeps

/-- Settles O2: a command's answer is a next state, with the queue of the state it found. -/
theorem commandsLeaveTheQueue : Obligations.CommandsLeaveTheQueue := by
  unfold Obligations.CommandsLeaveTheQueue
  intro i s
  obtain ⟨t, ht, hkeeps⟩ := exec_answers i s
  exact ⟨t, ht, hkeeps.pending⟩

/-- Settles O56: a copy changes by programming alone, which adds bits to it; a loss of power programs a part of them. -/
theorem otpOnlyGrows : Obligations.OtpOnlyGrows := by
  unfold Obligations.OtpOnlyGrows
  intro i s t w h
  obtain ⟨-, hmono, hvals, -, -⟩ := exec_keeps h
  obtain ⟨ha, hb, hc⟩ := hmono w
  exact ⟨ha, hb, hc, hvals w⟩

/-- The form of the areas, of the domains and of those that wait. -/
theorem State.canonical_iff (s : State) : s.kept.Canonical ↔ (∀ x ∈ s.domains, Memory.wf x.mailbox.area = true) ∧
    ∀ x e, Change.addDomain x e ∈ s.admin.changes → Memory.wf x.mailbox.area = true := by
  simp only [Kept.Canonical, State.kept, List.mem_append, List.mem_map, List.mem_filterMap, or_imp, forall_and]
  refine and_congr (by simp) ⟨fun h x e hx => h _ ⟨_, hx, rfl⟩, fun h m hm => ?_⟩
  obtain ⟨c, hc, hm⟩ := hm
  cases c with
  | addDomain x e => exact Option.some.inj hm ▸ h x e hc
  | _ => simp [Change.area?] at hm

/-- A step moves the queue on and keeps the form of the areas. -/
theorem step_canonical {s t : State} (h : step s = .next t) (hs : s.kept.Canonical) : t.kept.Canonical := by
  cases hq : s.pending with
  | nil =>
    rw [step_empty hq] at h
    rw [← Host.Outcome.next.inj h, State.idle_kept]
    exact hs
  | cons c rest =>
    rw [step_front hq] at h
    exact (exec_keeps h).canonical hs

/-- Settles O59: no area at reset, and every step keeps the form. -/
theorem mailboxAreasCanonical : Obligations.MailboxAreasCanonical := by
  unfold Obligations.MailboxAreasCanonical
  simp only [← State.canonical_iff]
  exact ⟨fun m hm => absurd hm (by simp [State.kept, State.reset, Admin.reset]), fun s t hs h => step_canonical h hs⟩

/-- Saturation changes no value inside the range, and gives the end that the others have passed. -/
theorem satCredit_is (v : Int) : (-8388608 ≤ v → v ≤ 8388607 → satCredit v = v) ∧ (8388607 < v → satCredit v = 8388607) ∧
    (v < -8388608 → satCredit v = -8388608) := by
  unfold satCredit
  omega

theorem State.credits_setCredits (s : State) (u : LaneKind) (l : List (Nat × Int)) : (s.setCredits u l).credits u = l := by cases u <;> rfl

theorem State.held_iff (s : State) : s.kept.Held ↔ ∀ u x, x ∈ s.credits u → -8388608 ≤ x.2 ∧ x.2 ≤ 8388607 := by
  refine ⟨fun h u x hx => h x (State.mem_credits hx), fun h x hx => ?_⟩
  exact (List.mem_append.1 hx).elim (h .chive x) (h .dill x)

/-- Settles O60: no credit at reset, every command keeps the range, and the two writes of credits saturate. -/
theorem borrowingCreditSaturates : Obligations.BorrowingCreditSaturates := by
  unfold Obligations.BorrowingCreditSaturates
  simp only [← State.held_iff]
  refine ⟨fun x hx => absurd hx (by simp [State.kept, State.reset, Thyme.reset]), fun i s t h => (exec_keeps h).held, fun s u => ⟨?_, fun d => ?_⟩⟩
  · intro m x hx
    rw [State.addWeights, State.credits_setCredits] at hx
    obtain ⟨p, hp, rfl⟩ := List.mem_map.1 hx
    refine ⟨p, hp, rfl, fun hw => ?_, fun hw => by simp [hw]⟩
    simp only [hw, if_true]
    exact satCredit_is _
  · rw [State.payCredit, State.credits_setCredits, assocD_assocSet]
    simp only [beq_self_eq_true, if_true]
    exact satCredit_is _

end Sys2Proof.Machine
end

section
/-! PROOF. Tamper (R396, R412): in a Start-up test whose step 2 has not been done, which no run of the block reaches, an alarm reads OTP as it does in Sense, and with it the statement TamperRule fails. -/

namespace Sys2Proof.Machine

theorem exec_tamperSourceFire {s : State} {n : Nat} (h : sourceActive s.mode.mode n = true) :
    exec (.tamperSourceFire n) s = .next (s.fire n false) := by
  simp only [exec, execTamperSourceFire, guarded, h, if_true, done]

/-- The hit bit of a source that fires (R412). -/
def State.hitBy (s : State) (n : Nat) : State :=
  s.setLovage fun l => { l with hit := l.hit ||| causeBit 12 n, firing := l.firing ||| causeBit 12 n }

theorem State.fire_enabled {s : State} {n : Nat} (h : s.tamperEnabled &&& causeBit 12 n ≠ 0) :
    s.fire n false = (s.hitBy n).latchAlarm (causeBit 12 n) := by
  have hon : (s.hitBy n).tamperEnabled &&& causeBit 12 n ≠ 0 := h
  rw [State.fire]
  exact if_pos (by simp only [Bool.false_or, bne_iff_ne]; exact hon)

/-- Start-up test with step 2 still to come, and an OTP whose word 17 has two bits in copy A alone. -/
def tornStartup : State :=
  { State.reset with
    mode := { State.reset.mode with mode := .startup }
    lovage := { State.reset.lovage with mono := [(17, { a := 3, b := 0, c := 0 })] } }

/-- Refutes O53: source 0 fires in that state; its alarm reads OTP and adds source 10, where the statement has source 0 alone, since the mode is not Sense. -/
theorem not_tamperRule : ¬Obligations.TamperRule := by
  unfold Obligations.TamperRule
  rintro ⟨hfire, -⟩
  have hactive : sourceActive tornStartup.mode.mode 0 = true := by decide
  have henabled : tornStartup.tamperEnabled &&& causeBit 12 0 ≠ 0 := by decide +kernel
  obtain ⟨t, ht, -, hlatch⟩ := hfire 0 tornStartup hactive
  obtain ⟨-, -, hnew⟩ := hlatch henabled
  obtain ⟨-, hone, -⟩ := hnew rfl
  obtain ⟨-, hhit⟩ := hone (by decide)
  rw [exec_tamperSourceFire hactive, State.fire_enabled henabled] at ht
  rw [← Host.Outcome.next.inj ht] at hhit
  exact absurd hhit (by decide +kernel)

end Sys2Proof.Machine
end

section
/-! PROOF. Mode control (R425, R428, R432 to R439, R484): how a request comes in its turn, what each does, the drained point, the drain limit and wakes; what a reset leaves of every power domain, and what Sense does: the statements ModeRequests and ResetsAndSense. -/

namespace Sys2Proof.Machine

section
variable {s : State} {src : From}

/-! ## Requests in their turn -/

/-- A request that mode control takes, with no access before it (R425, R477). -/
theorem State.modeWrite_of_free {req : BitVec 64} (hw : s.windowWrite src = true) (hf : req = 8 ∨ s.mode.fail = 0) (hfree : s.dill.rp.held = [])
    (f : State → State) : s.modeWrite src req f = .next (f s) := by
  simp only [State.modeWrite, guarded, hw, Bool.true_and, Bool.or_eq_true, beq_iff_eq, if_pos hf, State.inTurn_of_free hfree, done]

/-- A request behind others waits (R477). -/
theorem State.modeWrite_of_held {req : BitVec 64} (hw : s.windowWrite src = true) (hf : req = 8 ∨ s.mode.fail = 0) (hheld : s.dill.rp.held ≠ [])
    (f : State → State) : s.modeWrite src req f = .next (s.holdAccess (.write src 0x100 4 req)) := by
  simp only [State.modeWrite, guarded, hw, Bool.true_and, Bool.or_eq_true, beq_iff_eq, if_pos hf, State.inTurn_of_held hheld, done]

/-- A request in one of its modes, with no other carried out. -/
theorem State.request_taken {modes : List Mode} (h : s.mode.mode ∈ modes ∧ s.mode.target = 0) (f : State → State) : s.request modes f = f s := by
  simp [State.request, h]

theorem State.request_refused {modes : List Mode} (h : ¬(s.mode.mode ∈ modes ∧ s.mode.target = 0)) (f : State → State) :
    s.request modes f = s.refuseMode := by
  simp only [State.request, Bool.and_eq_true, List.contains_iff_mem, beq_iff_eq, if_neg h]

/-! ## What each request does -/

theorem State.recordChecks_setupErr (s : State) : s.recordChecks.setupErr = s.setupErr := by
  have h (a : Nat) (ha : a ≠ 0x20) : s.recordChecks.regSoon a = s.regSoon a := by
    unfold State.regSoon State.regN State.recordChecks
    rw [State.reg_setReg]
    simp [ha]
  simp [State.setupErr, State.setupChecks, h]

/-- When GO may be latched (R428, R432). -/
def State.GoOk (s : State) : Prop :=
  s.mode.target = 0 ∧ ((s.mode.mode = .startup ∧ s.mode.hold = true) ∨ (s.mode.mode = .provisioning ∧ s.lovage.goAllowed = true))

theorem State.goRequest_ok (h : s.GoOk) : s.goRequest = { s.recordChecks with
    mode := if s.setupErr = 0 then { s.mode with latched := some .go, target := 1 } else { s.mode with reqErr := true } } := by
  obtain ⟨htarget, hmode⟩ := h
  have htaken : s.recordChecks.mode.mode ∈ [Mode.startup, .provisioning] ∧ s.recordChecks.mode.target = 0 :=
    ⟨by rcases hmode with ⟨h, -⟩ | ⟨h, -⟩ <;> simp [State.recordChecks, State.setReg, h], htarget⟩
  have hlatch : s.recordChecks.latchGo = { s.recordChecks with
      mode := if s.setupErr = 0 then { s.mode with latched := some .go, target := 1 } else { s.mode with reqErr := true } } := by
    unfold State.latchGo
    rw [State.recordChecks_setupErr]
    split <;> rfl
  rw [State.goRequest, State.request_taken htaken, ← hlatch]
  refine if_pos ?_
  rcases hmode with ⟨h, hhold⟩ | ⟨h, hgo⟩ <;> simpa [State.recordChecks, State.setReg, h]

theorem State.goRequest_refused (h : ¬s.GoOk) : s.goRequest = { s.recordChecks with mode := { s.mode with reqErr := true } } := by
  by_cases htaken : s.recordChecks.mode.mode ∈ [Mode.startup, .provisioning] ∧ s.recordChecks.mode.target = 0
  · rw [State.goRequest, State.request_taken htaken]
    refine if_neg fun hif => h ⟨htaken.2, ?_⟩
    have hmode : s.mode.mode = .startup ∨ s.mode.mode = .provisioning := by simpa [State.recordChecks, State.setReg] using htaken.1
    rcases hmode with hm | hm
    · exact .inl ⟨hm, by simpa [State.recordChecks, State.setReg, hm] using hif⟩
    · exact .inr ⟨hm, by simpa [State.recordChecks, State.setReg, hm] using hif⟩
  · rw [State.goRequest, State.request_refused htaken]
    rfl

theorem State.provisionRequest_ok (h : s.mode.mode = .startup ∧ s.mode.target = 0 ∧ s.mode.hold = true) :
    s.provisionRequest = { s with mode := { s.mode with latched := some .provision, target := 7 } } := by
  obtain ⟨hmode, htarget, hhold⟩ := h
  rw [State.provisionRequest, State.request_taken ⟨by simp [hmode], htarget⟩, if_pos hhold]
  rfl

theorem State.provisionRequest_refused (h : ¬(s.mode.mode = .startup ∧ s.mode.target = 0 ∧ s.mode.hold = true)) :
    s.provisionRequest = s.refuseMode := by
  by_cases htaken : s.mode.mode ∈ [Mode.startup] ∧ s.mode.target = 0
  · rw [State.provisionRequest, State.request_taken htaken]
    exact if_neg fun hhold => h ⟨List.mem_singleton.1 htaken.1, htaken.2, hhold⟩
  · exact State.request_refused htaken _

theorem State.resumeRequest_quiesce (h : s.mode.mode = .quiesce ∧ s.mode.target = 0) :
    s.resumeRequest = { s with mode := { s.mode with target := 2 } } := by
  simp [State.resumeRequest, h, State.setMode]

theorem State.resumeRequest_drain (h : s.mode.mode = .drain ∧ s.mode.target = 3) (hp : s.mode.fromProv = false) :
    s.resumeRequest = { s with mode := { s.mode with resume := true } } := by
  simp [State.resumeRequest, h, hp, State.setMode]

theorem State.resumeRequest_fromProv (h : s.mode.mode = .drain ∧ s.mode.target = 3) (hp : s.mode.fromProv = true) :
    s.resumeRequest = { s.recordChecks with
      mode := if s.lovage.goAllowed = true ∧ s.setupErr = 0 then { s.mode with resume := true } else { s.mode with reqErr := true } } := by
  rw [State.resumeRequest, if_neg (by simp [h]), if_pos (by simp [h]), if_neg (by simp [hp])]
  dsimp only
  have hlovage : s.recordChecks.lovage = s.lovage := rfl
  rw [State.recordChecks_setupErr, hlovage]
  by_cases hgo : s.lovage.goAllowed = true ∧ s.setupErr = 0
  · rw [if_pos hgo, if_pos (by simpa using hgo)]
    rfl
  · rw [if_neg hgo, if_neg (by simpa using hgo)]
    rfl

theorem State.resumeRequest_refused (hq : ¬(s.mode.mode = .quiesce ∧ s.mode.target = 0)) (hd : ¬(s.mode.mode = .drain ∧ s.mode.target = 3)) :
    s.resumeRequest = s.refuseMode := by
  simp only [State.resumeRequest, Bool.and_eq_true, beq_iff_eq, if_neg hq, if_neg hd]

theorem State.drainRequest_enters (h : s.mode.mode ∈ drainFrom ∧ s.mode.target = 0) (n : BitVec 4) : (State.drainRequest n s).mode =
    { s.mode with mode := .drain, target := n, quiet := false, drainTick := s.thyme.tick, fromProv := s.mode.mode == .provisioning,
                  resume := false, drainedPt := false } := by
  rw [State.drainRequest, State.request_taken h]
  exact State.mode_of_still (State.releaseHolds_still _)

/-- A value that is no request (R425, R484). -/
theorem State.modeRequest_none {n : Nat} (h : n = 0 ∨ 8 < n) : s.modeRequest n = s.refuseMode := by
  obtain rfl | ⟨k, rfl⟩ : n = 0 ∨ ∃ k, n = k + 9 := h.imp_right fun h => ⟨n - 9, by omega⟩ <;> rfl

/-! ## The drained point and the drain limit -/

/-- A loss of power in the middle of a copy touches OTP and the model's counter alone (R410). -/
theorem State.tearOtp_rest (s : State) : ∃ l n, s.tearOtp = { s with lovage := l, free := n } := by
  unfold State.tearOtp
  split <;> exact ⟨_, _, rfl⟩

theorem State.losePdMain_rest (s : State) : s.losePdMain.fennel = .reset ∧ s.losePdMain.bay = .reset ∧ s.losePdMain.domains = [] ∧
    s.losePdMain.txns = [] ∧ s.losePdMain.mint = .reset ∧ s.losePdMain.sage = { s.sage with pipe := [] } ∧
    s.losePdMain.thyme.tick = s.thyme.tick ∧ s.losePdMain.aon = s.aon ∧ s.losePdMain.regs = s.regs ∧
    s.losePdMain.admin = { Admin.reset with changes := s.admin.changes.filter Change.isSg } := by
  obtain ⟨l, n, h⟩ := s.tearOtp_rest
  simp [State.losePdMain, h, Thyme.lost]

/-- What the drained point leads to, by the target (R434, R437, R421). -/
def State.leaveDrain (s : State) : State :=
  match s.mode.target with
  | 5 => s.enterLight
  | 6 => s.enterDeep
  | 9 => s.enterDebug
  | _ => s

theorem exec_drainedPoint (h : s.atDrainedPoint = true) : exec .drainedPoint s = .next s.leaveDrain := by
  simp only [exec, execDrainedPoint, guarded, h, if_true, done]
  rfl

theorem State.checkHold_unposted (s : State) (d : Nat) : (s.checkHold d).unposted = s.unposted := by
  unfold State.checkHold State.endRecovery
  dsimp only
  split
  · exact s.setEvq_unposted ..
  · simp only [apply_ite State.unposted, State.emit_unposted, State.setEvq_unposted, ite_self]

theorem State.releaseHolds_unposted (s : State) : s.releaseHolds.unposted = s.unposted :=
  foldl_keeps State.unposted _ (fun s _ => s.checkHold_unposted _) _ s

/-- Authorised debug (R421): the key bus is closed and the class open. -/
theorem State.enterDebug_opens (s : State) : s.enterDebug.mode.mode = .authDebug ∧ s.enterDebug.bay.slots = [] ∧
    s.enterDebug.lovage.dbgClosed = true ∧ s.enterDebug.lovage.dbgClass = (s.lovage.granted.getD (0, false)).1 := by
  unfold State.enterDebug
  dsimp only
  have h {α : Type} (view : State → α) (hv : ∀ u : State, view u.unposted = view u) (u : State) : view u.releaseHolds = view u := by
    rw [← hv, State.releaseHolds_unposted, hv]
  rw [h (·.mode.mode) fun _ => rfl, h (·.bay.slots) fun _ => rfl, h (·.lovage.dbgClosed) fun _ => rfl, h (·.lovage.dbgClass) fun _ => rfl]
  exact ⟨rfl, rfl, rfl, rfl⟩

/-- The fields that abandoned jobs and drained banks leave alone but by their own work. -/
theorem State.abandonJob_jobs (s : State) (q : Nat) (c : BitVec 17) :
    (s.abandonJob q c).fennel.jobs = s.fennel.jobs.filter fun j => !(j.queue == q && j.count == c) := rfl

/-- Every job of a list that is abandoned is gone. -/
theorem State.abandonJobs_jobs (l : List Job) (s : State) : (l.foldl (fun s j => s.abandonJob j.queue j.count) s).fennel.jobs =
    s.fennel.jobs.filter fun j => l.all fun i => !(j.queue == i.queue && j.count == i.count) := by
  induction l generalizing s with
  | nil => simp
  | cons i l ih =>
    rw [List.foldl_cons, ih, State.abandonJob_jobs, List.filter_filter]
    congr 1
    funext j
    rw [List.all_cons, Bool.and_comm]

/-- The queues' work and the posted loads. -/
def State.work (s : State) : Fennel × Admin := (s.fennel, s.admin)

theorem State.ucodeEvent_work (s : State) (b : Bool) (n : Nat) (d : Bytes) : (s.ucodeEvent b n d).work = s.work :=
  (congrArg State.work (State.event_unposted ..) :)

theorem State.commitStart_work (s : State) (b : Bool) : (s.commitStart b).work = s.work := by
  have hstart (k : OtpKind) (steps : List OtpStep) : (s.otpStart k steps).work = s.work := by rfl
  simp only [State.commitStart, apply_ite State.work, State.ucodeEvent_work, hstart, ite_self]

theorem State.bankDrained_work (s : State) (b : Bool) : (s.bankDrained b).work = s.work := by
  unfold State.bankDrained
  dsimp only
  split
  · have hevent : ((s.setBank b fun x => { x with state := .standby }).ucodeEvent b 1 []).work = s.work := State.ucodeEvent_work ..
    split
    · exact (State.commitStart_work ..).trans hevent
    · exact hevent
  · rfl

/-- DRAIN_LIMIT_EXPIRY leaves no job and no posted load (R435). -/
theorem exec_drainLimitExpiry (hmode : s.mode.mode = .drain) (hlimit : s.drainLimit = true) :
    ∃ t : State, exec .drainLimitExpiry s = .next t ∧ t.fennel.jobs = [] ∧ t.admin.loads = [] := by
  let u := s.fennel.jobs.foldl (fun s j => s.abandonJob j.queue j.count) s
  let v : State := { u with admin := { u.admin with loads := [] } }
  have hwork : v.banksDrained.work = v.work := ((v.bankDrained false).bankDrained_work true).trans (v.bankDrained_work false)
  have hfennel : v.banksDrained.fennel = v.fennel := congrArg Prod.fst hwork
  have hadmin : v.banksDrained.admin = v.admin := congrArg Prod.snd hwork
  refine ⟨v.banksDrained, by simp [exec, execDrainLimitExpiry, guarded, done, hmode, hlimit, v, u], ?_, ?_⟩
  · rw [hfennel]
    show u.fennel.jobs = []
    rw [State.abandonJobs_jobs, List.filter_eq_nil_iff]
    intro j hj hall
    have := List.all_eq_true.1 hall j hj
    simp at this
  · rw [hadmin]

end

/-! ## Wakes -/

theorem State.wake_sense (s : State) (n : Nat) : (s.wake n).mode.mode = .sense ∧ (s.wake n).aon.wakeCause = s.aon.wakeCause ||| causeBit 4 n :=
  ⟨rfl, rfl⟩

theorem exec_wakeTimer {s : State} (hs : s.wakeEnabled 0 = true) (hlight : s.mode.mode ≠ .deepSleep → s.thyme.tick = s.regN 0x110)
    (hdeep : s.mode.mode = .deepSleep → s.aon.aonCount % 2 ^ 48 = s.regN 0x110 % 2 ^ 48) : exec .wakeTimer s = .next (s.wake 0) := by
  have hcount : (if s.mode.mode == .deepSleep then s.aon.aonCount % 2 ^ 48 == s.regN 0x110 % 2 ^ 48 else s.thyme.tick == s.regN 0x110) = true := by
    by_cases h : s.mode.mode = .deepSleep
    · rw [if_pos (by simp [h])]
      exact beq_iff_eq.2 (hdeep h)
    · rw [if_neg (by simp [h])]
      exact beq_iff_eq.2 (hlight h)
  simp only [exec, execWakeTimer, guarded, done, hs, hcount, Bool.and_self, if_true]

/-- Settles O48: each request by its lemma, in its turn or behind others. -/
theorem modeRequests : Obligations.ModeRequests := by
  unfold Obligations.ModeRequests
  refine ⟨fun src s hw hf hheld => ?_, fun src s hw hf hfree => ?_, fun s hdrained => ?_, fun s hmode hlimit => exec_drainLimitExpiry hmode hlimit,
    fun s hsleep => ?_⟩
  · have hwaits (req : BitVec 64) (f : State → State) := State.modeWrite_of_held (req := req) hw (.inr hf) hheld f
    simp only [List.forall_mem_cons, List.not_mem_nil, false_imp_iff, implies_true, and_true]
    exact ⟨hwaits 1 _, hwaits 2 _, hwaits 3 _, hwaits 4 _, hwaits 5 _, hwaits 6 _, hwaits 7 _, hwaits 8 _⟩
  · have hdoes (req : BitVec 64) (f : State → State) : s.modeWrite src req f = .next (f s) := State.modeWrite_of_free hw (.inr hf) hfree f
    have hdrains (h : s.mode.mode ∈ drainFrom ∧ s.mode.target = 0) (req : BitVec 64) (n : BitVec 4) :
        ∃ t : State, s.modeWrite src req (State.drainRequest n) = .next t ∧ t.mode = { s.mode with
          mode := .drain, target := n, quiet := false, drainTick := s.thyme.tick, fromProv := s.mode.mode == .provisioning, resume := false,
          drainedPt := false } := ⟨_, hdoes _ _, State.drainRequest_enters h n⟩
    refine ⟨?_, fun h => (hdoes _ _).trans (congrArg _ (State.goRequest_ok h)), fun h => (hdoes _ _).trans (congrArg _ (State.goRequest_refused h)),
      fun h => (hdoes _ _).trans (congrArg _ (State.provisionRequest_ok h)),
      fun h => (hdoes _ _).trans (congrArg _ (State.provisionRequest_refused h)),
      fun h => (hdoes _ _).trans (congrArg _ (State.resumeRequest_quiesce h)),
      fun h hp => (hdoes _ _).trans (congrArg _ (State.resumeRequest_drain h hp)),
      fun h hp => (hdoes _ _).trans (congrArg _ (State.resumeRequest_fromProv h hp)),
      fun hq hd => (hdoes _ _).trans (congrArg _ (State.resumeRequest_refused hq hd)), fun h => ?_, fun h => ?_,
      fun h => ⟨hdrains h 3 3, hdrains h 5 5, hdrains h 6 6⟩, fun h => ?_, fun v hv => ?_⟩
    · rw [State.recordChecks, State.regN, State.reg_setReg]
      simp
    · exact (hdoes _ _).trans (congrArg _ (State.request_taken ⟨by simpa using h.1, h.2⟩ _))
    · exact (hdoes _ _).trans (congrArg _ (State.request_refused (by simpa using h) _))
    · have hrefused (req : BitVec 64) (n : BitVec 4) : s.modeWrite src req (State.drainRequest n) = .next s.refuseMode :=
        (hdoes _ _).trans (congrArg _ (State.request_refused h _))
      exact ⟨hrefused 3 3, hrefused 5 5, hrefused 6 6⟩
    · have hunit : s.unitWrite src = true := by simp [State.unitWrite, hw, hf]
      exact (exec_registerWrite_command hunit hfree (by decide) (by decide +kernel) (by decide) v).trans (congrArg _ (State.modeRequest_none hv))
  · refine ⟨_, exec_drainedPoint hdrained, fun h => ?_, fun h => ?_, fun h => ?_, fun h5 h6 h9 => ?_⟩
    · obtain ⟨hfennel, hbay, -, -, -, hsage, -⟩ := s.losePdMain_rest
      simp only [State.leaveDrain, h]
      exact ⟨rfl, congrArg Fennel.queues hfennel, congrArg Bay.slots hbay, (congrArg Sage.now hsage :)⟩
    · obtain ⟨hfennel, hbay, -⟩ := s.losePdMain_rest
      simp only [State.leaveDrain, h]
      exact ⟨rfl, congrArg Fennel.queues hfennel, congrArg Bay.slots hbay, rfl, rfl, rfl⟩
    · simp only [State.leaveDrain, h]
      exact s.enterDebug_opens
    · unfold State.leaveDrain
      split
      · exact absurd ‹_› h5
      · exact absurd ‹_› h6
      · exact absurd ‹_› h9
      · rfl
  · have henabled (n : Nat) (h : bit (s.regN 0x108) n = true) : s.wakeEnabled n = true := by
      simp only [State.wakeEnabled, h, Bool.and_true, Bool.or_eq_true, beq_iff_eq]
      exact hsleep
    simp only [List.forall_mem_cons, List.not_mem_nil, false_imp_iff, implies_true, and_true]
    refine ⟨fun hbit hl hd => ⟨_, exec_wakeTimer (henabled 0 hbit) (fun h => hl trivial (hsleep.resolve_right h)) (hd trivial), s.wake_sense 0⟩,
      fun hbit _ _ => ⟨s.wake 1, ?_, s.wake_sense 1⟩⟩
    simp [exec, execWakeIn, guarded, done, henabled 1 hbit]

end Sys2Proof.Machine
end

section
/-! PROOF. Resets and Sense (R396, R401, R410, R417, R425 to R427, R439, Table 14.6): what is left of OTP and of each power domain, and the way out of Sense: the statement ResetsAndSense. -/

namespace Sys2Proof.Machine

/-! ## OTP -/

/-- What a loss of power leaves of OTP: all of it, or the copy in progress with a part of its bits (R410). -/
def State.OtpLeft (s t : State) : Prop :=
  ((∀ o, s.lovage.op = some o → o.steps = []) → t.lovage.mono = s.lovage.mono ∧ t.lovage.vals = s.lovage.vals) ∧
  (∀ o st rest, s.lovage.op = some o → o.steps = st :: rest → ∃ (v : BitVec 32) (d : Bool),
    t.lovage.mono = (s.lovage.program st (st.bits &&& v) d).mono ∧ t.lovage.vals = (s.lovage.program st (st.bits &&& v) d).vals)

theorem State.tearOtp_otp (s : State) : s.OtpLeft s.tearOtp := by
  refine ⟨fun h => ?_, fun o st rest ho hst => ?_⟩
  · unfold State.tearOtp
    split
    · rename_i st rest hop
      obtain ⟨o, ho, hst⟩ := Option.map_eq_some_iff.1 hop
      rw [h o ho] at hst
      simp at hst
    · exact ⟨rfl, rfl⟩
  · unfold State.tearOtp
    rw [show s.lovage.op.map (·.steps) = some (st :: rest) by rw [ho, ← hst]; rfl]
    exact ⟨_, _, rfl, rfl⟩

theorem State.OtpLeft.of_eq {s t u : State} (h : s.OtpLeft t) (hm : u.lovage.mono = t.lovage.mono) (hv : u.lovage.vals = t.lovage.vals) :
    s.OtpLeft u := by
  unfold State.OtpLeft
  rw [hm, hv]
  exact h

/-! ## Setup registers -/

theorem regsReset_nodup : (regsReset.map (·.1)).Nodup := by decide +kernel

/-- A key's entry is found where no key stands twice. -/
theorem lookup_of_nodup {κ ν : Type} [BEq κ] [LawfulBEq κ] {l : List (κ × ν)} (h : (l.map (·.1)).Nodup) {x : κ × ν} (hx : x ∈ l) :
    l.lookup x.1 = some x.2 := by
  induction l with
  | nil => simp at hx
  | cons y l ih =>
    rw [List.map_cons, List.nodup_cons] at h
    rw [List.lookup_cons]
    rcases List.mem_cons.1 hx with rfl | hl
    · simp
    · have hne : x.1 ≠ y.1 := fun e => h.1 (e ▸ List.mem_map_of_mem hl)
      simp only [beq_eq_false_iff_ne.2 hne]
      exact ih h.2 hl

/-- A cell that is restored takes its kept value, or its Reset column. -/
theorem assocD_restoreRegs {keep : Nat → Bool} {old : RegFile} {x : Nat × BitVec 64} (hx : x ∈ regsReset) :
    assocD (restoreRegs keep old) x.1 0 = if keep x.1 then assocD old x.1 x.2 else x.2 := by
  have hkey (y : Nat × BitVec 64) : (if keep y.1 then (y.1, assocD old y.1 y.2) else y).1 = y.1 := by split <;> rfl
  have hkeys : (restoreRegs keep old).map (·.1) = regsReset.map (·.1) := by
    rw [restoreRegs, List.map_map]
    exact List.map_congr_left fun y _ => hkey y
  have hmem : (if keep x.1 then (x.1, assocD old x.1 x.2) else x) ∈ restoreRegs keep old := List.mem_map_of_mem hx
  have hfound := lookup_of_nodup (hkeys ▸ regsReset_nodup) hmem
  rw [hkey] at hfound
  rw [assocD, hfound]
  split <;> rfl

/-! ## Resets -/

theorem exec_powerOnReset {s : State} (h : s.mode.mode = .cold) : exec .powerOnReset s = .next (s.onlyOtp .reset 1) := by
  simp [exec, execPowerOnReset, guarded, done, h]

theorem exec_deviceReset {s : State} (h : s.resetInput = true) : exec .deviceReset s = .next (s.resetTo 1 false) := by
  simp [exec, execDeviceReset, guarded, done, h]

theorem exec_mainReset {s : State} (h : s.resetInput = true) : exec .mainReset s = .next (s.resetTo 2 true) := by
  simp [exec, execMainReset, guarded, done, h]

/-- When RESET is carried out (R425, R426). -/
def State.ResetAllowed (s : State) : Prop :=
  ((s.mode.mode = .startup ∨ s.mode.mode = .provisioning ∨ s.mode.mode = .authDebug) ∧ s.mode.target = 0) ∨
    (s.mode.mode = .alarm ∧ s.mode.aborting = false ∧ s.aon.alarmNow = false) ∨
    (s.mode.mode = .drain ∧ s.mode.target = 3 ∧ s.atDrainedPoint = true)

theorem State.resetRequest_allowed {s : State} (h : s.ResetAllowed) : s.resetRequest = s.resetTo 3 true := by
  refine if_pos ?_
  rcases h with ⟨hm | hm | hm, ht⟩ | ⟨hm, ha, hn⟩ | ⟨hm, ht, hp⟩
  · simp [hm, ht]
  · simp [hm, ht]
  · simp [hm, ht]
  · simp [hm, ha, hn]
  · simp [hm, ht, hp]

theorem State.resetRequest_refused {s : State} (h : ¬s.ResetAllowed) : s.resetRequest = s.refuseMode := by
  refine if_neg fun hok => h ?_
  unfold State.ResetAllowed
  split at hok <;> simp_all

/-- What a reset leaves but OTP (R439, Table 14.6). -/
theorem State.resetTo_leaves (s : State) (cause : Nat) (keepTime : Bool) :
    let t := s.resetTo cause keepTime
    t.mode.mode = .sense ∧
      t.mode.timeOn = true ∧ t.mode.target = 0 ∧ t.fennel = .reset ∧ t.domains = [] ∧ t.bay = .reset ∧ t.txns = [] ∧ t.mint = .reset ∧
      t.admin = { Admin.reset with changes := if keepTime then s.admin.changes.filter Change.isSg else [] } ∧
      t.aon.resetCause = s.aon.resetCause ||| causeBit 6 cause ∧ t.aon.alarmLatched = s.aon.alarmLatched ∧ s.OtpLeft t ∧
      (keepTime = true → t.sage.now = s.sage.now ∧ t.thyme.tick = s.thyme.tick ∧
        ∀ x ∈ regsReset, t.reg x.1 = if 0x70000 ≤ x.1 ∧ x.1 < 0x80000 then assocD s.regs x.1 x.2 else x.2) ∧
      (keepTime = false → t.sage = .reset ∧ t.regs = regsReset) := by
  obtain ⟨hfennel, hbay, hdomains, htxns, hmint, hsage, htick, haon, hregs, hadmin⟩ := s.losePdMain_rest
  have hotp : s.OtpLeft s.losePdMain := s.tearOtp_otp.of_eq rfl rfl
  cases keepTime
  · refine ⟨rfl, rfl, rfl, hfennel, hdomains, hbay, htxns, hmint, rfl, ?_, ?_, hotp.of_eq rfl rfl, by simp, fun _ => ⟨rfl, rfl⟩⟩
    · show s.losePdMain.aon.resetCause ||| _ = _
      rw [haon]
    · exact (congrArg Aon.alarmLatched haon :)
  · refine ⟨rfl, rfl, rfl, hfennel, hdomains, hbay, htxns, hmint, hadmin, ?_, ?_, hotp.of_eq rfl rfl, fun _ => ⟨?_, htick, fun x hx => ?_⟩, by simp⟩
    · show s.losePdMain.aon.resetCause ||| _ = _
      rw [haon]
    · exact (congrArg Aon.alarmLatched haon :)
    · exact (congrArg Sage.now hsage :)
    · refine (assocD_restoreRegs (keep := inSg) hx).trans ?_
      rw [if_pos rfl, hregs]
      simp only [inSg, Bool.and_eq_true, decide_eq_true_eq]

/-! ## Sense -/

/-- What step 2 of Table 14.4 leaves: the steps, PD_MAIN, and the state that OTP gave. -/
def State.sensed (s : State) : Steps × Bool × Life × Option Nat := (s.mode.steps, s.mode.mainOn, s.lovage.life, s.lovage.instSlot)

/-- In Sense with OTP read, an alarm stops start-up, and what OTP gave stays (R416, R417). -/
theorem State.fire_sensed {s : State} (hm : s.mode.mode = .sense) (h2 : s.mode.steps.s2 = true) (hon : s.mode.mainOn = true) (n : Nat)
    (always : Bool) : (s.fire n always).sensed = s.sensed := by
  unfold State.fire
  extract_lets m u
  have hu : u.mode = s.mode := rfl
  have hkept : u.sensed = s.sensed := rfl
  rw [apply_ite State.sensed, hkept, State.latchAlarm, apply_ite State.sensed, apply_ite State.sensed]
  have halarm : ({ u with aon := u.latchedAon m, lovage := u.lovage.halt } : State).alarmResponse.sensed = s.sensed := by
    simp only [State.alarmResponse, hu, hm, State.alarmInStartup, h2, if_true]
    exact Prod.ext rfl (Prod.ext hon.symm rfl)
  have hadded : ({ u with aon := { u.aon with alarmSources := u.aon.alarmSources ||| m } } : State).sensed = s.sensed := rfl
  rw [halarm, hadded, hkept]
  simp only [ite_self]

theorem exec_timeGood {s : State} (hm : s.mode.mode = .sense) (hon : s.mode.timeOn = true) (h1 : s.mode.steps.s1 = false) :
    exec .timeGood s = .next (s.endStep fun t => { t with s1 := true }) := by
  simp [exec, execTimeGood, guarded, done, hm, hon, h1]

theorem exec_mainGood {s : State} (hm : s.mode.mode = .sense) (h2 : s.mode.steps.s2 = true) (hon : s.mode.mainOn = true)
    (h3 : s.mode.steps.s3 = false) : exec .mainGood s = .next (s.endStep fun t => { t with s3 := true }) := by
  simp [exec, execMainGood, guarded, done, hm, h2, hon, h3]

/-- SENSE before step 2 reads OTP (R427). -/
theorem exec_sense_reads {s : State} (hm : s.mode.mode = .sense) (h2 : s.mode.steps.s2 = false) : exec .sense s = .next s.readOtp := by
  simp [exec, execSense, guarded, done, hm, h2]

theorem State.readOtp_sensed {s : State} (hm : s.mode.mode = .sense) :
    s.readOtp.sensed = ({ s.mode.steps with s2 := true }, true, s.lovage.atSense.life, s.lovage.atSense.instSlot) := by
  unfold State.readOtp
  extract_lets still u v
  have hv : v.mode.mode = .sense := hm
  rw [apply_ite State.sensed, State.fire_sensed hv rfl rfl, ite_self]
  rfl

/-- SENSE after the other steps ends Sense (R427). -/
theorem exec_sense_ends {s : State} (hm : s.mode.mode = .sense) (h2 : s.mode.steps.s2 = true) (h1 : s.mode.steps.s1 = true)
    (h3 : s.mode.steps.s3 = true) (h4 : s.mode.steps.s4 = false) : exec .sense s = .next s.endSense := by
  simp [exec, execSense, guarded, done, hm, h1, h2, h3, h4]

theorem State.endSense_alarm {s : State} (h2 : s.mode.steps.s2 = true) (h : s.senseToAlarm = true) :
    s.endSense.mode.steps.s4 = true ∧ s.endSense.mode.mode = .alarm := by
  unfold State.endSense
  extract_lets u
  have hu : u.senseToAlarm = true := h
  have hu2 : u.mode.steps.s2 = true := h2
  simp only [hu, if_true, State.alarmInStartup, hu2]
  exact ⟨rfl, rfl⟩

theorem State.endSense_startup {s : State} (h : s.senseToAlarm = false) : s.endSense.mode.steps.s4 = true ∧ s.endSense.mode.mode = .startup ∧
    s.endSense.mode.hold = !s.mode.fromLight ∧ s.endSense.parsley.qs.map (·.domain) = [0] := by
  unfold State.endSense
  extract_lets u
  have hu : u.senseToAlarm = false := h
  simp only [hu, Bool.false_eq_true, if_false]
  exact ⟨rfl, rfl, rfl, rfl⟩

/-- Settles O49: each reset by what the losses of power leave, and Sense by its steps. -/
theorem resetsAndSense : Obligations.ResetsAndSense := by
  unfold Obligations.ResetsAndSense
  refine ⟨fun s h => exec_powerOnReset h, fun s => ⟨_, rfl, rfl, rfl, rfl, rfl, rfl, rfl, s.tearOtp_otp.of_eq rfl rfl⟩, fun src s => ?_,
    fun s hm => ?_⟩
  · refine ⟨fun hcold hnow => ?_, fun hno => ?_, fun hw hfree => ⟨fun hok => ?_, fun hno => ?_⟩,
      fun hw hheld => State.modeWrite_of_held hw (.inl rfl) hheld _⟩
    · have hin : s.resetInput = true := by simp [State.resetInput, hcold, hnow]
      exact ⟨⟨_, exec_deviceReset hin, s.resetTo_leaves 1 false⟩, ⟨_, exec_mainReset hin, s.resetTo_leaves 2 true⟩⟩
    · have hin : s.resetInput = false := by
        rcases hno with h | h <;> simp [State.resetInput, h]
      simp [exec, execDeviceReset, execMainReset, guarded, done, hin]
    · refine ⟨_, State.modeWrite_of_free hw (.inl rfl) hfree _, ?_⟩
      rw [State.resetRequest_allowed hok]
      exact s.resetTo_leaves 3 true
    · exact (State.modeWrite_of_free hw (.inl rfl) hfree _).trans (congrArg _ (State.resetRequest_refused hno))
  · refine ⟨exec_timeGood hm, exec_mainGood hm, fun h2 => ⟨_, exec_sense_reads hm h2, ?_⟩, fun h2 h1 h3 h4 => ⟨_, exec_sense_ends hm h2 h1 h3 h4, ?_⟩⟩
    · have h := s.readOtp_sensed hm
      simp only [State.sensed, Prod.mk.injEq] at h
      obtain ⟨hsteps, hon, hlife, hslot⟩ := h
      exact ⟨congrArg Steps.s2 hsteps, hon, hlife, hslot⟩
    · cases halarm : s.senseToAlarm
      · obtain ⟨hstep, hrest⟩ := State.endSense_startup halarm
        exact ⟨hstep, by simp, fun _ => hrest⟩
      · obtain ⟨hstep, hmode⟩ := State.endSense_alarm h2 halarm
        exact ⟨hstep, fun _ => hmode, by simp⟩

end Sys2Proof.Machine
end

section
/-! PROOF. LOVAGE's operations on OTP (R399, R402, R404, R407 to R409, Tables 13.4 and 13.5): the statement OtpOperations. -/

namespace Sys2Proof.Machine

/-! ## What an alarm leaves of LOVAGE -/

theorem State.dropLoadJob_lovage (s : State) (n : BitVec 32) : (s.dropLoadJob n).lovage = s.lovage := by
  unfold State.dropLoadJob State.abandonJob State.stopUnits
  rfl

theorem State.dropStaged_lovage (s : State) : s.dropStaged.lovage = s.lovage := by
  have hholds (l : List EventQ) (u : State) : (l.foldl (fun s q => s.checkHold q.domain) u).lovage = u.lovage :=
    foldl_keeps State.lovage _ (fun s _ => State.lovage_of_still (s.checkHold_still _)) l u
  rw [State.dropStaged, hholds]
  exact foldl_keeps State.lovage (fun s (l : PostedLoad) => s.dropLoadJob l.load) (fun s l => s.dropLoadJob_lovage l.load) s.admin.loads s

theorem State.abortJob_lovage (s : State) (q : Nat) (c : BitVec 17) : (s.abortJob q c).lovage = s.lovage := by
  unfold State.abortJob
  split
  · rfl
  · dsimp only
    split
    · exact State.lovage_of_still (State.readTable_still ..)
    · exact State.lovage_of_still ((State.settle_still ..).trans (State.writeDst_still ..))

/-- The abort of R415 clears LOVAGE's debug authorisation and nothing else of it. -/
theorem State.beginAbort_lovage (s : State) : s.beginAbort.lovage =
    { s.lovage with attKey := none, dbgClass := 0, retArmed := false, granted := none, checking := none } := by
  have hjobs (l : List Job) (u : State) : (l.foldl (fun s j => s.abortJob j.queue j.count) u).lovage = u.lovage :=
    foldl_keeps State.lovage _ (fun s _ => s.abortJob_lovage ..) l u
  have hclear (u : State) : u.clearSecrets.lovage =
    { u.lovage with attKey := none, dbgClass := 0, retArmed := false, granted := none, checking := none } := rfl
  have hmode (u : State) (f : ModeUnit → ModeUnit) : (u.setMode f).lovage = u.lovage := rfl
  have hlines : (s.killTxns Txn.stops).zeroLines.lovage = s.lovage := rfl
  rw [State.beginAbort, hmode, hclear, hjobs, State.dropStaged_lovage, hlines]

/-- What LOVAGE says of its last operation, and OTP. -/
def State.otpSaid (s : State) : Bool × BitVec 8 × BitVec 8 × List (Nat × OtpMono) × List (Nat × OtpVal) :=
  (s.lovage.opDone, s.lovage.opResult, s.lovage.opCode, s.lovage.mono, s.lovage.vals)

/-- In SCRAPPED no torn move to RETURNED is completed (R410). -/
theorem Lovage.atSense_scrapped {l : Lovage} (h : l.deriveLife = .scrapped) : l.atSense = { l.derive with instSlot := l.deriveInst } := by
  have hlife : l.derive.life = .scrapped := h
  simp [Lovage.atSense, Lovage.completeReturn, hlife]

theorem State.alarmResponse_otpSaid {s : State} (h : s.lovage.deriveLife = .scrapped) : s.alarmResponse.otpSaid = s.otpSaid := by
  have hstartup : s.alarmInStartup.otpSaid = s.otpSaid := by
    have hsense : s.senseInAlarm.otpSaid = s.otpSaid := by
      unfold State.senseInAlarm
      extract_lets u m v
      have hu : u.otpSaid = s.otpSaid := by
        simp only [u, State.setLovage, Lovage.atSense_scrapped h]
        rfl
      split
      · exact hu
      · split <;> exact hu
    have hclear (u : State) (f : ModeUnit → ModeUnit) : (u.clearSecrets.setMode f).otpSaid = u.otpSaid := rfl
    rw [State.alarmInStartup, hclear, apply_ite State.otpSaid, hsense]
    exact ite_self _
  unfold State.alarmResponse
  split
  · rfl
  · rfl
  · exact hstartup
  · exact hstartup
  · rfl
  · rfl
  · rw [State.otpSaid, State.beginAbort_lovage]
    rfl

theorem State.fire_otpSaid {s : State} (h : s.lovage.deriveLife = .scrapped) (n : Nat) (always : Bool) : (s.fire n always).otpSaid = s.otpSaid := by
  unfold State.fire
  extract_lets m u
  have hu : u.otpSaid = s.otpSaid := rfl
  have halarm : ({ u with aon := u.latchedAon m, lovage := u.lovage.halt } : State).alarmResponse.otpSaid = s.otpSaid :=
    State.alarmResponse_otpSaid (s := { u with aon := u.latchedAon m, lovage := u.lovage.halt }) h
  have hadded : ({ u with aon := { u.aon with alarmSources := u.aon.alarmSources ||| m } } : State).otpSaid = s.otpSaid := rfl
  rw [apply_ite State.otpSaid, hu, State.latchAlarm, apply_ite State.otpSaid, apply_ite State.otpSaid, halarm, hadded, hu]
  simp only [ite_self]

theorem State.deriveAfresh_otpSaid (s : State) : s.deriveAfresh.otpSaid = s.otpSaid := by
  unfold State.deriveAfresh
  extract_lets life moved u v
  have hu : u.otpSaid = s.otpSaid := rfl
  have hv : v.otpSaid = s.otpSaid := rfl
  split
  · exact hu
  · split
    · rename_i h
      exact (State.fire_otpSaid (s := v) (beq_iff_eq.1 h) 11 true).trans hv
    · exact hv

/-- An operation that ends says so with its result, and leaves OTP as it is (R409). -/
theorem State.otpEnd_otpSaid (s : State) (k : OtpKind) (r : BitVec 8) :
    (s.otpEnd k r).otpSaid = (true, r, BitVec.ofNat 8 k.code, s.lovage.mono, s.lovage.vals) := by
  unfold State.otpEnd
  extract_lets u
  have hu : u.otpSaid = (true, r, BitVec.ofNat 8 k.code, s.lovage.mono, s.lovage.vals) := rfl
  have hbanks : u.dropOldBanks.otpSaid = u.otpSaid := rfl
  have hevent (b : Bool) : (u.ucodeEvent b 4 []).otpSaid = u.otpSaid := by
    rw [State.otpSaid, State.lovage_of_still (u.ucodeEvent_still b 4 [])]
    rfl
  cases k with
  | transition => exact u.deriveAfresh_otpSaid.trans hu
  | commit b n => simp only [apply_ite State.otpSaid, hbanks, hevent, ite_self, hu]
  | programming => exact hu
  | confirm => exact hu

/-! ## Writes in their turn -/

section
variable {s : State} {src : From}

theorem State.lovageWrite_of_free (hw : s.unitWrite src = true) (hfree : s.dill.rp.held = []) (addr value : Nat) (f : State → State) :
    s.lovageWrite src addr value f = .next (f s) := by
  simp only [State.lovageWrite, guarded, hw, if_true, State.inTurn_of_free hfree, done]

theorem State.lovageWrite_of_held (hw : s.unitWrite src = true) (hheld : s.dill.rp.held ≠ []) (addr value : Nat) (f : State → State) :
    s.lovageWrite src addr value f = .next (s.holdAccess (.write src addr 4 (BitVec.ofNat 64 value))) := by
  simp only [State.lovageWrite, guarded, hw, if_true, State.inTurn_of_held hheld, done]

/-! ## Transitions -/

/-- A refused move derives the state afresh, and says why (R408, R409). -/
theorem State.refusedMove_said (s : State) (r : BitVec 8) :
    let t := (s.otpReport .transition r).deriveAfresh
    t.lovage.opDone = true ∧ t.lovage.opResult = r ∧ t.lovage.opCode = 1 := by
  have h := (s.otpReport .transition r).deriveAfresh_otpSaid
  simp only [State.otpSaid, Prod.mk.injEq] at h
  obtain ⟨hdone, hresult, hcode, -⟩ := h
  exact ⟨hdone, hresult, hcode⟩

theorem State.otpEnd_said (s : State) (k : OtpKind) (r : BitVec 8) :
    let t := s.otpEnd k r
    t.lovage.opDone = true ∧ t.lovage.opResult = r ∧ t.lovage.opCode = BitVec.ofNat 8 k.code ∧
      t.lovage.mono = s.lovage.mono ∧ t.lovage.vals = s.lovage.vals := by
  simpa only [State.otpSaid, Prod.mk.injEq] using s.otpEnd_otpSaid k r

/-- A request to a DRBG leaves LOVAGE and the model's counter alone. -/
theorem State.drbgRequest_lovage (s : State) (i : Nat) : (s.drbgRequest i).1.lovage = s.lovage ∧ (s.drbgRequest i).1.free = s.free := by
  unfold State.drbgRequest
  split <;> exact ⟨rfl, rfl⟩

/-- The operation that a permitted move starts. -/
def State.Begun (t : State) (steps : List OtpStep) : Prop :=
  t.lovage.op = some { kind := .transition, steps := steps, pulsed := false, halted := false }

theorem State.startMove_word {x : Life} (hp : x ≠ .provisioned) (hr : x ≠ .returned) (w : Nat) :
    (s.startMove x w).Begun (monoSteps w (lifeCode x)) := by
  unfold State.startMove
  split
  · exact absurd rfl hp
  · exact absurd rfl hr
  · rfl

theorem State.startMove_returned (w : Nat) : (s.startMove .returned w).Begun (wipeSteps ++ monoSteps w (lifeCode .returned)) := rfl

theorem State.startMove_served {i : Nat} (hi : s.lovage.blankSecret = some i) (h : (s.drbgRequest 16).2 = true) (w : Nat) :
    (s.startMove .provisioned w).Begun (secretSteps i s.free ++ monoSteps w (lifeCode .provisioned)) := by
  obtain ⟨hlovage, hfree⟩ := s.drbgRequest_lovage 16
  simp only [State.startMove, hlovage, hfree, hi, h, if_true]
  rfl

theorem State.startMove_unserved {i : Nat} (hi : s.lovage.blankSecret = some i) (h : (s.drbgRequest 16).2 = false) (w : Nat) :
    s.startMove .provisioned w = (s.drbgRequest 16).1.otpEnd .transition 6 := by
  obtain ⟨hlovage, -⟩ := s.drbgRequest_lovage 16
  simp only [State.startMove, hlovage, hi, h, Bool.false_eq_true, if_false]

end

/-! ## Copies -/

section
variable {s : State} {o : OtpOp} {st : OtpStep} {rest : List OtpStep}

/-- The pulse that sets the bits of a step (R399). -/
def State.pulse (s : State) (st : OtpStep) (bits : BitVec 32) (decodes : Bool) : State := s.setLovage fun l => l.program st bits decodes

section
variable (ho : s.lovage.op = some o) (hst : o.steps = st :: rest)
include ho hst

/-- The hold-up supply is low before a first pulse (R407). -/
theorem exec_otpCopyDone_low (hp : o.pulsed = false) (back : Bool) : exec (.otpCopyDone back false) s = .next (s.otpEnd o.kind 4) := by
  simp [exec, execOtpCopyDone, onSome, done, ho, hst, hp]

/-- A copy that reads back its bits (R399). -/
theorem exec_otpCopyDone_held {hold : Bool} (hh : o.pulsed = true ∨ hold = true) :
    let u := s.pulse st st.bits true
    exec (.otpCopyDone true hold) s = .next (
      if o.halted then (u.useFree 1).otpEnd o.kind (Config.freeValue 8 u.free)
      else if rest.isEmpty then u.otpEnd o.kind 0
      else u.setLovage fun l => { l with op := some { o with steps := rest, pulsed := false } }) := by
  have hlow : (!o.pulsed && !hold) = false := by rcases hh with h | h <;> simp [h]
  simp only [exec, execOtpCopyDone, onSome, done, ho, hst, hlow, Bool.false_eq_true, if_false, if_true]
  rfl

/-- A copy that does not read back its bits: a second pulse, or the end (R399). -/
theorem exec_otpCopyDone_failed {hold : Bool} (hh : o.pulsed = true ∨ hold = true) :
    let u := (s.pulse st (st.bits &&& Config.freeValue 32 s.free) (Config.freeValue 1 (s.free + 1) == 1)).useFree 2
    exec (.otpCopyDone false hold) s = .next (
      if o.pulsed then u.otpEnd o.kind 7 else u.setLovage fun l => { l with op := some { o with pulsed := true } }) := by
  have hlow : (!o.pulsed && !hold) = false := by rcases hh with h | h <;> simp [h]
  simp only [exec, execOtpCopyDone, onSome, done, ho, hst, hlow, Bool.false_eq_true, if_false]
  rfl

end

end

/-- Settles O51: writes in their turn, the moves of Table 13.4, the programming commands, and one copy's time. -/
theorem otpOperations : Obligations.OtpOperations := by
  unfold Obligations.OtpOperations
  refine ⟨fun src s hw hheld => ?_, fun src s hw hfree => ?_, fun back hold s o st rest ho hst => ?_⟩
  · have hwaits := State.lovageWrite_of_held hw hheld
    exact ⟨fun code => hwaits 0x80008 code.toNat _, fun i =>
      ⟨hwaits 0x80010 (progCtl 1 i) _, hwaits 0x80010 (progCtl 2 i) _, hwaits 0x80010 (progCtl 3 i) _, hwaits 0x80010 (progCtl 4 i) _,
        hwaits 0x80010 (progCtl 5 i) _⟩⟩
  · have hdoes := State.lovageWrite_of_free hw hfree
    refine ⟨fun code => ?_, fun i => ?_⟩
    · have hexec : exec (.transition src code) s = .next (State.transition code s) := hdoes 0x80008 code.toNat _
      refine ⟨fun hop => ?_, fun hop hnone => ?_, fun hop x hx r hr => ?_, fun hop x hx hr => ?_⟩
      · exact ⟨_, hexec.trans (congrArg _ (if_pos hop)), s.refusedMove_said 8⟩
      · have hmove : State.transition code s = (s.otpReport .transition 9).deriveAfresh := by simp [State.transition, hop, hnone]
        exact ⟨_, hexec.trans (congrArg _ hmove), s.refusedMove_said 9⟩
      · have hmove : State.transition code s = (s.otpReport .transition r).deriveAfresh := by simp [State.transition, hop, hx, hr]
        exact ⟨_, hexec.trans (congrArg _ hmove), s.refusedMove_said r⟩
      · have hmove : State.transition code s = s.startMove x (if x = .scrapped then 16 else s.lovage.nextWord.getD 0) := by
          simp [State.transition, hop, hx, hr]
        refine ⟨fun hp hret => ⟨_, hexec, ?_⟩, fun h => ⟨_, hexec, ?_⟩, fun h i hi => ⟨fun hserved => ⟨_, hexec, ?_⟩, fun hserved => ⟨_, hexec, ?_⟩⟩⟩
        · rw [hmove]
          exact State.startMove_word hp hret _
        · subst h
          rw [hmove]
          exact State.startMove_returned _
        · subst h
          rw [hmove]
          exact State.startMove_served hi hserved _
        · subst h
          rw [hmove, State.startMove_unserved hi hserved]
          obtain ⟨hdone, hresult, hcode, -⟩ := State.otpEnd_said (s.drbgRequest 16).1 .transition 6
          exact ⟨hdone, hresult, hcode⟩
    · refine ⟨(hdoes 0x80010 (progCtl 1 i) _).trans ?_, hdoes 0x80010 (progCtl 2 i) _, hdoes 0x80010 (progCtl 3 i) _,
        hdoes 0x80010 (progCtl 4 i) _, hdoes 0x80010 (progCtl 5 i) _⟩
      simp only [State.progSlot, State.progStart, Bool.or_eq_true, decide_eq_true_eq, beq_iff_eq] <;> rfl
  · by_cases hlow : o.pulsed = false ∧ hold = false
    · obtain ⟨hp, rfl⟩ := hlow
      obtain ⟨hdone, hresult, -, hmono, hvals⟩ := s.otpEnd_said o.kind 4
      exact ⟨_, exec_otpCopyDone_low ho hst hp back, fun _ _ => ⟨hdone, hresult, hmono, hvals⟩, by simp [hp], by simp [hp]⟩
    · have hh : o.pulsed = true ∨ hold = true := by simpa [or_iff_not_imp_left] using hlow
      have hpower (P : Prop) : o.pulsed = false → hold = false → P := fun hp hl => absurd ⟨hp, hl⟩ hlow
      cases back
      · refine ⟨_, exec_otpCopyDone_failed ho hst hh, hpower _, by simp, fun _ _ => ⟨fun hp => ?_, fun hp => ?_⟩⟩
        · simp only [hp, Bool.false_eq_true, if_false]
          rfl
        · simp only [hp, if_true]
          obtain ⟨hdone, hresult, -⟩ := State.otpEnd_said ((s.pulse st (st.bits &&& Config.freeValue 32 s.free)
            (Config.freeValue 1 (s.free + 1) == 1)).useFree 2) o.kind 7
          exact ⟨hdone, hresult⟩
      · refine ⟨_, exec_otpCopyDone_held ho hst hh, hpower _, fun _ _ => ?_, by simp⟩
        cases hhalt : o.halted
        · cases rest with
          | nil =>
            obtain ⟨hdone, hresult, -, hmono, hvals⟩ := (s.pulse st st.bits true).otpEnd_said o.kind 0
            exact ⟨hmono, hvals, fun _ h => absurd rfl h, fun _ _ => ⟨hdone, hresult⟩, by simp⟩
          | cons y ys => exact ⟨rfl, rfl, fun _ _ => rfl, by simp, by simp⟩
        · obtain ⟨hdone, -, -, hmono, hvals⟩ := ((s.pulse st st.bits true).useFree 1).otpEnd_said o.kind
            (Config.freeValue 8 (s.pulse st st.bits true).free)
          exact ⟨hmono, hvals, by simp, by simp, fun _ => hdone⟩

end Sys2Proof.Machine
end

section
/-! PROOF. Debug authorisation (R418 to R422, Tables 13.10, 13.12 and 13.13): the statement DebugRule. -/

namespace Sys2Proof.Machine

section
variable {s : State}

/-! ## Commands -/

theorem State.requestChallenge_unformed {n : Nat} (h : ¬(1 ≤ n ∧ n ≤ 4 ∧ (s.basil.drbgs[16]?).any (·.instantiated) = true)) :
    s.requestChallenge n = s := by
  refine if_pos ?_
  simp only [Bool.or_eq_true, decide_eq_true_eq, Bool.not_eq_true']
  by_contra hno
  simp only [not_or, Bool.not_eq_false] at hno
  exact h ⟨by omega, by omega, hno.2⟩

/-- A challenge is formed when LOVAGE's DRBG serves its nonce (R418). -/
theorem State.requestChallenge_formed {n : Nat} (h : 1 ≤ n ∧ n ≤ 4 ∧ (s.basil.drbgs[16]?).any (·.instantiated) = true) {u : State} {b : Bool}
    (hu : s.drbgRequest 16 = (u, b)) : s.requestChallenge n = if b then
      (u.setLovage fun l => { l with chal := some { bytes := u.challenge n, cls := n, tick := u.thyme.tick } }).useFree 32 else u := by
  obtain ⟨h1, h4, hon⟩ := h
  have hcls : (decide (n = 0) || decide (4 < n)) = false := by simp; omega
  simp only [State.requestChallenge, hcls, hon, hu, Bool.not_true, Bool.or_self, Bool.false_eq_true, if_false]
  cases b <;> rfl

theorem State.openDebug_here {n : Nat} (h : (s.lovage.life = .blank ∨ s.lovage.life = .test) ∧ 1 ≤ n ∧ n ≤ 4) :
    s.openDebug n = s.grantClass n false := by
  simp [State.openDebug, h]

theorem State.openDebug_elsewhere {n : Nat} (h : ¬((s.lovage.life = .blank ∨ s.lovage.life = .test) ∧ 1 ≤ n ∧ n ≤ 4)) : s.openDebug n = s := by
  refine if_neg fun hif => h ?_
  simpa [and_assoc] using hif

theorem State.submit_none (h : s.lovage.chal = none) : s.submit = s.setLovage fun l => { l with dbgResult := 1 } := by
  simp [State.submit, h]

theorem State.submit_alarm {c : Challenge} (h : s.lovage.chal = some c) (ha : s.inAlarm = true) :
    s.submit = s.setLovage fun l => { l with chal := none, dbgResult := 8 } := by
  simp [State.submit, h, ha]

/-- SUBMIT spends the challenge and reads the response (R420). -/
theorem State.submit_reads {c : Challenge} (h : s.lovage.chal = some c) (ha : s.inAlarm = false) :
    s.submit.lovage.chal = none ∧ s.submit.lovage.checking = some c ∧ s.submit.lovage.respFailed = false ∧
      s.submit.lovage.resp = Machine.zeros 7571 ∧ ∃ x ∈ s.submit.txns, ∃ off, x.purpose = .response off ∧ x.op = .read := by
  simp only [State.submit, h, ha, Bool.false_eq_true, if_false]
  generalize hu : ((s.killTxns fun t => t.purpose.isResponse).setLovage fun l => { l with
    chal := none, checking := some c, resp := Machine.zeros responseBytes, respFailed := false }) = u
  have hlovage (p : Nat → Purpose) (a : Nat) : (u.issue .read .metadata 0 a responseBytes [] p).sendAll.lovage = u.lovage :=
    State.lovage_of_still ((State.sendAll_still _).trans (State.issue_still ..))
  rw [hlovage, ← hu]
  refine ⟨rfl, rfl, rfl, rfl, ?_⟩
  rw [hu]
  have hasks := State.issue_asks u .read .metadata 0 (u.regN 0x800A8 % 2 ^ 52) responseBytes [] fun off => .response off
  rw [← State.sendAll_asked] at hasks
  obtain ⟨x, hx, hasked⟩ := List.mem_map.1 hasks
  simp only [Txn.asked, Prod.mk.injEq] at hasked
  obtain ⟨hpurpose, -, hop⟩ := hasked
  exact ⟨x, hx, 0, hpurpose, hop⟩

/-- DEBUG_CLOSE drops the classes that wait for their tick (R422). -/
theorem State.closeDebug_drops (k : Nat) (b : Bool) : Change.debug k b ∉ s.closeDebug.admin.changes := fun h => by
  have := (List.mem_filter.1 h).2
  simp [Change.isDebug] at this

theorem State.grantClass_low {n : Nat} (h : 1 ≤ n) (hlow : n ≤ 2) (ret : Bool) : s.grantClass n ret = s.addChange (.debug n ret) := by
  have h0 : n ≠ 0 := by omega
  simp [State.grantClass, h0, hlow]

/-- Authorised debug is reached through Drain, from the modes that Drain is entered from (R421). -/
theorem State.debugDrain_enters (hm : s.mode.mode ∈ drainFrom) : ∃ u : State, s.debugDrain = u.enterDrain 9 ∧ u.lovage = s.lovage := by
  unfold State.debugDrain
  extract_lets dropped u
  have hu : u.mode.mode = s.mode.mode := rfl
  refine ⟨u, ?_, rfl⟩
  split
  · rename_i hd
    rw [← hu, hd] at hm
    simp [drainFrom] at hm
  · exact if_pos (by simpa [hu] using hm)

/-- Classes 3 and 4 come by way of Drain (R421). -/
theorem State.grantClass_high {n : Nat} (h : 2 < n) (hm : s.mode.mode ∈ drainFrom) (ret : Bool) :
    (s.grantClass n ret).mode.mode = .drain ∧ (s.grantClass n ret).mode.target = 9 ∧ (s.grantClass n ret).lovage.granted = some (n, ret) := by
  have hn : ¬n = 0 := by omega
  have hhigh : (decide (n ≤ 2) || s.mode.mode == .authDebug) = false := by
    simp only [Bool.or_eq_false_iff, decide_eq_false_iff_not, beq_eq_false_iff_ne]
    exact ⟨by omega, fun e => by simp [e, drainFrom] at hm⟩
  have hstart : (s.mode.mode == .startup) = false := beq_eq_false_iff_ne.2 fun e => by simp [e, drainFrom] at hm
  have hdrain (u : State) (t : BitVec 4) : (u.enterDrain t).mode.mode = .drain ∧ (u.enterDrain t).mode.target = t ∧
      (u.enterDrain t).lovage = u.lovage := by
    unfold State.enterDrain
    rw [State.mode_of_still (State.releaseHolds_still _), State.lovage_of_still (State.releaseHolds_still _)]
    exact ⟨rfl, rfl, rfl⟩
  simp only [State.grantClass, hn, hhigh, Bool.false_eq_true, if_false]
  generalize hv : (s.setLovage fun l => { l with granted := some (n, ret) }) = v
  have hvm : v.mode.mode = s.mode.mode := by rw [← hv]; rfl
  obtain ⟨u, hu, hlovage⟩ := State.debugDrain_enters (s := v) (hvm ▸ hm)
  obtain ⟨hmode, htarget, hkept⟩ := hdrain u 9
  rw [if_neg (by rw [hvm, hstart]; decide), hu, hkept, hlovage, ← hv]
  exact ⟨hmode, htarget, rfl⟩

end

/-- Settles O52: each command in its turn, the expiry, the checks' result and the grant. -/
theorem debugRule : Obligations.DebugRule := by
  unfold Obligations.DebugRule
  refine ⟨fun src s hw hheld => ?_, fun src s hw hfree => ?_, fun s c hc hlate => ?_, fun s c hc hports hread hready => ?_,
    fun s n ret hn => ⟨fun hlow => State.grantClass_low hn hlow ret, fun hhigh hm => State.grantClass_high hhigh hm ret⟩⟩
  · have hwaits := State.lovageWrite_of_held hw hheld
    exact ⟨fun n => ⟨hwaits 0x800A0 (dbgCtl 1 n) _, hwaits 0x800A0 (dbgCtl 4 n) _⟩, hwaits 0x800A0 (dbgCtl 2 0) _, hwaits 0x800A0 (dbgCtl 3 0) _⟩
  · have hdoes := State.lovageWrite_of_free hw hfree
    refine ⟨fun n => ⟨fun h => ?_, fun h u b hu => ?_, fun h => ?_, fun h => ?_⟩, fun hc => ?_, fun c hc => ⟨fun ha => ?_, fun ha => ?_⟩, ?_⟩
    · exact (hdoes 0x800A0 (dbgCtl 1 n) _).trans (congrArg _ (State.requestChallenge_unformed h))
    · exact (hdoes 0x800A0 (dbgCtl 1 n) _).trans (congrArg _ (State.requestChallenge_formed h hu))
    · exact (hdoes 0x800A0 (dbgCtl 4 n) _).trans (congrArg _ (State.openDebug_here h))
    · exact (hdoes 0x800A0 (dbgCtl 4 n) _).trans (congrArg _ (State.openDebug_elsewhere h))
    · exact (hdoes 0x800A0 (dbgCtl 2 0) _).trans (congrArg _ (State.submit_none hc))
    · exact (hdoes 0x800A0 (dbgCtl 2 0) _).trans (congrArg _ (State.submit_alarm hc ha))
    · exact ⟨_, hdoes 0x800A0 (dbgCtl 2 0) _, State.submit_reads hc ha⟩
    · exact ⟨_, hdoes 0x800A0 (dbgCtl 3 0) _, rfl, rfl, rfl, State.closeDebug_drops⟩
  · have hdue : (s.lovage.chal.filter fun c => c.tick + 3750000000 ≤ s.thyme.tick) = some c := by
      rw [hc]
      exact Option.filter_eq_some_iff.2 ⟨rfl, decide_eq_true hlate⟩
    exact onSome_of_eq hdue _ _
  · have hreading : (s.txns.any fun t => !t.dead && t.purpose.isResponse) = false := by
      rw [List.any_eq_false]
      intro x hx
      cases hr : x.purpose.isResponse <;> simp [hread x hx, hr]
    have hdue : (s.lovage.respFailed || s.verifierRuns .response) = true := by simpa using hready
    simp only [exec, execDebugResponseChecked, hc, hports, hreading, hdue, Bool.not_false, Bool.and_self, Option.filter_some, if_true, onSome, done,
      beq_iff_eq]

end Sys2Proof.Machine
end

section
/-! PROOF. Port resets, the second suspension count and the end of a port's test (R450, R452, R456): the statement PortSuspension. -/

namespace Sys2Proof.Machine

section
variable {s : State} {p : Nat}

@[simp] theorem State.setPort_ports (s : State) (p : Nat) (f : PortState → PortState) :
    (s.setPort p f).sorrel.ports = s.sorrel.ports.modify p f := rfl

@[simp] theorem State.unitEvent_unposted (s : State) (kind index action : Nat) : (s.unitEvent kind index action).unposted = s.unposted :=
  s.event_unposted ..

@[simp] theorem State.unitEvent_admin (s : State) (kind index action : Nat) : (s.unitEvent kind index action).admin = s.admin :=
  congrArg (·.admin) (s.unitEvent_unposted ..)

@[simp] theorem State.unitEvent_regs (s : State) (kind index action : Nat) : (s.unitEvent kind index action).regs = s.regs :=
  congrArg (·.regs) (s.unitEvent_unposted ..)

@[simp] theorem State.testPort_admin (s : State) (p : Nat) : (s.testPort p).admin = s.admin := by
  unfold State.testPort
  dsimp only
  split <;> rfl

/-- A test leaves every port its role (R456). -/
theorem State.testPort_role (s : State) (p i : Nat) :
    ((s.testPort p).sorrel.ports[i]?).map (·.role) = (s.sorrel.ports[i]?).map (·.role) := by
  unfold State.testPort
  dsimp only
  split
  · rfl
  · simp only [State.useFree_sorrel, State.setPort_ports, List.getElem?_modify, Option.map_eq_map, Option.map_map]
    split <;> rfl

theorem split4k_ne_nil (n iova len : Nat) : split4k (n + 1) iova len ≠ [] := by
  unfold split4k
  dsimp only
  split <;> simp

/-- With a scratch region, the writes of a port's test wait (R456). -/
theorem State.testPort_tests (h : s.regN 0x90080 % 2 ^ 52 ≠ 0) : (s.testPort p).portTesting p = true := by
  obtain ⟨x, hx⟩ := List.exists_mem_of_ne_nil _ (split4k_ne_nil (65536 / 4096 + 1) (s.regN 0x90080 % 2 ^ 52) 65536)
  unfold State.testPort
  dsimp only
  rw [if_neg h]
  refine List.any_eq_true.2 ⟨_, List.mem_append_left _ (List.mem_append_right _ (List.mem_map_of_mem hx)), ?_⟩
  exact beq_self_eq_true p

/-! ## The end of a test -/

theorem State.portTesting_false (h : ∀ t ∈ s.txns, ∀ k, t.purpose ≠ .portTest p k) : s.portTesting p = false := by
  refine List.any_eq_false.2 fun t ht => ?_
  dsimp only
  split
  · rename_i n k hk
    intro hn
    exact h t ht k (by rw [hk, eq_of_beq hn])
  · simp

theorem State.portTested_ports {x : PortState} (hx : s.sorrel.ports[p]? = some x) (hr : x.role = .suspended) (pass : Bool) :
    (s.portTested p pass).sorrel.ports =
      s.sorrel.ports.modify p fun x => { x with role := if pass then .spare else .retired } := by
  have hthere : (s.sorrel.ports[p]?).any (fun x => x.role == .suspended) = true := by simp [hx, hr]
  rw [State.portTested, if_pos hthere, State.unitEvent_sorrel]
  rfl

@[simp] theorem State.flow_sorrel (s : State) : s.flow.sorrel = s.sorrel := State.sorrel_of_still s.flow_still

/-! ## The second count -/

theorem State.countPort_first {x : PortState} (hx : s.sorrel.ports[p]? = some x) (hc : x.counts = 0) :
    s.countPort p = s.setPort p fun x => { x with counts := x.counts + 1 } := by
  refine if_neg ?_
  simp [hx, hc]

/-- The second count suspends the port (R456). -/
theorem State.countPort_second {x : PortState} (hx : s.sorrel.ports[p]? = some x) (hc : 1 ≤ x.counts) :
    s.countPort p = (s.setPort p fun x => { x with counts := x.counts + 1 }).suspendPort p := by
  refine if_pos ?_
  simp [hx]
  omega

theorem State.sparePort_of_first {y : Nat} {z : PortState} (hy : s.sorrel.ports[y]? = some z) (hz : z.role = .spare)
    (hfirst : ∀ i < y, ∀ w, s.sorrel.ports[i]? = some w → w.role ≠ .spare) : s.sparePort = some y := by
  obtain ⟨hlt, hget⟩ := List.getElem?_eq_some_iff.1 hy
  refine List.findIdx?_eq_some_iff_getElem.2 ⟨hlt, by simp [hget, hz], fun i hi hif => ?_⟩
  exact hfirst i hi _ (List.getElem?_eq_getElem (by omega)) (eq_of_beq hif)

/-- The lowest spare port of a state is that of each state with the same roles. -/
theorem State.sparePort_of_roles {u : State} {q y : Nat} {z : PortState} (hy : s.sorrel.ports[y]? = some z) (hz : z.role = .spare)
    (hfirst : ∀ i < y, ∀ w, s.sorrel.ports[i]? = some w → w.role ≠ .spare) (hne : q ≠ y)
    (hroles : ∀ i, (u.sorrel.ports[i]?).map (·.role) = if i = q then some .suspended else (s.sorrel.ports[i]?).map (·.role)) :
    u.sparePort = some y := by
  have hrole := hroles y
  rw [if_neg hne.symm, hy, Option.map_some, hz] at hrole
  obtain ⟨v, hv, hvr⟩ := Option.map_eq_some_iff.1 hrole
  refine State.sparePort_of_first hv hvr fun i hi w hw hspare => ?_
  have hat := hroles i
  rw [hw, Option.map_some, hspare] at hat
  split at hat
  · cases hat
  · obtain ⟨w', hw', hr'⟩ := Option.map_eq_some_iff.1 hat.symm
    exact hfirst i hi w' hw' hr'

/-- What suspends a port in a position, with a spare port there (R456). -/
theorem State.suspendPort_position {k : Nat} {x : PortState} (hx : s.sorrel.ports[p]? = some x) (hr : x.role = .position k)
    (hspare : ((s.setPort p fun x => { x with role := .suspended }).sparePort).isSome = true) :
    s.suspendPort p =
      (((s.setPort p fun x => { x with role := .suspended }).unitEvent 0x05 p 1).addChange (.position k)).testPort p := by
  have hthere : (((s.setPort p fun x => { x with role := .suspended }).unitEvent 0x05 p 1).sparePort).isSome = true := by
    rw [← hspare, State.sparePort, State.unitEvent_sorrel]
    rfl
  simp only [State.suspendPort, hx, hr, hthere, if_true]

/-- The spare port takes the position that waits for it, and every other port keeps its role (R456). -/
theorem State.applyPosition_role {y k i : Nat} (h : s.sparePort = some y) :
    ((s.applyChange (.position k)).sorrel.ports[i]?).map (·.role) =
      if y = i then (s.sorrel.ports[i]?).map fun _ => .position k else (s.sorrel.ports[i]?).map (·.role) := by
  simp only [State.applyChange, h, State.unitEvent_sorrel, State.setPort_ports, List.getElem?_modify, Option.map_eq_map, Option.map_map]
  split <;> rfl

end

/-- Settles O18: a port's second count takes its role from it alone, so the lowest spare port stays the lowest until the change is applied. -/
theorem portSuspension : Obligations.PortSuspension := by
  refine ⟨fun p s hp => if_pos (by simpa using hp), fun p s x hx hr => ?_, fun p pass s x hx hr ha ht => ?_, ?_, ?_⟩
  · refine if_pos ?_
    rcases hr with hr | hr <;> simp [hx, hr]
  · have hidle := State.portTesting_false ht
    refine ⟨fun hp => if_neg (by simp [hx, hp]), fun hp => ⟨_, if_pos (by simpa [hx, hr, hp, hidle] using ha), ?_⟩⟩
    rw [State.flow_sorrel, State.portTested_ports hx hr]
  · intro p k y s x z hx hr hc hy hz hfirst
    have hne : p ≠ y := by
      rintro rfl
      rw [hx, Option.some.injEq] at hy
      rw [hy, hz] at hr
      cases hr
    set a := s.setPort p fun x => { x with counts := x.counts + 1 } with hadef
    have hax : a.sorrel.ports[p]? = some { x with counts := x.counts + 1 } := by simp [hadef, hx]
    set b := a.setPort p fun x => { x with role := .suspended } with hbdef
    have hroles (i : Nat) : (b.sorrel.ports[i]?).map (·.role) = if i = p then some .suspended else (s.sorrel.ports[i]?).map (·.role) := by
      by_cases hi : i = p
      · subst hi
        simp [hbdef, hax]
      · simp [hbdef, hadef, hi, Ne.symm hi]
    have hspare : b.sparePort = some y := State.sparePort_of_roles hy hz hfirst hne hroles
    have heq : s.countPort p = ((b.unitEvent 0x05 p 1).addChange (.position k)).testPort p := by
      rw [State.countPort_second hx hc]
      exact State.suspendPort_position hax hr (by rw [← hbdef, hspare]; rfl)
    have hkept (i : Nat) : ((s.countPort p).sorrel.ports[i]?).map (·.role) =
        if i = p then some .suspended else (s.sorrel.ports[i]?).map (·.role) := by
      rw [heq, State.testPort_role, State.addChange_sorrel, State.unitEvent_sorrel, hroles]
    have hafter : (s.countPort p).sparePort = some y := State.sparePort_of_roles hy hz hfirst hne hkept
    refine ⟨by rw [hkept, if_pos rfl], ?_, fun ha => ?_, ?_, ?_⟩
    · rw [heq, State.testPort_admin, State.addChange_changes, State.unitEvent_admin]
      rfl
    · rw [heq]
      refine State.testPort_tests ?_
      have hregs : ((b.unitEvent 0x05 p 1).addChange (.position k)).regs = s.regs := by
        rw [State.addChange_regs, State.unitEvent_regs]
        rfl
      simpa only [State.regN, State.reg, hregs] using ha
    · rw [State.applyPosition_role hafter, if_pos rfl]
      obtain ⟨v, hv, -⟩ := Option.map_eq_some_iff.1 ((hkept y).trans (by rw [if_neg hne.symm, hy, Option.map_some]))
      rw [hv, Option.map_some]
    · rw [State.applyPosition_role hafter, if_neg hne.symm, hkept, if_pos rfl]
  · exact fun p s x hx hc => State.countPort_first hx hc

end Sys2Proof.Machine
end

section
/-! PROOF. Lost key-bus requests, and the losses, the suspension and the test of a lane (R460 to R462): the statement KeyBusLanes. -/

namespace Sys2Proof.Machine

section
variable {s : State} {l : Nat}

/-! ## What keeps the lanes -/

@[simp] theorem State.setKb_kb (s : State) (l : Nat) (f : KbLane → KbLane) : (s.setKb l f).sorrel.kb = s.sorrel.kb.modify l f := rfl

@[simp] theorem State.sendEcho_sorrel (s : State) (l : Nat) : (s.sendEcho l).sorrel = s.sorrel := rfl

theorem State.kbDown_sorrel (s : State) : s.kbDown.sorrel = s.sorrel := by
  unfold State.kbDown
  split
  · rfl
  · refine (foldl_keeps State.sorrel _ (fun s j => s.endJob_sorrel ..) _ _).trans (foldl_keeps State.sorrel _ (fun s r => ?_) _ _)
    dsimp only
    split
    · exact State.denyLoad_sorrel ..
    · rfl
    · exact State.endJob_sorrel ..
    · rfl

/-! ## Suspension -/

theorem State.suspendKb_kb (hup : s.laneUp l = true) :
    (s.suspendKb l).sorrel.kb = s.sorrel.kb.modify l fun x => { x with health := .suspended, echoes := 0 } := by
  rw [State.suspendKb, hup, Bool.not_true, if_neg Bool.false_ne_true, State.kbDown_sorrel, State.sendEcho_sorrel,
    foldl_keeps State.sorrel _ (fun s r => s.kbAgain_sorrel r r.errors), State.unitEvent_sorrel]
  rfl

/-- A suspended lane takes no request (R461). -/
theorem State.suspendKb_laneUp (s : State) (l : Nat) : (s.suspendKb l).laneUp l = false := by
  cases hup : s.laneUp l
  · rw [State.suspendKb, hup, Bool.not_false, if_pos rfl, hup]
  · rw [State.laneUp, State.suspendKb_kb hup]
    cases hx : s.sorrel.kb[l]? <;> simp [hx]

theorem State.countLoss_suspends {x : KbLane} {lost bad : Nat} (hx : s.sorrel.kb[l]? = some x)
    (h : 2 ≤ x.losses + lost ∨ 2 ≤ x.badFrames + bad) : (s.countLoss l lost bad).laneUp l = false := by
  have hsecond : s.countLoss l lost bad =
      (s.setKb l fun x => { x with losses := x.losses + lost, badFrames := x.badFrames + bad }).suspendKb l :=
    if_pos (by simpa [hx] using h)
  rw [hsecond, State.suspendKb_laneUp]

theorem State.countLoss_stays {x : KbLane} {lost bad : Nat} (hx : s.sorrel.kb[l]? = some x)
    (hl : x.losses + lost < 2) (hb : x.badFrames + bad < 2) :
    s.countLoss l lost bad = s.setKb l fun x => { x with losses := x.losses + lost, badFrames := x.badFrames + bad } :=
  if_neg (by simpa [hx] using ⟨Nat.le_of_lt_succ hl, Nat.le_of_lt_succ hb⟩)

/-! ## The test -/

theorem State.endKb_kb (s : State) (l : Nat) (pass : Bool) : (s.endKb l pass).sorrel.kb = s.sorrel.kb.modify l fun x =>
    if pass then { x with health := .healthy, echoes := 0 } else { x with health := .retired } := by
  cases pass
  · rw [State.endKb, if_neg Bool.false_ne_true, State.unitEvent_sorrel]
    rfl
  · simp only [State.endKb, if_true]
    rw [foldl_keeps State.sorrel _ (fun s r => s.kbAgain_sorrel r r.errors), State.askAll_sorrel, State.unitEvent_sorrel]
    rfl

/-- A request keeps its kind and whom it serves when it is sent. -/
theorem KeyBus.send_mem {k : KeyBus} {kind : KbKind} {dest : KbFor} (h : ∃ r ∈ k.reqs, r.kind = kind ∧ r.dest = dest) (n tick : Nat) :
    ∃ r ∈ (k.send n tick).reqs, r.kind = kind ∧ r.dest = dest := by
  obtain ⟨r, hr, hk, hd⟩ := h
  unfold KeyBus.send
  split
  · exact ⟨r, hr, hk, hd⟩
  · refine ⟨_, List.mem_map_of_mem hr, ?_⟩
    split <;> exact ⟨hk, hd⟩

theorem State.sendEcho_raises {x : KbLane} (hx : s.sorrel.kb[l]? = some x) :
    ∃ r ∈ (s.sendEcho l).keyBus.reqs, r.kind = .echo x.echoes ∧ r.dest = .lane l := by
  unfold State.sendEcho
  dsimp only
  rw [hx, Option.map_some, Option.getD_some]
  refine KeyBus.send_mem ?_ ..
  exact ⟨_, List.mem_append_right _ (List.mem_singleton_self _), rfl, rfl⟩

theorem exec_echoResponse_answers {r : KbReq} (h : s.keyBus.reqs.find? (fun r => r.dest == .lane l) = some r) (intact : Bool) :
    exec (.echoResponse l intact) s = .next (s.echoBack r l intact) := by
  show execEchoResponse l intact s = _
  rw [execEchoResponse, h]
  rfl

theorem exec_echoResponse_unasked (h : ∀ r ∈ s.keyBus.reqs, r.dest ≠ .lane l) (intact : Bool) :
    exec (.echoResponse l intact) s = guarded (s.mainRuns && decide (l < 2) && !intact) s fun s => (s.countLoss l 0 1).flow := by
  have hnone : s.keyBus.reqs.find? (fun r => r.dest == .lane l) = none := List.find?_eq_none.2 fun r hr => by simpa using h r hr
  show execEchoResponse l intact s = _
  rw [execEchoResponse, hnone]

theorem State.echoBack_torn {x : KbLane} (hx : s.sorrel.kb[l]? = some x) (r : KbReq) :
    ∃ y, (s.echoBack r l false).sorrel.kb[l]? = some y ∧ y.health = .retired := by
  rw [State.echoBack, Bool.not_false, if_pos rfl, State.endKb_kb]
  exact ⟨_, by rw [List.getElem?_modify_eq, show (s.kbEnd r.serial).sorrel = s.sorrel from rfl, hx]; rfl, rfl⟩

/-- An intact frame counts on its lane before anything else. -/
theorem State.setKb_counted {x : KbLane} (hx : s.sorrel.kb[l]? = some x) (n : Nat) :
    ((s.kbEnd n).setKb l fun x => { x with echoes := x.echoes + 1 }).sorrel.kb[l]? = some { x with echoes := x.echoes + 1 } := by
  rw [State.setKb_kb, List.getElem?_modify_eq, show (s.kbEnd n).sorrel = s.sorrel from rfl, hx]
  rfl

theorem State.echoBack_last {x : KbLane} (hx : s.sorrel.kb[l]? = some x) (r : KbReq) (h : 255 ≤ x.echoes) :
    ∃ y, (s.echoBack r l true).sorrel.kb[l]? = some y ∧ y.health = .healthy := by
  have hcount := State.setKb_counted hx r.serial
  have hlast : s.echoBack r l true = (((s.kbEnd r.serial).setKb l fun x => { x with echoes := x.echoes + 1 }).endKb l true).flow :=
    if_pos (by rw [hcount]; simpa using h)
  rw [hlast, State.flow_sorrel, State.endKb_kb, List.getElem?_modify_eq, hcount]
  exact ⟨_, rfl, rfl⟩

theorem State.echoBack_next {x : KbLane} (hx : s.sorrel.kb[l]? = some x) (r : KbReq) (h : x.echoes < 255) :
    (∃ y, (s.echoBack r l true).sorrel.kb[l]? = some y ∧ y.echoes = x.echoes + 1) ∧
      ∃ r' ∈ (s.echoBack r l true).keyBus.reqs, r'.kind = .echo (x.echoes + 1) ∧ r'.dest = .lane l := by
  have hcount := State.setKb_counted hx r.serial
  have hnext : s.echoBack r l true = ((s.kbEnd r.serial).setKb l fun x => { x with echoes := x.echoes + 1 }).sendEcho l :=
    if_neg (by rw [hcount]; simpa using h)
  rw [hnext]
  exact ⟨⟨_, hcount, rfl⟩, State.sendEcho_raises hcount⟩

/-! ## A lost request -/

theorem State.kbLost_lane {r : KbReq} (h : r.dest = .lane l) : s.kbLost r = s.endKb l false := by rw [State.kbLost, h]

theorem State.kbLost_other {r : KbReq} (h : ∀ l, r.dest ≠ .lane l) :
    s.kbLost r = if s.resetting r.domain then s.kbEnd r.serial else s.kbAgain r r.errors := by
  unfold State.kbLost
  split
  · rename_i n hn
    exact absurd hn (h n)
  · rfl

end

/-- Settles O25: a loss, a low link or an ECHO frame moves its own lane, and what it raises or denies leaves the lanes alone. -/
theorem keyBusLanes : Obligations.KeyBusLanes := by
  refine ⟨fun id s r hr => ?_, fun l s hm hl => ?_, fun l s x hx => ⟨fun lost bad => State.countLoss_suspends hx,
    fun lost bad => State.countLoss_stays hx, fun r hr => ⟨?_, fun h => ?_, fun h => ?_⟩⟩⟩
  · have hrun : exec (.keyBusRequestLost id) s =
        .next ((s.kbLost r).countLoss r.lane 1 (if s.thyme.tick < r.tick + 6250 then 1 else 0)).flow := onSome_of_eq hr ..
    dsimp only
    rw [hrun]
    refine ⟨fun hd hq => ?_, fun hd hq => ?_, fun l hd => by rw [State.kbLost_lane hd]⟩
    · rw [State.kbLost_other hd, hq, if_neg Bool.false_ne_true]
    · rw [State.kbLost_other hd, hq, if_pos rfl]
  · have hrun : (s.mainRuns && decide (l < 2)) = true := by simp [hm, hl]
    refine ⟨if_pos hrun, if_pos hrun, s.suspendKb_laneUp l, fun hn => ⟨?_, ?_⟩⟩
    · rw [exec_echoResponse_unasked hn]
      exact if_pos (by simp [hm, Nat.le_of_lt_succ hl])
    · rw [exec_echoResponse_unasked hn]
      exact if_neg (by simp)
  · exact ⟨_, exec_echoResponse_answers hr false, State.echoBack_torn hx r⟩
  · exact ⟨_, exec_echoResponse_answers hr true, State.echoBack_last hx r h⟩
  · obtain ⟨⟨y, hy, hcount⟩, hsent⟩ := State.echoBack_next hx r h
    exact ⟨_, exec_echoResponse_answers hr true, y, hy, hcount, hsent⟩

end Sys2Proof.Machine
end

section
/-! PROOF. Writes of events, the head word and the event interrupt (R362 to R365, R368): the statement EventRule. -/

namespace Sys2Proof.Machine

section
variable {s : State} {d : Nat} {q : EventQ}

theorem EventQ.domain_of_evq? (h : s.evq? d = some q) : q.domain = d := by
  simpa using List.find?_some h

/-! ## A hold leaves the records -/

/-- An event queue but for its hold and the span after its link's return. -/
def EventQ.unheld (q : EventQ) : EventQ := { q with hold := false, recovering := false }

theorem State.setEvq_unheld (f : EventQ → EventQ) (hf : ∀ x, (f x).unheld = x.unheld) :
    ((s.setEvq d f).evq? d).map EventQ.unheld = (s.evq? d).map EventQ.unheld := by
  rw [State.evq?_setEvq s d d f (fun x => congrArg (·.domain) (hf x)), Option.map_map]
  congr 1
  funext x
  simp only [Function.comp]
  split
  · exact hf x
  · rfl

/-- A hold that begins or ends leaves the queue's records (R369). -/
theorem State.checkHold_unheld (s : State) (d : Nat) : ((s.checkHold d).evq? d).map EventQ.unheld = (s.evq? d).map EventQ.unheld := by
  have hend : ((s.endRecovery d).evq? d).map EventQ.unheld = (s.evq? d).map EventQ.unheld := State.setEvq_unheld _ fun _ => rfl
  have hset (b : Bool) : (((s.endRecovery d).setEvq d fun q => { q with hold := b }).evq? d).map EventQ.unheld =
      (s.evq? d).map EventQ.unheld := by
    rw [← hend]
    exact State.setEvq_unheld _ fun _ => by rfl
  unfold State.checkHold
  dsimp only
  split
  · exact hend
  · split
    · exact hset true
    · split
      · exact hset false
      · exact hend

/-! ## The records go out -/

theorem State.sendAll_parsley (s : State) : s.sendAll.parsley = s.parsley := by
  unfold State.sendAll
  split <;> rfl

theorem State.issue_parsley (s : State) (op : RurenOp) (cls : TClass) (d a n : Nat) (data : Bytes) (mk : Nat → Purpose) :
    (s.issue op cls d a n data mk).parsley = s.parsley := by
  unfold State.issue State.issueAt
  exact foldl_keeps State.parsley _ (fun _ _ => by rfl) _ s

theorem State.issue_keeps (s : State) (op : RurenOp) (cls : TClass) (d a n : Nat) (data : Bytes) (mk : Nat → Purpose) {t : Txn}
    (h : t ∈ s.txns) : t ∈ (s.issue op cls d a n data mk).txns :=
  List.foldlRecOn _ _ (motive := fun u : State => t ∈ u.txns) h fun _ hu _ _ => List.mem_append_left _ hu

theorem State.eventsOut_iff : s.eventsOut d = true ↔ ∃ p ∈ s.txns.map Txn.asked, ∃ c n i, p.1 = .events d c n i := by
  unfold State.eventsOut
  rw [List.any_eq_true]
  constructor
  · rintro ⟨t, ht, hp⟩
    split at hp
    · rename_i e c n i he
      exact ⟨_, List.mem_map_of_mem ht, c, n, i, by rw [← eq_of_beq hp]; exact he⟩
    · cases hp
  · rintro ⟨p, hp, c, n, i, he⟩
    obtain ⟨t, ht, rfl⟩ := List.mem_map.1 hp
    exact ⟨t, ht, by rw [show t.purpose = .events d c n i from he]; exact beq_self_eq_true d⟩

/-- One port write of n records from record number c on: rs, from a position of the ring (R363). -/
def State.putRecords (d base c n : Nat) (ints : Bool) (s : State) (pos : Nat) (rs : List Bytes) : State :=
  if rs.isEmpty then s
  else s.issue .write .metadata d (base + 32 * pos) (32 * rs.length) rs.flatten fun _ => .events d c n ints

section
variable {base c n : Nat} {ints : Bool} {pos : Nat} {rs : List Bytes}

theorem State.putRecords_parsley : (s.putRecords d base c n ints pos rs).parsley = s.parsley := by
  unfold State.putRecords
  split
  · rfl
  · exact State.issue_parsley ..

theorem State.putRecords_out (h : rs ≠ []) : (s.putRecords d base c n ints pos rs).eventsOut d = true := by
  rw [State.putRecords, if_neg (by simpa using h)]
  exact State.eventsOut_iff.2 ⟨_, s.issue_asks .., c, n, ints, rfl⟩

theorem State.putRecords_still_out (h : s.eventsOut d = true) : (s.putRecords d base c n ints pos rs).eventsOut d = true := by
  unfold State.putRecords
  split
  · exact h
  · obtain ⟨t, ht, hp⟩ := List.any_eq_true.1 h
    exact List.any_eq_true.2 ⟨t, s.issue_keeps _ _ _ _ _ _ _ ht, hp⟩

end

/-- The gap marker and the staged records that one write takes (R363, R365). -/
def State.eventWrite (s : State) (q : EventQ) (taken : List Event) : List Bytes :=
  (if q.gap != 0 then [q.gapRecord s.thyme.tick q.count.toNat] else []) ++
    eventList taken (q.count.toNat + if q.gap != 0 then 1 else 0)

/-- The staged events that a write takes, and the rest. -/
def EventQ.take (q : EventQ) : List Event × List Event :=
  takeEvents q.staged.length (4 - q.count.toNat % 4) q.freePos (if q.gap != 0 then 1 else 0) false q.staged

/-- The queue after a write of n records that leaves rest staged. -/
def EventQ.written (rest : List Event) (n : Nat) (again : BitVec 32) (q : EventQ) : EventQ :=
  { q with staged := rest, gap := again, count := q.count + BitVec.ofNat 16 n }

theorem State.writeEvents_eq (hq : s.evq? d = some q) (timeout : Bool) :
    let recs := s.eventWrite q q.take.1
    let put := State.putRecords d q.base q.count.toNat recs.length
      (timeout || q.gap != 0 || q.take.1.any fun e => e.prio ≤ q.intPrio.toNat)
    let p := q.count.toNat % 256
    let a := min recs.length (256 - p)
    s.writeEvents d timeout = if recs.length = 0 then s else
      ((put (put (s.setEvq d fun x => { x with
        staged := q.take.2, gap := if q.gap != 0 then 0 else x.gap, count := x.count + BitVec.ofNat 16 recs.length })
        p (recs.take a)) 0 (recs.drop a)).checkHold d).sendAll := by
  simp only [State.writeEvents, hq]
  rfl

theorem State.eventWrite_length (s : State) (q : EventQ) (taken : List Event) : (s.eventWrite q taken).length =
    (if q.gap = 0 then 0 else 1) + (eventList taken (q.count.toNat + if q.gap = 0 then 0 else 1)).length := by
  rcases eq_or_ne q.gap 0 with h | h
  · simp [State.eventWrite, h]
  · have hgap : (q.gap != 0) = true := by simpa using h
    simp only [State.eventWrite, hgap, if_neg h, if_true, List.length_append, List.length_singleton]

/-- A write with records in it takes them off the queue, and is on its way. -/
theorem State.writeEvents_taken (hq : s.evq? d = some q) (timeout : Bool) {n : Nat} (hn : (s.eventWrite q q.take.1).length = n) (h : n ≠ 0) :
    ∃ q', (s.writeEvents d timeout).evq? d = some q' ∧ q'.count = q.count + BitVec.ofNat 16 n ∧ q'.gap = 0 ∧ q'.staged = q.take.2 ∧
      (s.writeEvents d timeout).eventsOut d = true := by
  subst hn
  rw [State.writeEvents_eq hq, if_neg h]
  generalize s.eventWrite q q.take.1 = recs at h
  generalize (timeout || q.gap != 0 || q.take.1.any fun e => e.prio ≤ q.intPrio.toNat) = ints
  set a := min recs.length (256 - q.count.toNat % 256) with hadef
  have hfirst : recs.take a ≠ [] := by
    rw [← List.length_pos_iff, List.length_take]
    have := Nat.mod_lt q.count.toNat (show 256 > 0 by decide)
    omega
  set f : EventQ → EventQ := fun x => { x with
    staged := q.take.2, gap := if q.gap != 0 then 0 else x.gap, count := x.count + BitVec.ofNat 16 recs.length } with hfdef
  set u := ((s.setEvq d f).putRecords d q.base q.count.toNat recs.length ints (q.count.toNat % 256) (recs.take a)).putRecords
    d q.base q.count.toNat recs.length ints 0 (recs.drop a) with hudef
  have hu : u.evq? d = some (f q) := by
    have hat : (s.setEvq d f).evq? d = some (f q) := by
      rw [State.evq?_setEvq s d d f (fun _ => rfl), hq, Option.map_some, EventQ.domain_of_evq? hq, if_pos (beq_self_eq_true d)]
    rw [← hat, State.evq?, State.evq?, hudef, State.putRecords_parsley, State.putRecords_parsley]
  have hout : u.eventsOut d = true := State.putRecords_still_out (State.putRecords_out hfirst)
  have hsent : (u.checkHold d).sendAll.eventsOut d = true := by
    rw [State.eventsOut_iff, State.sendAll_asked, show (u.checkHold d).txns = u.txns from congrArg (·.txns) (u.checkHold_unposted d)]
    exact State.eventsOut_iff.1 hout
  have hheld := u.checkHold_unheld d
  rw [hu, Option.map_some] at hheld
  obtain ⟨q', hq', hsame⟩ := Option.map_eq_some_iff.1 hheld
  have hgap : (f q).gap = 0 := by
    simp only [hfdef]
    split
    · rfl
    · rename_i hno
      simpa using hno
  refine ⟨q', ?_, congrArg (·.count) hsame, (congrArg (·.gap) hsame).trans hgap, congrArg (·.staged) hsame, hsent⟩
  rw [State.evq?, State.sendAll_parsley]
  exact hq'

theorem State.writeEvents_empty (hq : s.evq? d = some q) (timeout : Bool) (h : (s.eventWrite q q.take.1).length = 0) :
    s.writeEvents d timeout = s := by
  rw [State.writeEvents_eq hq, if_pos h]

theorem exec_eventWrite_starts (hq : s.evq? d = some q) (ho : s.eventsOpen q = true) (hs : q.starts = true) :
    exec (.eventWrite d) s = .next (s.writeEvents d false) :=
  onSome_of_eq (by rw [hq, Option.filter_some, if_pos (by rw [ho, hs]; rfl)]) ..

theorem exec_eventTimeout_starts (hq : s.evq? d = some q) (ho : s.eventsOpen q = true) (hs : q.timedOut s.thyme.tick = true) :
    exec (.eventTimeout d) s = .next (s.writeEvents d true) :=
  onSome_of_eq (by rw [hq, Option.filter_some, if_pos (by rw [ho, hs]; rfl)]) ..

/-! ## Interrupts -/

/-- A domain's event interrupt goes out at most once in a tick (R368). -/
theorem State.eventInt_outbox (hq : s.evq? d = some q) (hl : s.linkOff d = false) : (s.eventInt d).outbox =
    if q.lastInt = some s.thyme.tick then s.outbox else s.outbox ++ [.irq (if s.isHost d then .p0 else .p3) d q.vector] := by
  simp only [State.eventInt, hq, hl, Bool.or_false, beq_iff_eq]
  split <;> rfl

theorem State.logTxn_thyme (s : State) (t : Txn) : (s.logTxn t).thyme = s.thyme := by
  unfold State.logTxn
  split <;> rfl

theorem exec_eventWriteResponse_events {port tag c n : Nat} {t : Txn} {i : Bool} (ht : s.txn? port tag = some t)
    (hp : t.purpose = .events d c n i) (hd : t.dead = false) : exec (.eventWriteResponse port tag) s =
      .next (if !i || ((s.endTxn port tag).logTxn t).eventsOut d then (s.endTxn port tag).logTxn t
        else ((s.endTxn port tag).logTxn t).eventInt d).sendAll := by
  refine (onSome_of_eq (x := (t, d, i)) ?_ ..).trans ?_
  · rw [ht, Option.bind_some, hp]
  · simp only [hd, Bool.false_or]

end

/-- Settles O37: a write's records are taken off the queue in one step, and the hold and the requests that follow leave the rest alone. -/
theorem eventRule : Obligations.EventRule := by
  refine ⟨fun d s q hq ho => ?_, fun d w s t ht hd => ?_, fun port tag s t d c n i ht hp hd => ⟨?_, fun q hq hl => ?_⟩⟩
  · have hgap : (if q.gap != 0 then 1 else 0) = if q.gap = 0 then 0 else 1 := by
      rcases eq_or_ne q.gap 0 with h | h <;> simp [h]
    have htake : q.take = takeEvents q.staged.length (4 - q.count.toNat % 4) q.freePos (if q.gap = 0 then 0 else 1) false q.staged := by
      rw [EventQ.take, hgap]
    dsimp only
    rw [← htake, ← s.eventWrite_length]
    intro i hi hstart
    simp only [List.mem_cons, List.not_mem_nil, or_false] at hi
    rcases hi with rfl | rfl
    · rw [exec_eventWrite_starts hq ho hstart]
      exact ⟨fun h => by rw [State.writeEvents_empty hq false h], fun h => ⟨_, rfl, State.writeEvents_taken hq false rfl h⟩⟩
    · rw [exec_eventTimeout_starts hq ho hstart]
      exact ⟨fun h => by rw [State.writeEvents_empty hq true h], fun h => ⟨_, rfl, State.writeEvents_taken hq true rfl h⟩⟩
  · refine (onSome_of_eq ht ..).trans ?_
    simp only [hd, Bool.false_eq_true, if_false]
  · rw [exec_eventWriteResponse_events ht hp hd]
    cases i <;> cases ((s.endTxn port tag).logTxn t).eventsOut d <;> rfl
  · rw [State.eventInt_outbox hq hl, State.logTxn_thyme]
    rfl

end Sys2Proof.Machine
end

section
/-! PROOF. Self-Test: acceptance, start, time-out and end of a test (R350 to R352, Tables 11.7 and 11.7a): the statement SelfTestRule. -/

namespace Sys2Proof.Machine

section
variable {s : State}

/-! ## What leaves the tests as they are -/

theorem State.adminOk_sorrel (s : State) (c : BitVec 17) (r : Nat) : (s.adminOk c r).sorrel = s.sorrel := (State.endJob_sorrel ..).trans rfl

theorem State.adminRefuse_sorrel (s : State) (c : BitVec 17) (st : Status) : (s.adminRefuse c st).sorrel = s.sorrel := State.endJob_sorrel ..

theorem State.suspendBunch_tests (s : State) (b : Nat) : (s.suspendBunch b).sorrel.tests = s.sorrel.tests := by
  unfold State.suspendBunch
  dsimp only
  split
  · rfl
  · rw [State.takeOut_sorrel, State.unitEvent_sorrel]
    exact foldl_keeps (fun u : State => u.sorrel.tests) _ (fun _ _ => by rfl) _ s

theorem State.suspendLane_tests (s : State) (l : Nat) : (s.suspendLane l).sorrel.tests = s.sorrel.tests := by
  unfold State.suspendLane
  split
  · dsimp only
    rw [State.takeOut_sorrel, State.unitEvent_sorrel]
    rfl
  · rfl

theorem State.suspendSeq_tests (s : State) (q : Nat) : (s.suspendSeq q).sorrel.tests = s.sorrel.tests := by
  unfold State.suspendSeq
  split
  · rw [State.vacateSeq_sorrel, State.unitEvent_sorrel]
    rfl
  · rfl

theorem State.testPort_tests_kept (s : State) (p : Nat) : (s.testPort p).sorrel.tests = s.sorrel.tests := by
  unfold State.testPort
  dsimp only
  split <;> rfl

theorem State.suspendPort_tests (s : State) (p : Nat) : (s.suspendPort p).sorrel.tests = s.sorrel.tests := by
  unfold State.suspendPort
  split
  · rfl
  · dsimp only
    split
    · rw [State.testPort_tests_kept]
      split <;> simp [State.setPort]
    · rw [State.testPort_tests_kept, State.unitEvent_sorrel]
      rfl
    · rfl

theorem State.suspendKb_tests (s : State) (l : Nat) : (s.suspendKb l).sorrel.tests = s.sorrel.tests := by
  unfold State.suspendKb
  split
  · rfl
  · dsimp only
    rw [State.kbDown_sorrel, State.sendEcho_sorrel, foldl_keeps State.sorrel _ (fun s r => s.kbAgain_sorrel r r.errors), State.unitEvent_sorrel]
    rfl

theorem State.setThymeHalf_tests (s : State) (second : Bool) (x : Half) : (s.setThymeHalf second x).sorrel.tests = s.sorrel.tests := by
  unfold State.setThymeHalf
  dsimp only
  rw [State.unitEvent_sorrel]
  rfl

/-- A unit that leaves service for its test leaves the other tests (Table 11.7a). -/
theorem State.beginTest_tests (s : State) (kind i : Nat) : (s.beginTest kind i).sorrel.tests = s.sorrel.tests := by
  unfold State.beginTest
  split
  · exact s.suspendLane_tests i
  · exact s.suspendBunch_tests i
  · rfl
  · exact s.suspendSeq_tests i
  · exact s.suspendPort_tests i
  · rfl
  · exact s.setThymeHalf_tests false .left
  · exact s.suspendKb_tests i
  · rfl

/-! ## Acceptance -/

section accept
variable {c : BitVec 17} {j : Job} (hj : s.job? 0 c = some j) (hp : j.phase = .command) (hs : j.status = none) (hr : s.plansRun = true)
  (ho : eOp j.entry = 0x10) (hnew : ∀ t ∈ s.sorrel.tests, t.count ≠ c)

/-- What an accepted test becomes (R350, R351). -/
def State.takeTest (s : State) (c : BitVec 17) (kind i : Nat) : State :=
  if lastIndex kind < i then s.adminFail c .malformed 32
  else if s.unitRetired kind i then s.adminOk c 2
  else { s with sorrel := { s.sorrel with tests := s.sorrel.tests ++
    [{ kind := kind, index := i, accepted := s.thyme.tick, started := false, second := false, count := c }] } }

include hj hp hs hr ho hnew in
theorem State.selfTest_turn {kind : Nat} (hk : eSub j.entry = kind) :
    s.selfTest c kind = .next (s.takeTest c kind (fieldLe j.entry 32 2)).flow := by
  refine onSome_of_eq ?_ ..
  have hfree : (s.sorrel.tests.all fun t => t.count != c) = true := by simpa using hnew
  rw [State.adminJob_of (p := fun x => x == kind) hj hp hs hr ho (beq_iff_eq.2 hk), Option.filter_some, if_pos hfree]

include hj hs in
/-- An index past the last is malformed, a retired unit answers 2, and any other test waits for its start (R350, R351). -/
theorem State.takeTest_accepts {ins : Instr} {kind i : Nat} (hexec : exec ins s = .next (s.takeTest c kind i).flow) :
    (lastIndex kind < i → s.adminEnds ins c .malformed s) ∧
    (i ≤ lastIndex kind → s.unitRetired kind i = true → exec ins s = .next (s.adminOk c 2).flow ∧ (s.adminOk c 2).endedWith 0 c .ok) ∧
    (i ≤ lastIndex kind → s.unitRetired kind i = false → ∃ u : State, exec ins s = .next u.flow ∧ u.sorrel.tests = s.sorrel.tests ++
      [{ kind := kind, index := i, accepted := s.thyme.tick, started := false, second := false, count := c }]) := by
  rw [State.takeTest] at hexec
  refine ⟨fun h => ?_, fun h hret => ?_, fun h hret => ?_⟩
  · exact State.adminEnds_fail hj hs (hexec.trans (by rw [if_pos h]))
  · rw [if_neg (Nat.not_lt.2 h), if_pos hret] at hexec
    exact ⟨hexec, (State.adminOk_ends hj hs 2).1⟩
  · rw [if_neg (Nat.not_lt.2 h), if_neg (by simp [hret])] at hexec
    exact ⟨_, hexec, rfl⟩

end accept

/-! ## Start and time-out -/

section turn
variable {kind i : Nat} {t : SelfTest} {b : Bool}

theorem State.test?_eq (h : s.test? kind i b = some t) : t ∈ s.sorrel.tests ∧ t.kind = kind ∧ t.index = i ∧ t.started = b := by
  have hsome := List.find?_some h
  simp only [Bool.and_eq_true, beq_iff_eq, and_assoc] at hsome
  exact ⟨List.mem_of_find?_eq_some h, hsome⟩

/-- A test that starts leaves the tests that have not. -/
def State.startTest (s : State) (kind i : Nat) (t : SelfTest) : State :=
  let s := s.beginTest kind i
  { s with sorrel := { s.sorrel with tests := s.sorrel.tests.map fun x => if x == t then { x with started := true } else x } }

theorem exec_selfTestStart_turn (h : s.test? kind i false = some t) (hr : s.plansRun = true) (ha : t.accepted < s.thyme.tick)
    (hl : s.thyme.tick ≤ t.accepted + 65536) (hc : s.testCanStart kind i = true) :
    exec (.selfTestStart kind i) s = .next (s.startTest kind i t).flow :=
  onSome_of_eq (by rw [h, Option.filter_some, if_pos (by simp [hr, ha, hl, hc])]) ..

theorem exec_selfTestStart_waits (h : s.test? kind i false = some t)
    (hno : s.thyme.tick ≤ t.accepted ∨ t.accepted + 65536 < s.thyme.tick ∨ s.testCanStart kind i = false) :
    exec (.selfTestStart kind i) s = .next s := by
  have hnone : ((s.test? kind i false).filter fun t => s.plansRun && decide (t.accepted < s.thyme.tick)
      && decide (s.thyme.tick ≤ t.accepted + 65536) && s.testCanStart kind i) = none := by
    rw [h, Option.filter_some, if_neg]
    simp only [Bool.and_eq_true, decide_eq_true_eq]
    rintro ⟨⟨⟨-, ha⟩, hl⟩, hc⟩
    rcases hno with hno | hno | hno
    · omega
    · omega
    · simp [hno] at hc
  show execSelfTestStart kind i s = _
  rw [execSelfTestStart, hnone]
  rfl

theorem State.startTest_tests (h : s.test? kind i false = some t) :
    { t with started := true } ∈ (s.startTest kind i t).sorrel.tests ∧ t ∉ (s.startTest kind i t).sorrel.tests := by
  obtain ⟨hmem, -, -, hstarted⟩ := State.test?_eq h
  simp only [State.startTest, State.beginTest_tests, List.mem_map]
  refine ⟨⟨t, hmem, by simp⟩, ?_⟩
  rintro ⟨x, -, hx⟩
  split at hx
  · rw [← hx] at hstarted
    cases hstarted
  · rename_i hne
    exact hne (beq_iff_eq.2 hx)

/-- What a test whose condition has not come ends with (R351). -/
def State.timeOut (s : State) (kind i : Nat) (t : SelfTest) : State :=
  let s := s.dropTest t
  if s.unitRetired kind i then s.adminOk t.count 2
  else if kind ≤ 5 then s.adminRefuse t.count .resourceBusy
  else s.adminOk t.count 3

theorem exec_selfTestTimeout_turn (h : s.test? kind i false = some t) (hr : s.plansRun = true) (ha : t.accepted + 65536 < s.thyme.tick) :
    exec (.selfTestTimeout kind i) s = .next (s.timeOut kind i t).flow :=
  onSome_of_eq (by rw [h, Option.some_or, Option.filter_some, if_pos (by simp [hr, ha])]) ..

theorem State.timeOut_sorrel (s : State) (kind i : Nat) (t : SelfTest) : (s.timeOut kind i t).sorrel = (s.dropTest t).sorrel := by
  unfold State.timeOut
  dsimp only
  split
  · exact State.adminOk_sorrel ..
  · split
    · exact State.adminRefuse_sorrel ..
    · exact State.adminOk_sorrel ..

theorem State.timeOut_ends {j : Job} (hj : s.job? 0 t.count = some j) (hs : j.status = none) : (s.timeOut kind i t).endedWith 0 t.count
    (if s.unitRetired kind i = false ∧ kind ≤ 5 then .resourceBusy else .ok) := by
  have hkept : (s.dropTest t).job? 0 t.count = some j := hj
  have hsame : (s.dropTest t).unitRetired kind i = s.unitRetired kind i := rfl
  simp only [State.timeOut, hsame]
  cases s.unitRetired kind i
  · by_cases hk : kind ≤ 5
    · simpa [hk] using (State.adminRefuse_ends hkept hs .resourceBusy).1
    · simpa [hk] using (State.adminOk_ends hkept hs 3).1
  · simpa using (State.adminOk_ends hkept hs 2).1

/-! ## The end -/

/-- What the end of a test of its whole set does (R350, R351). -/
def State.testEnded (s : State) (kind i : Nat) (t : SelfTest) (pass : Bool) : State :=
  let v := s.finishTest t pass
  if s.turnNext t pass then v.nextTurn t else v.logTest t (if pass && !v.unitRetired kind i then 0 else 1)

theorem exec_selfTestEnd_whole {pass : Bool} (h : s.test? kind i true = some t) (hr : s.plansRun = true) (hw : s.setRun t pass = true) :
    exec (.selfTestEnd kind i pass) s = .next (s.testEnded kind i t pass).flow :=
  onSome_of_eq (by rw [h, Option.filter_some, if_pos (by rw [hr, hw]; rfl)]) ..

theorem exec_selfTestEnd_running {pass : Bool} (h : s.test? kind i true = some t) (hw : s.setRun t pass = false) :
    exec (.selfTestEnd kind i pass) s = .next s := by
  have hnone : ((s.test? kind i true).filter fun t => s.plansRun && s.setRun t pass) = none := by
    rw [h, Option.filter_some, if_neg (by simp [hw])]
  show execSelfTestEnd kind i pass s = _
  rw [execSelfTestEnd, hnone]
  rfl

/-- Another turn of a pair's test: the first half or cell has passed, and the second is in service (Table 11.7a). -/
theorem State.turnNext_iff (s : State) (t : SelfTest) (pass : Bool) : s.turnNext t pass = true ↔
    pass = true ∧ t.second = false ∧ ((t.kind = 7 ∧ (s.halvesOf .thyme).2 = .inPair) ∨ (t.kind = 9 ∧ s.sorrel.cells = [false, true])) := by
  simp [State.turnNext, and_assoc]

/-- A DILL lane passes only after its whole set, and a port's test ends as SORREL's comparison says (R388, R456). -/
theorem State.setRun_iff (s : State) (t : SelfTest) (pass : Bool) : s.setRun t pass = true ↔
    (t.kind = 3 → pass = true → ∃ x, s.sorrel.dill[t.index]? = some x ∧ (x.health = .retired ∨ testSet .dill ≤ x.tested)) ∧
    (t.kind = 5 → ∃ x, s.sorrel.ports[t.index]? = some x ∧ (x.role = .suspended → s.portTesting t.index = false ∧ pass ≠ x.bad) ∧
      (x.role = .retired → pass = false) ∧ (x.role ≠ .suspended → x.role ≠ .retired → pass = true)) := by
  unfold State.setRun
  split
  · rename_i hk
    cases pass <;> simp [hk, Option.any_eq_true]
  · rename_i hk
    cases hx : s.sorrel.ports[t.index]? with
    | none => simp [hk]
    | some x => cases hrole : x.role <;> simp [hk, hrole]
  · rename_i h3 h5
    exact iff_of_true rfl ⟨fun hk => absurd hk h3, fun hk => absurd hk h5⟩

theorem State.nextTurn_tests (s : State) (t : SelfTest) : (s.nextTurn t).sorrel.tests =
    s.sorrel.tests.map fun x => if x.count == t.count then { x with second := true } else x := by
  unfold State.nextTurn
  dsimp only
  split
  · exact State.setThymeHalf_tests ..
  · rfl

/-- The half or the cell whose test has ended leaves the tests. -/
theorem State.finishTest_pair_tests (pass : Bool) (hk : t.kind = 7 ∨ t.kind = 9) : (s.finishTest t pass).sorrel.tests = s.sorrel.tests := by
  unfold State.finishTest
  rcases hk with hk | hk
  · simp only [hk]
    exact State.setThymeHalf_tests ..
  · simp only [hk]
    split
    · rfl
    · rw [State.unitEvent_sorrel]

theorem State.nextTurn_mem (h : t ∈ s.sorrel.tests) : { t with second := true } ∈ (s.nextTurn t).sorrel.tests := by
  rw [State.nextTurn_tests]
  exact List.mem_map.2 ⟨t, h, by simp⟩

/-- The newest entry of the log is the test that has ended (R351, R359). -/
theorem State.logTest_last (s : State) (t : SelfTest) (n : Nat) : (s.logTest t n).sorrel.testLog.getLast? =
    some { tick := s.thyme.tick, kind := t.kind, outcome := n, index := t.index, count := t.count } := by
  rw [State.logTest, State.adminOk_sorrel]
  dsimp only
  rw [List.getLast?_drop, if_neg (by simp), List.getLast?_append_of_ne_nil _ (by simp)]
  rfl

end turn

end

/-- Settles O45: what a test begins or ends leaves the list of tests to the command itself. -/
theorem selfTestRule : Obligations.SelfTestRule := by
  refine ⟨fun c s j hj hp hs hr ho hnew p hmem hk => ?_, fun kind i s t ht hr => ⟨fun ha hl hc => ?_, ?_, fun ha j hj hs => ?_⟩,
    fun kind i pass s t ht hr => ?_⟩
  · have hturn {kind : Nat} (hk : eSub j.entry = kind) := State.selfTest_turn hj hp hs hr ho hnew hk
    refine State.takeTest_accepts hj hs ?_
    rw [← hturn hk]
    simp only [List.mem_cons, List.not_mem_nil, or_false] at hmem
    rcases hmem with rfl | rfl | rfl | rfl | rfl | rfl | rfl | rfl | rfl <;> rfl
  · exact ⟨_, exec_selfTestStart_turn ht hr ha hl hc, State.startTest_tests ht⟩
  · exact exec_selfTestStart_waits ht
  · refine ⟨_, exec_selfTestTimeout_turn ht hr ha, fun x hx => ?_, State.timeOut_ends hj hs⟩
    rw [State.timeOut_sorrel] at hx
    simpa using (List.mem_filter.1 hx).2
  · obtain ⟨hmem, -, -, -⟩ := State.test?_eq ht
    dsimp only
    rw [← State.setRun_iff, ← State.turnNext_iff]
    refine ⟨fun hw ha => ?_, fun hw ha => ?_, fun hw => exec_selfTestEnd_running ht (by simpa using hw)⟩
    · obtain ⟨-, -, hpair⟩ := (s.turnNext_iff t pass).1 ha
      refine ⟨by rw [exec_selfTestEnd_whole ht hr hw, State.testEnded, if_pos ha], State.nextTurn_mem ?_⟩
      rw [State.finishTest_pair_tests pass (hpair.imp And.left And.left)]
      exact hmem
    · refine ⟨?_, State.logTest_last ..⟩
      rw [exec_selfTestEnd_whole ht hr hw, State.testEnded, if_neg ha]
      simp only [Bool.and_eq_true, Bool.not_eq_true']

end Sys2Proof.Machine
end
